-- ==== Sys2Proof/Word.lean ====
section
/-! DEFINITION. The plainest words of the model: bytes, instruction slots and seals as bit vectors. -/

namespace Sys2Proof

/-- One byte. -/
abbrev Byte := BitVec 8

/-- One 64-bit seal (R203). -/
abbrev Seal := BitVec 64

end Sys2Proof
end

