-- ==== Sys2Proof/Syntax.lean ====
section
/-! DEFINITION. The commands and events of the package: one constructor per row of the opcode table, with its operands.  The
rows carry no bit fields; the operands are what the row's rule says the command or event brings: the part, port, die or
function it happens at, the value written, or what the world outside the package supplies (bytes, readings, results). -/

namespace Sys2Proof

/-- What the two ends of a link find in a training state (R269, R270): whether a signal is found; the bit errors that this end counts in
2^30 bits, lane l of rate code r at place 4 r + l, and the lanes that the peer lists as passing at 400, 200 and 100 Gb/s; in CONFIG, the
peer's chip identifier, port, fresh bit, last accepted number and RETIRED, the measured round trip in sixteenths of a nanosecond (R308),
and the last 58 coded bits of the training stream that each active lane has sent and received (R253); in RESUME, whether the peer has
accepted a flit. -/
structure TrainReport where
  found   : Bool
  errors  : List Nat
  pass400 : BitVec 4
  pass200 : BitVec 4
  pass100 : BitVec 4
  chip    : BitVec 16
  port    : BitVec 4
  fresh   : Bool
  last    : BitVec 16
  retired : BitVec 16
  rtt     : BitVec 20
  sent    : List (BitVec 58)
  got     : List (BitVec 58)
  heard   : Bool
  deriving DecidableEq, Repr

/-- What the sensors report for one power tick: for each die its hottest reading [°C] as (die, hottest) pairs (R424). -/
structure PowerReport where
  temps : List (Nat × Nat)
  deriving DecidableEq, Repr

/-- What the SPD and the training of one DDR5 channel give (R238 to R241): whether a DIMM is there, whether the channel
trained, its type, capacity [GiB], ranks and highest rate [MT/s]. -/
structure DimmReport where
  present : Bool
  ok      : Bool
  mrdimm  : Bool
  gib     : Nat
  ranks   : Nat
  speed   : Nat
  deriving DecidableEq, Repr

/-- Who made the host read that failed (R498): the DMA engine of a core, the dealer for a request, the boot ROM, or the
life-cycle logic. -/
inductive HostReader where
  | dma (p : Fin 176)
  | request (f : Fin 16) (slot : Fin 512)
  | rom
  | lcs
  deriving DecidableEq, Repr

/-- What a scrub finds in a word (R232): nothing new, an error that the write-back ends, one that stays, an uncorrectable one. -/
inductive ScrubFind where
  | clean
  | transient
  | stuck
  | uncorrectable
  deriving DecidableEq, Repr

/-- What configuration software sets in one function's configuration space once the link is up (R475, R478, R497, R499): the
function, whether it exists, Bus Master Enable, Memory Space Enable, MSI-X Enable and the MSI-X function mask. -/
structure FnConfig where
  fn     : Fin 16
  exist  : Bool
  bme    : Bool
  mse    : Bool
  msixEn : Bool
  masked : Bool
  deriving DecidableEq, Repr

/-- A register of a function's configuration space (R474 to R476, R498, R499).  The spec gives no offsets of capabilities, so each is named
(DESIGN CHOICE, log entry 84). -/
inductive CfgReg where
  | id
  | command
  | classCode
  | bar (i : Fin 6)
  | subsystem
  | capability (i : Fin 16)
  | power
  | devCap
  | devCtl
  | devCap2
  | devCtl2
  | linkCap
  | linkCtl
  | msixCtl
  | msixTable
  | msixPba
  | sriovVfs
  | sriovCtl
  | sriovNum
  | sriovOffset
  | sriovDevice
  | vfBar (i : Fin 6)
  | aer
  deriving DecidableEq, Repr

/-- Where a host access of 32 bits goes: BAR0 at an offset, with the byte enables of the access (R477, R480, R481); the BAR4 of a function at an
offset (R477, R478); or a register of a function's configuration space (R475).  The rows of register accesses take all of them, for no row is there
for the last two (DESIGN CHOICE, log entry 84). -/
inductive HostAddr where
  | bar0 (addr : Nat) (enable : BitVec 4)
  | bar4 (f : Fin 16) (offset : Nat)
  | config (f : Fin 16) (r : CfgReg)
  deriving DecidableEq, Repr

/-- The commands and events of the package, one constructor per row of the opcode table. -/
inductive Instr where
  /-- NOP (R87): Sequencer instruction that does nothing beyond evaluating its wait and applying its signal. -/
  | nop (p : Fin 176)
  /-- WAIT (R87): Stops sequencer issue until the flag wait in its wait word holds. -/
  | wait (p : Fin 176)
  /-- SIGNAL (R87): Applies its signal word to a flag of this core or another core of the package at execution. -/
  | signal (p : Fin 176)
  /-- LOOP (R89): Opens a loop level that runs its body COUNT times, or skips the body when COUNT is 0. -/
  | loop (p : Fin 176)
  /-- ENDL (R89): Advances the innermost loop index and branches back or closes the loop. -/
  | endl (p : Fin 176)
  /-- SETP (R90): Writes one predicate from a constant, loop index, dealing number, scratchpad word or predicate logic. -/
  | setp (p : Fin 176)
  /-- BRP (R91): Branches by a signed slot offset when the tested predicate, optionally inverted, is 1. -/
  | brp (p : Fin 176)
  /-- TRICK (R92): Waits for all issued instructions to complete, closes open windows and arrives at the hand's trick. -/
  | trick (p : Fin 176)
  /-- ADG (R96): Loads an address-generator slot or adds DELTA to its BASE. -/
  | adg (p : Fin 176)
  /-- WOPEN (R93): Opens a remote-write or fetch window over a scratchpad range and updates every window mirror. -/
  | wopen (p : Fin 176)
  /-- WCLOSE (R93): Closes one window or all windows in every window mirror. -/
  | wclose (p : Fin 176)
  /-- MARK (R94): Records VALUE, stream offset and TABLE_TIME in the mark registers when MARK_EN is 1. -/
  | mark (p : Fin 176)
  /-- HALT (R94): Stops sequencer issue and sets SEQ_STATUS.HALTED. -/
  | halt (p : Fin 176)
  /-- MLOAD (R171): Reads the stationary operand into a matrix-engine buffer, optionally transposed, with its scales. -/
  | mload (p : Fin 176)
  /-- MMUL (R172): Streams operand rows against a stationary buffer and adds products into accumulator blocks, starting or extending a sum. -/
  | mmul (p : Fin 176)
  /-- MDRAIN (R176): Converts accumulator rows and writes them out, optionally after the ABFT checksum comparison. -/
  | mdrain (p : Fin 176)
  /-- MBURN (R182): Runs PASSES discarded array passes at the configured duty without touching scratchpad or sums. -/
  | mburn (p : Fin 176)
  /-- VOP (R186): Applies an element-wise vector function and converts each result once to DFMT. -/
  | vop (p : Fin 176)
  /-- VRED (R187): Reduces groups of LEN source elements to one result each. -/
  | vred (p : Fin 176)
  /-- VCVT (R188): Converts elements between formats with source and destination scales. -/
  | vcvt (p : Fin 176)
  /-- FEXP (R189): Computes the correctly rounded exponential of each element. -/
  | fexp (p : Fin 176)
  /-- FLOG (R189): Computes the correctly rounded logarithm of each element. -/
  | flog (p : Fin 176)
  /-- FRSQ (R189): Computes the correctly rounded reciprocal square root of each element. -/
  | frsq (p : Fin 176)
  /-- FACT (R189): Applies the activation function selected by TABLE to each element. -/
  | fact (p : Fin 176)
  /-- DCOPY (R243): Copies units from A0 to A1 across any address spaces, carrying tile seals. -/
  | dcopy (p : Fin 176)
  /-- DFILL (R243): Fills each destination unit with a repeated 32-bit pattern. -/
  | dfill (p : Fin 176)
  /-- DGATHER (R245): Fetches units at indexed offsets from a table base and writes them to the destination in order. -/
  | dgather (p : Fin 176)
  /-- LPUT (R258): Sends local scratchpad tiles as DATA and DATA_LAST flits to a remote window on a route. -/
  | lput (p : Fin 176)
  /-- LFETCH (R288): Sends a FETCH flit asking a remote window for tiles to land in the local scratchpad. -/
  | lfetch (p : Fin 176)
  /-- LSIG (R82): Sends a SIGNAL flit that adds an increment to a flag of a remote core. -/
  | lsig (p : Fin 176)
  /-- RADD (R195): Adds two tiles in FP32, A64 or A128 mode and writes the sum tile. -/
  | radd (p : Fin 176)
  /-- RANCHOR (R196): Forms or combines exponent records by taking the larger value. -/
  | ranchor (p : Fin 176)
  /-- RCVT (R197): Converts floating-point tiles to anchored form or anchored tiles back to floating point under anchor records. -/
  | rcvt (p : Fin 176)
  /-- SPMM (R184): Adds sparse delta-set products of activation rows exactly into anchored accumulator blocks. -/
  | spmm (p : Fin 176)
  /-- SAMPLE (R193): Chooses one token per logits row from its parameter record and seeded random value. -/
  | sample (p : Fin 176)
  /-- SLOGP (R194): Computes the FP32 log-probability of a given token per logits row. -/
  | slogp (p : Fin 176)
  /-- ENGINE_START (R76): An engine starts its head instruction once that instruction's flag wait holds. -/
  | engineStart (p : Fin 176) (e : Fin 9)
  /-- INSTRUCTION_COMPLETE (R78): An issued instruction completes its reads and sealed writes and applies its signal once. -/
  | instructionComplete (p : Fin 176) (e : Fin 9)
  /-- FLAG_TIMEOUT (R53): A wait or trick arrival stays unsatisfied for WAIT_LIMIT of table time and the core faults. -/
  | flagTimeout (p : Fin 176) (e : Fin 9)
  /-- STREAM_PAGE_FETCH (R102): A later stream page arrives in an instruction-store frame and its seals are checked. -/
  | streamPageFetch (p : Fin 176) (page : Nat)
  /-- REQUEST_PROMOTE (R117): A bank-port request waits AGE_LIMIT cycles and is promoted ahead of all but link receive. -/
  | requestPromote (p : Fin 176) (receive : Bool) (waited : Nat)
  /-- ABORT_TRICK (R69): The dealer sees a fault report and sends an abort trick to the hand's trick group on every package. -/
  | abortTrick (p : Fin 176)
  /-- MEMBER_ARRIVE (R49): A member's engines, windows and remote writes have all completed and it arrives at its trick or abort trick. -/
  | memberArrive (p : Fin 176)
  /-- DEAL (R47): The dealer deals a ready, admitted dealing, fixing its deal time and serial and writing its batch area and records. -/
  | deal (pick : List Nat) (need : Nat) (extra : Nat)
  /-- MEMBER_RESUME (R320): A member's die TABLE_TIME reaches the deal time T and the member starts or resumes its stream. -/
  | memberResume (p : Fin 176)
  /-- DUMMY_LOAD_STEP (R324): A ramp step of S elapses and a waiting member's dummy-load level moves. -/
  | dummyLoadStep (p : Fin 176)
  /-- JOKER_SWAP (R463): A marked core between rounds is replaced by a joker of its die and retired. -/
  | jokerSwap (p : Fin 176)
  /-- CHECK_DUE (R453): The check period elapses and a known-answer check becomes due on the next core. -/
  | checkDue
  /-- GROUP_RESUME (R449): Every tree port of a group is ACTIVE again with PEER_DDOWN 0 and the root deals from the last checkpoint. -/
  | groupResume (g : Fin 64)
  /-- FLIT_TIME_SEND (R294): In each flit time a port sends a replay, due unsequenced flit, TRICK flit, slot-wheel flit or IDLE. -/
  | flitTimeSend (port : Fin 16)
  /-- FLIT_RECEIVE (R262): A received flit is decoded, checked, sequenced, acknowledged and routed, updating NAK, ACK and RETIRED state.
  `levels` holds the PAM4 levels that each active lane received, lowest lane first (R253, R254), and `ago` the sixteenths of a nanosecond since the first symbol arrived (R308). -/
  | flitReceive (port : Fin 16) (levels : List (List Nat)) (ago : Nat)
  /-- ACK_TIMEOUT (R266): No header advances ACK for ACK_TIMEOUT while flits are buffered, so a replay starts. -/
  | ackTimeout (port : Fin 16)
  /-- OVERRUN_RECEIVE (R278): The sender receives OVERRUN and pauses sequenced sends for OVR_BACKOFF. -/
  | overrunReceive (port : Fin 16) (last : Fin 65536)
  /-- OVERRUN_BACKOFF_EXPIRE (R278): The overrun back-off elapses and the sender replays from the reported number uncounted. -/
  | overrunBackoffExpire (port : Fin 16)
  /-- REDEAL_REQ (R268): A REDEAL_REQ control flit from the peer makes the port re-deal. -/
  | redealReq (port : Fin 16)
  /-- LINK_SIGNAL_LOSS (R268): Signal or codeword alignment is lost on an active lane for more than 1 µs and the port re-deals. -/
  | linkSignalLoss (port : Fin 16) (lane : Fin 4)
  /-- PEER_TRAINING_SEEN (R268): The peer's training pattern appears on the lanes and the port re-deals. -/
  | peerTrainingSeen (port : Fin 16)
  /-- TRAINING_STATE_DONE (R269): A training state completes its work and the port moves to the next state, reaching ACTIVE at last. -/
  | trainingStateDone (port : Fin 16) (report : TrainReport)
  /-- TRAINING_TIMEOUT (R269): A training state's timer expires, failing a re-deal or restarting a bring-up training attempt. -/
  | trainingTimeout (port : Fin 16)
  /-- LINK_RECEIVE_WRITE (R277): The elastic buffer passes a delivered DATA or DATA_LAST flit to its core's link receive, writing lines and seal. -/
  | linkReceiveWrite (port : Fin 16)
  /-- REMOTE_SIGNAL_APPLY (R277): A delivered SIGNAL flit or DATA_LAST signal adds its increment to the target flag. -/
  | remoteSignalApply (port : Fin 16)
  /-- STALE_WAIT_EXPIRE (R276): A flit for the next hand tag waits 100 µs at the elastic buffer head and is treated as stale. -/
  | staleWaitExpire (port : Fin 16)
  /-- FLIT_FORWARD (R293): A flit on a forward entry enters its output port's flow with a new sequence number and route. -/
  | flitForward (port : Fin 16)
  /-- FETCH_SERVE (R289): The fetch responder serves an accepted FETCH by reading tiles and sending return flits. -/
  | fetchServe (p : Fin 176)
  /-- FETCH_RETURN (R290): A fetch-return flit is written into the fetcher's scratchpad through its LFETCH slot and checked. -/
  | fetchReturn (port : Fin 16)
  /-- TRICK_ARRIVE (R318): An ARRIVE flit from a child is counted toward the subtree's arrival at a trick. -/
  | trickArrive (port : Fin 16)
  /-- TRICK_RELEASE (R320): A RELEASE is forwarded to children and its deal time delivered to local members. -/
  | trickRelease (port : Fin 16)
  /-- TRICK_END (R320): An END is forwarded and the non-root package counts the dealing as ended. -/
  | trickEnd (port : Fin 16)
  /-- TRICK_DEAL (R321): A DEAL is forwarded and the package deals the named hand at T when it is ready. -/
  | trickDeal (port : Fin 16)
  /-- TRICK_ABORT (R323): An ABORT is forwarded on tree ports and stops local members, withdraws a load or holds the image. -/
  | trickAbort (port : Fin 16)
  /-- TRICK_ABORT_ARRIVE (R323): An ABORT_ARRIVE from a child is counted toward the abort trick's arrival. -/
  | trickAbortArrive (port : Fin 16)
  /-- TRICK_ABORT_DONE (R323): ABORT_DONE makes each dealer journal the fault and return its groups to the checkpoint trick. -/
  | trickAbortDone (port : Fin 16)
  /-- PARTNER_COMPARE (R347): A partner COMPARE is matched against the local digest of the same dealing and the group continues or stops. -/
  | partnerCompare
  /-- PARTNER_RECORD (R349): A partner RECORD is compared with the local RECORD of the same instruction in search mode. -/
  | partnerRecord
  /-- PARTNER_SEARCH (R348): A partner SEARCH returns the group to its checkpoint and repeats the round in search mode. -/
  | partnerSearch
  /-- BEACON (R308): A beacon on the followed port yields an offset that slews the table-time rate or requests a step. -/
  | beacon (ppm : Nat)
  /-- TIME_LOCK (R305): The filtered offset stays within LOCK_NS for 1 ms and the time state becomes LOCKED. -/
  | timeLock
  /-- BEACON_LOSS (R309): The followed port delivers no beacon for 100 µs and the package switches to ALT or HOLDOVER. -/
  | beaconLoss
  /-- TIME_STEP_APPLY (R310): A pending step is applied once no member holds an unreached deal time, then held flits are delivered. -/
  | timeStepApply
  /-- TIME_MARK (R303): A hub time mark disciplines a die's table-time copy. -/
  | timeMark (die : Fin 25)
  /-- PPS_EDGE (R311): A pulse-per-second edge at the root marks a whole second or applies a requested step. -/
  | ppsEdge
  /-- EXT_REF_LOSS (R311): The external time inputs miss edges for 2 s and the root falls back to the system reference. -/
  | extRefLoss
  /-- FREQ_SWITCH (R314): The retuned PLL locks, the die mesh stops briefly, switches PLL and restarts. -/
  | freqSwitch (die : Fin 16) (stop : Fin 17)
  /-- POWER_TICK (R426): Every 10 µs tick the power controller updates the account, spendable power, budgets and pacing levels. -/
  | powerTick (report : PowerReport)
  /-- PACING_LEVEL_STEP (R427): Every 256 cycles a core's issue pacing moves one level toward its target. -/
  | pacingLevelStep (p : Fin 176)
  /-- FREQ_STEP (R428): After 1 ms of deep pacing or ample budget the power controller steps a die down or up 50 MHz. -/
  | freqStep (die : Fin 16)
  /-- POWER_MEASURE (R422): Every 1 ms the hub reads READ_PIN from named regulators and compares estimate with measurement. -/
  | powerMeasure (replies : List (Option (BitVec 16)))
  /-- THERMAL_THROTTLE_STEP (R434): A hot die's FLIMIT falls every 100 µs, or a cool die's rises every 1 ms. -/
  | thermalThrottleStep (die : Fin 16)
  /-- THERMAL_TRIP (R435): A sensor reaches 115 °C or a stack exceeds its limit and the package trips and stops. -/
  | thermalTrip
  /-- DROOP_DETECT (R436): A droop sensor reports low supply and the die's cores are held at pacing level 8. -/
  | droopDetect (die : Fin 16)
  /-- DROOP_HOLD_EXPIRE (R436): The 1 µs droop hold ends and cores return to their levels step by step. -/
  | droopHoldExpire (die : Fin 16)
  /-- REGION_CLOCK_STOP (R437): An idle core region stops its clock. -/
  | regionClockStop (p : Fin 176)
  /-- REGION_POWER_GATE (R438): A clock-stopped region stays idle for DELAY_MS and power-gates, with or without retention. -/
  | regionPowerGate (p : Fin 176)
  /-- DIE_POWER_GATE (R439): A die whose regions and uses are all idle gates its shared logic and puts its stack in self-refresh. -/
  | diePowerGate (die : Fin 24)
  /-- DIE_WAKE_DONE (R439): A gated die completes its wake and becomes awake for dealings and page access. -/
  | dieWakeDone (die : Fin 24)
  /-- SWEEP (R385): The dealer sweeps enabled request logs, taking submissions, cancels and refusals. -/
  | sweep
  /-- REQUEST_ADMIT (R388): A waiting request's stake, KV pages and front slot allow it and it is admitted. -/
  | requestAdmit (f : Fin 16)
  /-- COMPLETION_WRITE (R402): The dealer writes a completion entry and its PHASE word when the ring has room. -/
  | completionWrite (f : Fin 16)
  /-- COMPLETION_MSG_TIMER (R405): The moderation TIMER elapses after a completion and the function's MSI-X message is sent. -/
  | completionMsgTimer (f : Fin 16)
  /-- REQUEST_LOG_WRITE (R479): A host write TLP to a request log or its control line is applied, entry bytes before the valid word. -/
  | requestLogWrite (f : Fin 16) (offset : Nat) (bytes : List Byte)
  /-- HEALTH_SAMPLE (R458): Once per second counter increases are added to part health scores and thresholds are tested. -/
  | healthSample
  /-- HEALTH_DECAY (R458): Every DECAY_H hours each non-retired score loses an eighth. -/
  | healthDecay
  /-- HEALTH_STORE (R458): Once per hour the dealer stores the HEALTH section of MRAM. -/
  | healthStore
  /-- JOURNAL_STORE (R446): Within 1 s of a change the dealer stores the fault journal section. -/
  | journalStore
  /-- SCRUB_PASS (R233): The memory controller scrubs words of its stack or channel, writing back corrections and poisoning uncorrectable tiles. -/
  | scrubPass (ddr : Bool) (unit : Nat) (word : Nat) (found : ScrubFind)
  /-- HOST_READ_TIMEOUT (R498): A host memory read times out or ends in a completion error and its data is poisoned or the request ends. -/
  | hostReadTimeout (who : HostReader)
  /-- DEALER_WATCHDOG_EXPIRE (R467): The dealer watchdog expires and the supervisor enters dealer-down. -/
  | dealerWatchdogExpire
  /-- LOCKSTEP_MISMATCH (R467): The dealer cores' outputs differ and the supervisor enters dealer-down. -/
  | lockstepMismatch
  /-- SAG_DETECT (R522): The auxiliary input sags, PWR_FAIL_N falls, MAIN_PG falls or a main rail drops and the package stops. -/
  | sagDetect (auxLow : Bool) (pwrFail : Bool)
  /-- HOLDUP_SAVE_DONE (R522): The hold-up save stores HEALTH, JOURNAL and SAVE and sets SAVE_DONE. -/
  | holdupSaveDone
  /-- PACKAGE_RESET (R505): Power-on or PERST_N resets the package and bring-up begins from stage 1. -/
  | packageReset (perst : Bool)
  /-- BIST_DONE (R509): A C-die finishes its built-in self-test, retiring failing cores or failing the die. -/
  | bistDone (die : Fin 16) (shared : Bool) (failing : List Nat)
  /-- HBM_TRAINING_DONE (R236): A stack finishes training and its seal area is poisoned. -/
  | hbmTrainingDone (die : Fin 16) (ok : Bool)
  /-- DDR_TRAINING_DONE (R241): DDR5 training of the tier finishes with TIER_READY or a failed channel. -/
  | ddrTrainingDone (results : List DimmReport)
  /-- ANCHOR_SELFTEST_DONE (R510): A die's anchored known-answer test finishes and failing cores are marked. -/
  | anchorSelftestDone (die : Fin 16) (failing : List Nat)
  /-- LINK_WAIT_EXPIRE (R508): LINK_WAIT elapses and stage 5 completes even with ports not ACTIVE. -/
  | linkWaitExpire
  /-- FW_CHECK_DONE (R514): The boot ROM finishes fetching and checking a firmware image and starts or rejects it. -/
  | fwCheckDone
  /-- PLAN_LOAD_DONE (R33): The dealer finishes checking a plan image and accepts or rejects it. -/
  | planLoadDone
  /-- NVM_OPERATION_DONE (R520): An MRAM store or erase finishes writing its bank and digest. -/
  | nvmOperationDone (ok : Bool)
  /-- LCS_OPERATION_DONE (R528): A life-cycle token, claim or certificate chain has been read and checked, and the operation is performed or refused. -/
  | lcsOperationDone (ok : Bool)
  /-- ATT_RESULT_READY (R503): The security engine finishes forming the requested report or chain. -/
  | attResultReady
  /-- FUNCTION_LEVEL_RESET (R409): A function-level reset disables the function, detaches held requests and clears its log. -/
  | functionLevelReset (f : Fin 16)
  /-- D3HOT_ENTRY (R500): A function enters D3hot and its serving is disabled. -/
  | d3hotEntry (f : Fin 16)
  /-- VF_DISABLE (R500): VF Enable is cleared or NumVFs lowered and the affected virtual functions are disabled. -/
  | vfDisable (keep : Fin 16)
  /-- HOT_RESET (R500): A hot reset, link disable or DL_Down disables all functions and clears VF Enable. -/
  | hotReset
  /-- BAR2_WRITE (R210): A host posted write to device memory is applied and clears VALID in the touched seals. -/
  | bar2Write (f : Fin 16) (addr : Nat) (bytes : List Byte)
  /-- BAR2_READ (R491): A host read of device memory returns data, zeros or a poisoned completion. -/
  | bar2Read (f : Fin 16) (addr : Nat) (len : Nat)
  /-- REGISTER_WRITE (R6): A BAR0 write to a register field without behaviour of its own sets, clears or ignores the field by its access code. -/
  | registerWrite (addr : HostAddr) (value : BitVec 32)
  /-- LATCHED_PAIR_READ (R482): A read of the LO half of a latched pair returns it and latches the HI half. -/
  | latchedPairRead (addr : HostAddr)
  /-- EVT_FORCE (R484): A write forces page events, setting status bits and possibly sending the page message. -/
  | evtForce (page : Nat) (value : BitVec 32)
  /-- EVT_ENABLE_WRITE (R484): Writing EVT_ENABLE may make PENDING and MSG_EN true and send the page message. -/
  | evtEnableWrite (page : Nat) (value : BitVec 32)
  /-- PAGE_CTRL_WRITE (R484): Setting MSG_EN while PENDING is 1 sends the page message. -/
  | pageCtrlWrite (page : Nat) (value : BitVec 32)
  /-- SEQ_RESUME (R94): SEQ_CTRL.RESUME resumes a halted core where debug pages are open. -/
  | seqResume (p : Fin 176)
  /-- SPM_DBG_READ (R131): A read of SPM_DBG_DATA makes a debug read of one scratchpad word. -/
  | spmDbgRead (p : Fin 176)
  /-- SPM_DBG_WRITE (R131): A write of SPM_DBG_DATA stores one scratchpad word and invalidates its tile seal. -/
  | spmDbgWrite (p : Fin 176) (value : Nat)
  /-- MXU_INJECT (R201): Adds one unit to the next compared checksum so that its column 0 fails. -/
  | mxuInject (p : Fin 176)
  /-- SEA_INJECT (R224): Inverts bit 0 of the CRC of the next seal the core writes. -/
  | seaInject (p : Fin 176)
  /-- DDR_RETRAIN (R241): Retrains the DDR5 tier and discards its contents. -/
  | ddrRetrain
  /-- LNK_REDEAL (R268): Host command that re-deals a port. -/
  | lnkRedeal (port : Fin 16)
  /-- LNK_TRAIN (R272): Host command that starts training of a port from QUIET or DOWN. -/
  | lnkTrain (port : Fin 16)
  /-- LNK_BIN_CLEAR (R282): Empties a port's discard bin and clears FULL. -/
  | lnkBinClear (port : Fin 16)
  /-- ROUTE_ENTRY_WRITE (R301): Writing RTE_DATA_LO stores a route entry in every copy and advances INDEX. -/
  | routeEntryWrite (value : BitVec 32)
  /-- ROUTE_ENTRY_READ (R301): Reading RTE_DATA_LO returns the low word of an entry and latches its high word. -/
  | routeEntryRead
  /-- TIM_STEP (R311): At the root, requests a step of table time to TIM_SET. -/
  | timStep
  /-- TIM_RELOCK (R327): Returns a LOCKED or HOLDOVER package to ACQUIRE. -/
  | timRelock
  /-- XPK_CLEAR (R340): Clears the withdrawn state and ABORT_HELD so images are accepted again. -/
  | xpkClear
  /-- XPK_SEARCH (R348): Starts the partner search of the mismatched group. -/
  | xpkSearch
  /-- XPK_RESUME (R347): Resumes dealing after a partner mismatch without a search. -/
  | xpkResume
  /-- STAGE (R360): Stages an epoch into a pair's back slot, or waits as a pending command. -/
  | stage (pair : Fin 32)
  /-- CUT (R361): Exchanges a pair's front and back slots, or waits until the cut conditions hold. -/
  | cut (pair : Fin 32)
  /-- DROP (R363): Returns a STAGED back slot to FREE, waiting for a dealing that names it. -/
  | drop (pair : Fin 32)
  /-- CANCEL (R379): Cancels the pending weight-slot command. -/
  | cancel
  /-- WSL_PENDING_DONE (R361): A pending STAGE, CUT or DROP finds its conditions met and is performed. -/
  | wslPendingDone
  /-- CLAIM (R372): Moves a delta seat from FREE to LOADING. -/
  | claim (seat : Fin 4096)
  /-- ENLIST (R372): Makes a loading delta seat LIVE with a new version and retires the previous one. -/
  | enlist (seat : Fin 4096)
  /-- RELEASE (R372): Returns a LOADING delta seat to FREE. -/
  | release (seat : Fin 4096)
  /-- WITHDRAW (R372): Retires a delta set's LIVE seat so new admissions naming it are refused. -/
  | withdraw (seat : Fin 4096)
  /-- LOAD (R494): Starts the load and check of a plan image at the configured device address. -/
  | load
  /-- UNLOAD (R495): Unloads the plan image, completing requests and letting dealings in progress end. -/
  | unload
  /-- CLEAR_DRIFT (R433): Ends drift mode and returns to the estimate. -/
  | clearDrift
  /-- BID_RESET (R431): Clears the bid controller's phase table. -/
  | bidReset
  /-- PWR_HOLD_AWAKE_WRITE (R442): Names dies to keep awake, waking any gated one at once. -/
  | pwrHoldAwakeWrite (dies : BitVec 24)
  /-- RESUME (R451): Clears PLAN_STOPPED and return counts and resumes dealing. -/
  | resume
  /-- RETIRE (R462): Marks the named core part for retirement. -/
  | retire (part : Fin 256)
  /-- CHECK_NOW (R453): Makes a known-answer check due at once. -/
  | checkNow
  /-- HUB_RESET (R468): Starts a hub-only reset that discards firmware, plan and serving state. -/
  | hubReset
  /-- STORE (R521): Stores an MRAM section from the live values. -/
  | store (sect : Fin 16)
  /-- ERASE (R521): Erases both banks of an MRAM section. -/
  | erase (sect : Fin 16)
  /-- SUBMIT (R528): Reads and processes a life-cycle transition token. -/
  | submit
  /-- EXIT_DEBUG (R526): Returns FIELD_DEBUG to FIELD at once. -/
  | exitDebug
  /-- CLAIM_OWNER (R529): Reads an owner token and stores the owner key hash. -/
  | claimOwner
  /-- CERT (R531): Reads and stores the device certificate chain in PROVISION. -/
  | cert
  /-- ATTESTATION_REPORT (R532): Requests a signed attestation report over the captured nonce. -/
  | attestationReport
  /-- CERTIFICATE_CHAIN (R531): Requests the device certificate chain, or the public key in PROVISION. -/
  | certificateChain
  /-- GO (R512): Starts the boot ROM's fetch and check of a firmware image. -/
  | go
  /-- FUNCTION_ENABLE (R398): Enables a function, filling its stake and restarting its completion count. -/
  | functionEnable (f : Fin 16)
  /-- FUNCTION_DISABLE (R408): Disables a function, ending its requests and stopping its sweep. -/
  | functionDisable (f : Fin 16)
  /-- STAKE_BURST_WRITE (R398): Sets a function's burst and lowers its stake level to it. -/
  | stakeBurstWrite (f : Fin 16) (value : BitVec 32)
  /-- RESET_RELEASE (R547): PERST_N is high, MAIN_PG is high and the reference clocks are stable for 100 µs, so the package leaves reset and bring-up stage 1 begins. -/
  | resetRelease
  /-- PCIE_LINK_UP (R508): The PCI Express link reaches L0 and, with fuses sensed and MRAM read, bring-up stage 1 completes and sets AON_PCIE. -/
  | pcieLinkUp (speed : Fin 16) (width : Fin 32) (flitMode : Bool) (config : List FnConfig)
  /-- HUB_RESET_DONE (R468): A hub-only reset ends, AON_STATUS.STATE leaves 0x2 and bring-up continues from stage 2. -/
  | hubResetDone
  /-- REGION_WAKE_DONE (R438): A power-gated core region completes its wake, and its zeroing after gating without retention, so SPM_STATUS.POWERED is 1 and a member waiting for power may start. -/
  | regionWakeDone (p : Fin 176)
  /-- SYSREF_LOSS (R542): SYSREF stops and the always-on domain switches to its internal oscillator. -/
  | sysrefLoss
  /-- SYSREF_RETURN (R542): SYSREF becomes present and the always-on domain runs again from the 25 MHz clock derived from it. -/
  | sysrefReturn
  /-- MSIX_UNMASK (R499): Host software clears a vector mask or the function mask while a pending bit is set, and the held MSI-X message is sent. -/
  | msixUnmask (f : Fin 16) (entry : Option (Fin 2048))
  deriving DecidableEq, Repr

end Sys2Proof
end

