-- ==== Sys2Proof/WellFormed.lean ====
section
/-! DEFINITION. Which commands are well formed: operands of the sizes that the spec's packets, tables and address ranges have.  An
operand of a `Fin` type has its range already.  `exec` gives a meaning to every command, well formed or not. -/

namespace Sys2Proof

/-- Whether the place of a host access of 32 bits exists: BAR0 of 256 MiB; words of BAR4, of 16 MiB in the physical function and 1 MiB in a
virtual one (R477). -/
def HostAddr.wellFormed : HostAddr → Bool
  | .bar0 addr _ => decide (addr < 2 ^ 28)
  | .bar4 f off => off % 4 == 0 && decide (off < if f.val = 0 then 2 ^ 24 else 2 ^ 20)
  | .config _ _ => true

/-- Whether a command is well formed.  Checked: engine identifiers of engine events 1 to 8 (R76, R78); stream pages after the first
(R102); request slots 512 × function + slot, each once (R382); PAM4 levels (R253); units, indices and
dies of a power report (R424); eight regulators (R423); one TLP within a request log (R381, R479); units of a tier and their words (R232,
R233); physical cores of a die (R13); eight DDR5 channels (R238); a BAR2 request within 64 GiB that crosses no 4 KiB boundary (R477, R497);
BAR0 offsets below 256 MiB, aligned in a read, and words of BAR4 (R477, R481); page offsets (R480); 32-bit debug words (R135); link speeds and widths (R474, R504); entries of an
MSI-X table (R478); parts 0 to 175 (R472). -/
def Instr.wellFormed (i : Instr) : Bool :=
  match i with
  | .nop _ => true
  | .wait _ => true
  | .signal _ => true
  | .loop _ => true
  | .endl _ => true
  | .setp _ => true
  | .brp _ => true
  | .trick _ => true
  | .adg _ => true
  | .wopen _ => true
  | .wclose _ => true
  | .mark _ => true
  | .halt _ => true
  | .mload _ => true
  | .mmul _ => true
  | .mdrain _ => true
  | .mburn _ => true
  | .vop _ => true
  | .vred _ => true
  | .vcvt _ => true
  | .fexp _ => true
  | .flog _ => true
  | .frsq _ => true
  | .fact _ => true
  | .dcopy _ => true
  | .dfill _ => true
  | .dgather _ => true
  | .lput _ => true
  | .lfetch _ => true
  | .lsig _ => true
  | .radd _ => true
  | .ranchor _ => true
  | .rcvt _ => true
  | .spmm _ => true
  | .sample _ => true
  | .slogp _ => true
  | .engineStart _ e => decide (1 ≤ e.val)
  | .instructionComplete _ e => decide (1 ≤ e.val)
  | .flagTimeout _ _ => true
  | .streamPageFetch _ page => decide (1 ≤ page) && decide (page < 2 ^ 18)
  | .requestPromote _ _ _ => true
  | .abortTrick _ => true
  | .memberArrive _ => true
  | .deal pick _ _ => pick.all (fun k => decide (k < 8192)) && decide pick.Nodup
  | .memberResume _ => true
  | .dummyLoadStep _ => true
  | .jokerSwap _ => true
  | .checkDue => true
  | .groupResume _ => true
  | .flitTimeSend _ => true
  | .flitReceive _ levels _ => levels.all (fun l => l.all (fun v => decide (v < 4)))
  | .ackTimeout _ => true
  | .overrunReceive _ _ => true
  | .overrunBackoffExpire _ => true
  | .redealReq _ => true
  | .linkSignalLoss _ _ => true
  | .peerTrainingSeen _ => true
  | .trainingStateDone _ _ => true
  | .trainingTimeout _ => true
  | .linkReceiveWrite _ => true
  | .remoteSignalApply _ => true
  | .staleWaitExpire _ => true
  | .flitForward _ => true
  | .fetchServe _ => true
  | .fetchReturn _ => true
  | .trickArrive _ => true
  | .trickRelease _ => true
  | .trickEnd _ => true
  | .trickDeal _ => true
  | .trickAbort _ => true
  | .trickAbortArrive _ => true
  | .trickAbortDone _ => true
  | .partnerCompare => true
  | .partnerRecord => true
  | .partnerSearch => true
  | .beacon _ => true
  | .timeLock => true
  | .beaconLoss => true
  | .timeStepApply => true
  | .timeMark _ => true
  | .ppsEdge => true
  | .extRefLoss => true
  | .freqSwitch _ _ => true
  | .powerTick report => report.temps.all (fun t => decide (t.1 < 25))
  | .pacingLevelStep _ => true
  | .freqStep _ => true
  | .powerMeasure replies => decide (replies.length ≤ 8)
  | .thermalThrottleStep _ => true
  | .thermalTrip => true
  | .droopDetect _ => true
  | .droopHoldExpire _ => true
  | .regionClockStop _ => true
  | .regionPowerGate _ => true
  | .diePowerGate _ => true
  | .dieWakeDone _ => true
  | .sweep => true
  | .requestAdmit _ => true
  | .completionWrite _ => true
  | .completionMsgTimer _ => true
  | .requestLogWrite _ offset bytes => decide (0 < bytes.length) && decide (bytes.length ≤ 512) && decide (offset + bytes.length ≤ 0x10040)
  | .healthSample => true
  | .healthDecay => true
  | .healthStore => true
  | .journalStore => true
  | .scrubPass ddr unit word _ => decide (unit < if ddr then 8 else 16) && decide (word < 2 ^ 33)
  | .hostReadTimeout _ => true
  | .dealerWatchdogExpire => true
  | .lockstepMismatch => true
  | .sagDetect _ _ => true
  | .holdupSaveDone => true
  | .packageReset _ => true
  | .bistDone _ _ failing => failing.all (fun c => decide (c < 11)) && decide failing.Nodup
  | .hbmTrainingDone _ _ => true
  | .ddrTrainingDone results => decide (results.length ≤ 8)
  | .anchorSelftestDone _ failing => failing.all (fun c => decide (c < 11)) && decide failing.Nodup
  | .linkWaitExpire => true
  | .fwCheckDone => true
  | .planLoadDone => true
  | .nvmOperationDone _ => true
  | .lcsOperationDone _ => true
  | .attResultReady => true
  | .functionLevelReset _ => true
  | .d3hotEntry _ => true
  | .vfDisable _ => true
  | .hotReset => true
  | .bar2Write _ addr bytes => decide (0 < bytes.length) && decide (addr % 4096 + bytes.length ≤ 4096) && decide (addr + bytes.length ≤ 2 ^ 36)
  | .bar2Read _ addr len => decide (0 < len) && decide (addr % 4096 + len ≤ 4096) && decide (addr + len ≤ 2 ^ 36)
  | .registerWrite addr _ => addr.wellFormed
  | .latchedPairRead addr => addr.wellFormed && (match addr with | .bar0 a _ => a % 4 == 0 | _ => true)
  | .evtForce page _ => decide (page < 2 ^ 28) && page % 4096 == 0
  | .evtEnableWrite page _ => decide (page < 2 ^ 28) && page % 4096 == 0
  | .pageCtrlWrite page _ => decide (page < 2 ^ 28) && page % 4096 == 0
  | .seqResume _ => true
  | .spmDbgRead _ => true
  | .spmDbgWrite _ value => decide (value < 2 ^ 32)
  | .mxuInject _ => true
  | .seaInject _ => true
  | .ddrRetrain => true
  | .lnkRedeal _ => true
  | .lnkTrain _ => true
  | .lnkBinClear _ => true
  | .routeEntryWrite _ => true
  | .routeEntryRead => true
  | .timStep => true
  | .timRelock => true
  | .xpkClear => true
  | .xpkSearch => true
  | .xpkResume => true
  | .stage _ => true
  | .cut _ => true
  | .drop _ => true
  | .cancel => true
  | .wslPendingDone => true
  | .claim _ => true
  | .enlist _ => true
  | .release _ => true
  | .withdraw _ => true
  | .load => true
  | .unload => true
  | .clearDrift => true
  | .bidReset => true
  | .pwrHoldAwakeWrite _ => true
  | .resume => true
  | .retire part => decide (part.val < 176)
  | .checkNow => true
  | .hubReset => true
  | .store _ => true
  | .erase _ => true
  | .submit => true
  | .exitDebug => true
  | .claimOwner => true
  | .cert => true
  | .attestationReport => true
  | .certificateChain => true
  | .go => true
  | .functionEnable _ => true
  | .functionDisable _ => true
  | .stakeBurstWrite _ _ => true
  | .resetRelease => true
  | .pcieLinkUp speed width _ config => decide (1 ≤ speed.val) && decide (speed.val ≤ 6) && [1, 2, 4, 8, 16].contains width.val && decide (config.length ≤ 16)
  | .hubResetDone => true
  | .regionWakeDone _ => true
  | .sysrefLoss => true
  | .sysrefReturn => true
  | .msixUnmask f entry => (match entry with | some e => decide (e.val < if f.val = 0 then 2048 else 64) | none => true)

end Sys2Proof
end

