-- ==== Sys2Proof/Decode.lean ====
section
/-! DEFINITION. The decoder of command words.  No row of the opcode table gives its command bits (each has an empty list of fields), so
no word spells a command: commands reach the package as bus accesses and events, not as words. -/

namespace Sys2Proof

/-- The command that a word spells by the table's bits: none, for every word, since the table gives no row bits. -/
def decodeTableWord (_nbits _w : Nat) : Option Instr := none

end Sys2Proof
end

