-- ==== Sys2Proof/Machine/Formats.lean ====
section
/-! DEFINITION. Number formats (R136 to R151), anchored values (R154, R160 to R165) and exact rational arithmetic on them.
A code stands for one exact value; every conversion forms an exact value and rounds once. -/

namespace Sys2Proof.Machine

/-! ## Bits and bytes of natural numbers -/

/-- Bits `[lo + n - 1 : lo]` of `w`. -/
def bitsOf (w lo n : Nat) : Nat := (w >>> lo) % 2 ^ n

/-- Bit `i` of `w` as a Boolean. -/
def bitOf (w i : Nat) : Bool := bitsOf w i 1 = 1

/-- A little-endian byte string as a number (R4). -/
def leNat : List Byte → Nat
  | [] => 0
  | b :: bs => b.toNat + 256 * leNat bs

/-- The `n` little-endian bytes of a number (R4). -/
def leBytes : Nat → Nat → List Byte
  | 0, _ => []
  | n + 1, v => BitVec.ofNat 8 v :: leBytes n (v / 256)

/-- An `n`-bit code read as a two's-complement integer. -/
def signedOf (n v : Nat) : Int := if v < 2 ^ (n - 1) then (v : Int) else (v : Int) - (2 ^ n : Nat)

/-- The `n`-bit two's-complement code of an integer. -/
def codeOf (n : Nat) (i : Int) : Nat := (i % ((2 ^ n : Nat) : Int)).toNat

/-- One as a number when the condition holds. -/
def ofBool (b : Bool) : Nat := if b then 1 else 0

/-! ## Exact arithmetic -/

/-- Two to an integer power. -/
def pow2 (e : Int) : Rat := if 0 ≤ e then ((2 ^ e.toNat : Nat) : Rat) else 1 / ((2 ^ (-e).toNat : Nat) : Rat)

/-- The magnitude of a rational. -/
def qabs (q : Rat) : Rat := if q < 0 then -q else q

/-- `floor (log2 q)` for positive `q`. -/
def floorLog2 (q : Rat) : Int :=
  let n := q.num.natAbs
  let k : Int := (Nat.log2 n : Int) - (Nat.log2 q.den : Int)
  if pow2 k ≤ q then k else k - 1

/-- `ceil (log2 q)` for positive `q`. -/
def ceilLog2 (q : Rat) : Int :=
  let k := floorLog2 q
  if pow2 k = q then k else k + 1

/-- Rounding mode: nearest with ties to even, or toward zero (R147). -/
inductive RMode where
  | nearest
  | zero
  deriving DecidableEq, Repr

/-- A non-negative rational rounded to an integer (R147). -/
def roundNat (r : RMode) (q : Rat) : Nat :=
  let f := q.floor.toNat
  match r with
  | .zero => f
  | .nearest =>
    let d := q - (f : Rat)
    if d < 1 / 2 then f
    else if 1 / 2 < d then f + 1
    else if f % 2 = 0 then f else f + 1

/-! ## Formats -/

/-- The twelve formats of R136. -/
inductive Fmt where
  | fp32 | bf16 | fp16 | e4m3 | e5m2 | e3m2 | e2m3 | e2m1 | int8 | int4 | l8 | fp64
  deriving DecidableEq, Repr

/-- The format of a code; codes 0xC to 0xF are illegal (R136). -/
def Fmt.ofCode : Nat → Option Fmt
  | 0 => some .fp32 | 1 => some .bf16 | 2 => some .fp16 | 3 => some .e4m3 | 4 => some .e5m2 | 5 => some .e3m2
  | 6 => some .e2m3 | 7 => some .e2m1 | 8 => some .int8 | 9 => some .int4 | 10 => some .l8 | 11 => some .fp64
  | _ => none

/-- The code of a format (R136). -/
def Fmt.code : Fmt → Nat
  | .fp32 => 0 | .bf16 => 1 | .fp16 => 2 | .e4m3 => 3 | .e5m2 => 4 | .e3m2 => 5
  | .e2m3 => 6 | .e2m1 => 7 | .int8 => 8 | .int4 => 9 | .l8 => 10 | .fp64 => 11

/-- Element size in bits (R136). -/
def Fmt.width : Fmt → Nat
  | .fp32 => 32 | .bf16 => 16 | .fp16 => 16 | .e4m3 => 8 | .e5m2 => 8 | .e3m2 => 6
  | .e2m3 => 6 | .e2m1 => 4 | .int8 => 8 | .int4 => 4 | .l8 => 8 | .fp64 => 64

/-- How a format treats infinities and NaNs (R138, R139). -/
inductive Specials where
  | ieee    -- exponent all ones: infinity and NaN
  | nanOnly -- E4M3: one NaN magnitude
  | none    -- no special code
  deriving DecidableEq, Repr

/-- Parameters of a binary floating-point format (R138). -/
structure FloatFmt where
  ebits : Nat
  mbits : Nat
  bias  : Int
  spec  : Specials
  deriving DecidableEq, Repr

/-- The floating-point parameters of a format (R138); `none` for INT8, INT4 and L8. -/
def Fmt.float : Fmt → Option FloatFmt
  | .fp64 => some ⟨11, 52, 1023, .ieee⟩
  | .fp32 => some ⟨8, 23, 127, .ieee⟩
  | .bf16 => some ⟨8, 7, 127, .ieee⟩
  | .fp16 => some ⟨5, 10, 15, .ieee⟩
  | .e4m3 => some ⟨4, 3, 7, .nanOnly⟩
  | .e5m2 => some ⟨5, 2, 15, .ieee⟩
  | .e3m2 => some ⟨3, 2, 3, .none⟩
  | .e2m3 => some ⟨2, 3, 1, .none⟩
  | .e2m1 => some ⟨2, 1, 1, .none⟩
  | .int8 => none
  | .int4 => none
  | .l8 => none

/-- The largest finite code magnitude of a floating-point format (R138). -/
def FloatFmt.maxCode (f : FloatFmt) : Nat :=
  match f.spec with
  | .ieee => (2 ^ f.ebits - 1) * 2 ^ f.mbits - 1
  | .nanOnly => 2 ^ (f.ebits + f.mbits) - 2
  | .none => 2 ^ (f.ebits + f.mbits) - 1

/-- The magnitude of a finite code without its sign bit (R139). -/
def FloatFmt.magOf (f : FloatFmt) (c : Nat) : Rat :=
  let e := c / 2 ^ f.mbits
  let m := c % 2 ^ f.mbits
  if e = 0 then (m : Rat) * pow2 (1 - f.bias - f.mbits)
  else ((2 ^ f.mbits + m : Nat) : Rat) * pow2 ((e : Int) - f.bias - f.mbits)

/-- The code magnitude whose value is `q` rounded once, without an upper bound on the exponent (R147, R152).
Consecutive codes stand for consecutive values, so a carry out of the mantissa is the next exponent. -/
def FloatFmt.roundCode (f : FloatFmt) (r : RMode) (q : Rat) : Nat :=
  if q = 0 then 0
  else
    let emin : Int := 1 - f.bias
    let e := max (floorLog2 q) emin
    let n := roundNat r (q * pow2 (f.mbits - e))
    (e - emin).toNat * 2 ^ f.mbits + n

/-! ## Values -/

/-- An exact value: NaN, a signed infinity, or a rational; `neg` is the sign, which matters for a zero. -/
inductive Val where
  | nan
  | inf (neg : Bool)
  | fin (neg : Bool) (q : Rat)
  deriving DecidableEq, Repr

/-- A rational as a value; its zero is +0. -/
def Val.ofRat (q : Rat) : Val := .fin (decide (q < 0)) q

/-- The rational of a value with a zero of the sign given (R147). -/
def Val.ofRatSign (neg : Bool) (q : Rat) : Val := if q = 0 then .fin neg 0 else Val.ofRat q

/-- Whether a value is a NaN. -/
def Val.isNan : Val → Bool
  | .nan => true
  | _ => false

/-- Whether a value is finite. -/
def Val.isFin : Val → Bool
  | .fin _ _ => true
  | _ => false

/-- Sign of a value; NaN counts as positive (R140). -/
def Val.sign : Val → Bool
  | .nan => false
  | .inf n => n
  | .fin n _ => n

/-- The rational of a finite value, 0 otherwise. -/
def Val.rat : Val → Rat
  | .fin _ q => q
  | _ => 0

/-- Negation (R186: exact); that of an integer zero is −0 (DESIGN CHOICE, log entry 114). -/
def Val.neg : Val → Val
  | .nan => .nan
  | .inf n => .inf (!n)
  | .fin n q => .fin (!n) (-q)

/-- Magnitude (R186: exact). -/
def Val.abs : Val → Val
  | .nan => .nan
  | .inf _ => .inf false
  | .fin _ q => .fin false (qabs q)

/-- Exact sum; a zero sum is −0 only when both addends are −0 (R152; for the sums of VOP, VRED and SLOGP, whose sign of zero R147 and R186 do
not name, DESIGN CHOICE, log entry 114). -/
def Val.add : Val → Val → Val
  | .nan, _ => .nan
  | _, .nan => .nan
  | .inf a, .inf b => if a = b then .inf a else .nan
  | .inf a, .fin _ _ => .inf a
  | .fin _ _, .inf b => .inf b
  | .fin m a, .fin n b => Val.ofRatSign (decide (a = 0) && decide (b = 0) && m && n) (a + b)

/-- Exact product (R152, R158, R186); the sign of a zero product is that of its factors together (R147; DESIGN CHOICE, log entry 114),
and two infinities give an infinity with that sign (R158 names neither; DESIGN CHOICE, log entry 128). -/
def Val.mul : Val → Val → Val
  | .nan, _ => .nan
  | _, .nan => .nan
  | .inf a, .inf b => .inf (a != b)
  | .inf a, .fin n b => if b = 0 then .nan else .inf (a != n)
  | .fin n b, .inf a => if b = 0 then .nan else .inf (a != n)
  | .fin m a, .fin n b => .fin (m != n) (a * b)

/-- Whether `a < b` in the order in which −0 lies below +0 (R186); false when either is a NaN. -/
def Val.lt : Val → Val → Bool
  | .nan, _ => false
  | _, .nan => false
  | .inf a, .inf b => a && !b
  | .inf a, .fin _ _ => a
  | .fin _ _, .inf b => !b
  | .fin m a, .fin n b => decide (a < b) || (decide (a = 0) && decide (b = 0) && m && !n)

/-- Whether `a > b` numerically (CMPGT of R186: the two zeros are equal). -/
def Val.gtNum : Val → Val → Bool
  | .fin _ a, .fin _ b => decide (b < a)
  | a, b => Val.lt b a

/-! ## L8 -/

/-- The table T of R142. -/
def l8T : Nat → Nat
  | 0 => 32768 | 1 => 35734 | 2 => 38968 | 3 => 42495 | 4 => 46341 | 5 => 50535 | 6 => 55109 | _ => 60097

/-- The magnitude `T[f] × 2^(q − 15)` of a logarithm `k` (R142, R143). -/
def l8Mag (k : Int) : Rat :=
  let q := k / 8
  let f := (k % 8).toNat
  (l8T f : Rat) * pow2 (q - 15)

/-- The logarithm field of an L8 code (R142). -/
def l8Log (c : Nat) : Int := signedOf 7 (bitsOf c 0 7)

/-- The matrix-engine product of two L8 codes (R143). -/
def l8Prod (a b : Nat) : Val :=
  let s := bitOf a 7 != bitOf b 7
  if l8Log a = -64 ∨ l8Log b = -64 then .fin s 0
  else
    let q := l8Mag (l8Log a + l8Log b)
    .fin s (if s then -q else q)

/-- The L8 logarithm of a positive rational (R150): nearest, or floor when rounding toward zero.
`8·log2 x` is compared through the sixteenth power, so the logarithm is exact. -/
def l8LogOf (r : RMode) (x : Rat) : Int :=
  match r with
  | .nearest => floorLog2 (2 * x ^ 16) / 2
  | .zero => floorLog2 (x ^ 8)

/-- Conversion of a finite value to an L8 code (R150). -/
def l8Code (r : RMode) (neg : Bool) (x : Rat) : Nat :=
  let s := if neg then 128 else 0
  if x = 0 then s + 64
  else
    let k := l8LogOf r (qabs x)
    if k ≤ -64 then s + 64 else if 63 ≤ k then s + 63 else s + codeOf 7 k

/-! ## Codes and values -/

/-- The value of a code (R139 to R142). -/
def Fmt.decode (f : Fmt) (c : Nat) : Val :=
  match f.float with
  | some ff =>
    let s := bitOf c (ff.ebits + ff.mbits)
    let m := bitsOf c 0 (ff.ebits + ff.mbits)
    let e := m / 2 ^ ff.mbits
    let allOnes := e = 2 ^ ff.ebits - 1
    if ff.spec = .ieee ∧ allOnes then (if m % 2 ^ ff.mbits = 0 then .inf s else .nan)
    else if ff.spec = .nanOnly ∧ m = 2 ^ (ff.ebits + ff.mbits) - 1 then .nan
    else
      let q := ff.magOf m
      .fin s (if s then -q else q)
  | none =>
    if f = .l8 then
      let s := bitOf c 7
      if l8Log c = -64 then .fin s 0
      else
        let q := l8Mag (l8Log c)
        .fin s (if s then -q else q)
    else Val.ofRat ((signedOf f.width c : Int) : Rat)

/-- The canonical NaN of a format (R140); formats without one convert a NaN as R148 states. -/
def Fmt.nanCode : Fmt → Nat
  | .fp64 => 0x7FF8000000000000 | .fp32 => 0x7FC00000 | .bf16 => 0x7FC0 | .fp16 => 0x7E00 | .e5m2 => 0x7E
  | .e4m3 => 0x7F | .e3m2 => 0 | .e2m3 => 0 | .e2m1 => 0 | .int8 => 0 | .int4 => 0 | .l8 => 64

/-- Whether a format has a NaN code (R138). -/
def Fmt.hasNan (f : Fmt) : Bool :=
  match f.float with
  | some ff => ff.spec != .none
  | none => false

/-- The largest finite value of each format (R138, R142, R151). -/
def Fmt.maxFinite (f : Fmt) : Rat :=
  match f.float with
  | some ff => ff.magOf ff.maxCode
  | none => match f with
    | .int8 => 127
    | .int4 => 7
    | _ => l8Mag 63

/-- Conversion of an exact value to a code, rounding once and limiting as R147 to R150 state. -/
def Fmt.encode (f : Fmt) (r : RMode) (v : Val) : Nat :=
  match f.float with
  | some ff =>
    let top := 2 ^ (ff.ebits + ff.mbits)
    let sgn (n : Bool) : Nat := if n then top else 0
    match v with
    | .nan => f.nanCode
    | .inf n => sgn n + (if ff.spec = .ieee then (2 ^ ff.ebits - 1) * 2 ^ ff.mbits else ff.maxCode)
    | .fin n q => sgn n + min (ff.roundCode r (qabs q)) ff.maxCode
  | none =>
    if f = .l8 then
      match v with
      | .nan => f.nanCode
      | .inf n => if n then 128 + 63 else 63
      | .fin n q => l8Code r n q
    else
      let hi : Int := 2 ^ (f.width - 1) - 1
      let lo : Int := -(2 ^ (f.width - 1))
      match v with
      | .nan => 0
      | .inf n => codeOf f.width (if n then lo else hi)
      | .fin n q =>
        let m : Int := roundNat r (qabs q)
        codeOf f.width (max lo (min hi (if n then -m else m)))

/-- One rounding to FP32 under IEEE 754 arithmetic, where overflow gives an infinity (R152). -/
def ieeeFp32 (v : Val) : Nat :=
  match v with
  | .fin n q =>
    let c := (FloatFmt.mk 8 23 127 .ieee).roundCode .nearest (qabs q)
    (if n then 2 ^ 31 else 0) + min c 0x7F800000
  | w => Fmt.encode .fp32 .nearest w

/-! ## Bit streams (R137) -/

/-- The elements of width `w`, from element `n0` on, `cnt` of them, of a byte string read as one bit stream (R137). -/
def elems (w n0 cnt : Nat) (bytes : List Byte) : List Nat :=
  let v := leNat bytes
  (List.range cnt).map (fun i => bitsOf v (w * (n0 + i)) w)

/-- Codes of width `w` packed into a number (R137). -/
def packNat (w : Nat) : List Nat → Nat
  | [] => 0
  | c :: cs => c % 2 ^ w + 2 ^ w * packNat w cs

/-- Codes of width `w` packed into `n` bytes; bits after the last code are 0 (R137, R168). -/
def packBytes (w n : Nat) (cs : List Nat) : List Byte := leBytes n (packNat w cs)

/-! ## Block scales (R144 to R146, R151) -/

/-- The value of an E8M0 scale byte (R145). -/
def e8m0 (x : Nat) : Val := if x = 255 then .nan else Val.ofRat (pow2 ((x : Int) - 127))

/-- The constant `emax` of R151 for each format that may carry an E8M0 scale. -/
def Fmt.emax : Fmt → Int
  | .e4m3 => 8 | .e5m2 => 15 | .e3m2 => 4 | .e2m3 => 2 | .e2m1 => 2 | .int8 => 6 | .int4 => 2 | .l8 => 7
  | .fp16 => 0 | .bf16 => 0 | .fp32 => 0 | .fp64 => 0

/-- The constant Q of R155. -/
def Fmt.anchorQ : Fmt → Int
  | .bf16 => 128 | .fp16 => 16 | .e4m3 => 9 | .e5m2 => 16 | .e3m2 => 5 | .e2m3 => 3 | .e2m1 => 3
  | .int8 => 7 | .int4 => 3 | .l8 => 8 | .fp32 => 128 | .fp64 => 1024

/-- The largest magnitude among the finite values of a list. -/
def amaxOf : List Val → Rat
  | [] => 0
  | v :: vs => max (if v.isFin then qabs v.rat else 0) (amaxOf vs)

/-- The scale byte and the element codes of one block converted with an E8M0 scale (R151). -/
def scaleE8m0 (f : Fmt) (r : RMode) (vs : List Val) : Nat × List Nat :=
  if vs.any (fun v => !v.isFin) then (255, vs.map (fun _ => f.encode r (.fin false 0)))
  else
    let a := amaxOf vs
    if a = 0 then (0, vs.map (fun _ => f.encode r (.fin false 0)))
    else
      let x : Int := max (-127) (min 127 (floorLog2 a - f.emax))
      ((x + 127).toNat, vs.map (fun v => f.encode r (.fin v.sign (v.rat * pow2 (-x)))))

/-- The scale code and the element codes of one row converted with an FP32 row scale (R151). -/
def scaleFp32 (f : Fmt) (r : RMode) (vs : List Val) : Nat × List Nat :=
  if vs.any (fun v => !v.isFin) then (Fmt.nanCode .fp32, vs.map (fun _ => f.encode r (.fin false 0)))
  else
    let a := amaxOf vs
    if a = 0 then (Fmt.encode .fp32 .nearest (.fin false 1), vs.map (fun _ => f.encode r (.fin false 0)))
    else
      let c := max 1 (Fmt.encode .fp32 .nearest (.fin false (a / f.maxFinite)))
      let s := (Fmt.decode .fp32 c).rat
      (c, vs.map (fun v => f.encode r (.fin v.sign (v.rat / s))))

/-! ## Anchored values (R154, R156 to R165) -/

/-- The class of an anchored element (R158). -/
inductive Cls where
  | finite
  | posInf
  | negInf
  | nan
  deriving DecidableEq, Repr

/-- The join of two classes (R158). -/
def Cls.join : Cls → Cls → Cls
  | .finite, c => c
  | c, .finite => c
  | .posInf, .posInf => .posInf
  | .negInf, .negInf => .negInf
  | _, _ => .nan

/-- The class of a value (R158). -/
def Val.cls : Val → Cls
  | .nan => .nan
  | .inf n => if n then .negInf else .posInf
  | .fin _ _ => .finite

/-- The largest window magnitude, `2^127 − 1` (R154). -/
def windowMax : Int := 2 ^ 127 - 1

/-- The largest A64 magnitude, `2^63 − 1` (R161, R163). -/
def a64Max : Int := 2 ^ 63 - 1

/-- The two anchored tile forms of R160. -/
inductive Anch where
  | a64
  | a128
  deriving DecidableEq, Repr

/-- Bytes of one element (R160). -/
def Anch.size : Anch → Nat
  | .a64 => 8
  | .a128 => 16

/-- The largest magnitude of a form (R160, R163). -/
def Anch.top : Anch → Int
  | .a64 => a64Max
  | .a128 => windowMax

/-- Fraction bits below the anchor: 31 for A64 and 95 for A128 (R160). -/
def Anch.frac : Anch → Int
  | .a64 => 31
  | .a128 => 95

/-- An anchored element: an integer, or NV (R160). -/
def Anch.decode (a : Anch) (c : Nat) : Option Int :=
  let v := signedOf (8 * a.size) c
  if v = -(a.top + 1) then none else some v

/-- The code of an anchored element; NV is the most negative code (R160). -/
def Anch.encode (a : Anch) : Option Int → Nat
  | none => 2 ^ (8 * a.size - 1)
  | some v => codeOf (8 * a.size) v

/-- An integer limited to a form's bound, and whether it had to be (R163, R164). -/
def Anch.sat (a : Anch) (v : Int) : Int × Bool :=
  if a.top < v then (a.top, true) else if v < -a.top then (-a.top, true) else (v, false)

/-- Conversion of a value to anchored form at anchor `A`, and whether it saturated (R163). -/
def Anch.ofVal (a : Anch) (A : Int) (v : Val) : Option Int × Bool :=
  match v with
  | .fin _ q =>
    let p := a.sat (q * pow2 (a.frac - A)).floor
    (some p.1, p.2)
  | _ => (none, false)

/-- Exact addition of two anchored elements at one anchor, and whether it saturated (R164). -/
def Anch.add (a : Anch) : Option Int → Option Int → Option Int × Bool
  | some x, some y =>
    let p := a.sat (x + y)
    (some p.1, p.2)
  | _, _ => (none, false)

/-- The value of an anchored element (R165). -/
def Anch.toVal (a : Anch) (A : Int) : Option Int → Val
  | none => .nan
  | some v => Val.ofRat ((v : Rat) * pow2 (A - a.frac))

/-- EMPTY of R162. -/
def recEmpty : Nat := 0x8000

/-- The larger of two exponent records; EMPTY is smaller than every valid value (R162). -/
def recMax (a b : Nat) : Nat :=
  if a = recEmpty then b
  else if b = recEmpty then a
  else if signedOf 16 a < signedOf 16 b then b else a

/-- The anchor that a record gives; EMPTY acts as 0 (R162). -/
def recAnchor (a : Nat) : Int := if a = recEmpty then 0 else signedOf 16 a

/-- The exponent record of a list of values (R162). -/
def recOf : List Val → Nat
  | [] => recEmpty
  | v :: vs =>
    match v with
    | .fin _ q => if q = 0 then recOf vs else recMax (codeOf 16 (floorLog2 (qabs q) + 1)) (recOf vs)
    | _ => recOf vs

end Sys2Proof.Machine
end

