-- ==== Sys2Proof/Config.lean ====
section
/-! DEFINITION. What the spec leaves open, as constants without a body: free values, and functions that the spec names and
does not define.  Nothing in Lean can evaluate one; a statement that holds, holds for every value.  Each is named in a
row of the assumption log. -/

namespace Sys2Proof.Config

open Sys2Proof.Machine

/-- A free truth value, taken fresh at each use by a counter of the state (R121: whether two accesses without a flag
between them meet in one cycle; R235). -/
opaque freeBool : Nat → Bool

/-- A free number, taken fresh at each use by a counter of the state (random nonces of R528, timing-dependent values). -/
opaque freeNat : Nat → Nat

/-- The byte that a read of host memory returns: by read counter and address (host memory is outside the package). -/
opaque hostByte : Nat → Nat → Byte

/-- The KV pages of a request while SRV_KV_CFG.PAGE_TOKENS is 0, which is outside its range (R388, R414): by its tokens. -/
opaque kvPages : Nat → Nat

/-- The result of a function-engine operation at a value where no stated precision decides the rounding (R189). -/
opaque xfnOpen : Nat → Val → Nat

/-- ML-DSA-65 signature verification (R515, R528): key, message digest, signature. -/
opaque mldsaVerify : List Byte → List Byte → List Byte → Bool

/-- The ML-DSA-65 public key of a secret key (R530). -/
opaque mldsaPublic : List Byte → List Byte

/-- ML-DSA-65 signing (R532): a counter for its randomness, the secret key, and the message digest. -/
opaque mldsaSign : Nat → List Byte → List Byte → List Byte

/-- The subject public key of an X.509 v3 certificate in DER (R531). -/
opaque certKey : List Byte → List Byte

/-- Whether an X.509 v3 certificate verifies under another, its issuer's (R531). -/
opaque certSigned : List Byte → List Byte → Bool

/-- The wire and DDR5-channel slots that a plan image directs for the flows of a hand (R231): by HAND_ID, wheel, slot and flow. -/
opaque wheelSlots : Nat → List (Nat × Nat × Nat)

/-- Soft errors of the memory cells of the package (R127, R232): by a counter of the state, the core or stack hit, the word in it and
whether the word can be corrected; none in a tick without one. -/
opaque upset : Nat → Option (Nat × Nat × Bool)

/-- Key hashes in the fuses of the part: 0 to 3 firmware keys, 4 the Ovusto life-cycle key, 5 the root key (R514, R528, R531). -/
opaque fuseHash : Nat → List Byte

/-- The device identifier in the fuses of the part (R537). -/
opaque deviceId : BitVec 64

/-- The Vendor ID of the package in configuration space, which the spec does not give (R475). -/
opaque vendorId : BitVec 16

/-- The Completion Timeout Ranges that the port supports, which the spec does not give (R474, R498). -/
opaque timeoutRanges : BitVec 4

/-- The boot ROM contents (R532). -/
opaque bootRom : List Byte

end Sys2Proof.Config
end

