-- ==== Sys2Proof/Machine/SMap.lean ====
section
/-! DEFINITION. Sparse maps from addresses to values: a list of (key, value) pairs in one canonical form, keys strictly
rising and no entry equal to what an unlisted key reads as.  Every indexed piece of state (memory bytes, seals, register
fields, core records) is held in one. -/

namespace Sys2Proof.Machine

/-- A sparse map.  What an unlisted key reads as is the default that each use names. -/
abbrev SMap (α : Type) := List (Nat × α)

/-- The value at key `k`; `d` when the key is not listed. -/
def SMap.get {α : Type} (d : α) : SMap α → Nat → α
  | [], _ => d
  | (k', v) :: m, k => if k' = k then v else SMap.get d m k

/-- The map with every key from `lo` up to (not including) `hi` taken out, as its part below and its part above. -/
def SMap.cut {α : Type} (m : SMap α) (lo hi : Nat) : SMap α × SMap α :=
  (m.filter (fun e => decide (e.1 < lo)), m.filter (fun e => decide (hi ≤ e.1)))

/-- The map with value `v` at key `k`. -/
def SMap.set {α : Type} [DecidableEq α] (d : α) (m : SMap α) (k : Nat) (v : α) : SMap α :=
  (m.cut k (k + 1)).1 ++ (if v = d then [] else [(k, v)]) ++ (m.cut k (k + 1)).2

/-- The entries of a run of values that starts at key `k`, without those equal to the default. -/
def SMap.run {α : Type} [DecidableEq α] (d : α) : Nat → List α → SMap α
  | _, [] => []
  | k, v :: vs => if v = d then SMap.run d (k + 1) vs else (k, v) :: SMap.run d (k + 1) vs

/-- The map with the values `vs` at the keys from `k` on. -/
def SMap.setRun {α : Type} [DecidableEq α] (d : α) (m : SMap α) (k : Nat) (vs : List α) : SMap α :=
  (m.cut k (k + vs.length)).1 ++ SMap.run d k vs ++ (m.cut k (k + vs.length)).2

/-- The `n` values from key `k` on. -/
def SMap.getRun {α : Type} (d : α) (m : SMap α) (k n : Nat) : List α :=
  (List.range n).map (fun i => SMap.get d m (k + i))

/-- The map with every key from `lo` up to (not including) `hi` at the default. -/
def SMap.clear {α : Type} (m : SMap α) (lo hi : Nat) : SMap α :=
  (m.cut lo hi).1 ++ (m.cut lo hi).2

/-- The map with `f` applied to the value at key `k`. -/
def SMap.modify {α : Type} [DecidableEq α] (d : α) (m : SMap α) (k : Nat) (f : α → α) : SMap α :=
  SMap.set d m k (f (SMap.get d m k))

/-- The canonical form from key `lo` up: keys rise strictly from `lo`, and no entry equals the default. -/
def SMap.wfFrom {α : Type} [DecidableEq α] (d : α) : Nat → SMap α → Bool
  | _, [] => true
  | lo, (k, v) :: m => decide (lo ≤ k) && decide (v ≠ d) && SMap.wfFrom d (k + 1) m

/-- The canonical form. -/
def SMap.wf {α : Type} [DecidableEq α] (d : α) (m : SMap α) : Bool := SMap.wfFrom d 0 m

end Sys2Proof.Machine
end

