-- ==== Sys2Proof/Machine/CoreState.lean ====
section
/-! DEFINITION. The state of one core: sequencer, engines, matrix-engine buffers and accumulators, flags, queues, region
bounds, windows, address generators, scratchpad and seal RAM.  Plain data. -/

namespace Sys2Proof.Machine

/-- One 32-byte slot of a Brupol stream (R80); byte 0 lies in bits [7:0]. -/
structure Slot where
  bv : BitVec 256
  deriving DecidableEq, Repr

/-- A slot as a number. -/
def Slot.toNat (w : Slot) : Nat := w.bv.toNat

/-- The slot of a number. -/
def Slot.ofNat (v : Nat) : Slot := ⟨BitVec.ofNat 256 v⟩

/-! ## Plan image records (R32, R34, R39, R41, R58) -/

/-- Address spaces of a region bound or slot (R58, R226). -/
inductive Space where
  | spm
  | hbm
  | ddr
  | host
  deriving DecidableEq, Repr

/-- One region bound (R58); disabled when `tiles` is 0. -/
structure Bound where
  base  : Nat
  tiles : Nat
  space : Space
  rd    : Bool
  wr    : Bool
  deriving DecidableEq, Repr

/-- One hardware queue: its place from the resource block, its head and tail counts (R48, R55, R58), and the counts of the tiles that an
LFETCH in flight will push and has not (R98). -/
structure HwQueue where
  base  : Nat
  depth : Nat
  head  : Nat
  tail  : Nat
  owed  : List Nat
  deriving DecidableEq, Repr

/-- The resource block of a core in a hand (R58). -/
structure ResBlock where
  bounds : List Bound
  queues : List HwQueue
  deriving DecidableEq, Repr

/-- A hand header (R34). -/
structure HandHdr where
  handId      : Nat
  cls         : Nat
  variant     : Nat
  priv        : Bool
  ckpt        : Bool
  group       : Nat
  trickCount  : Nat
  engines     : Nat
  anchored    : Bool
  ddr5        : Bool
  remote      : Bool
  digest      : Bool
  waitLimit   : Nat
  wslots      : Nat
  claims      : Nat
  energyEst   : Nat
  durationEst : Nat
  dealLimit   : Nat
  streamTable : Nat
  coreSet     : Nat
  deriving DecidableEq, Repr

/-- A hand header of zeros. -/
def HandHdr.zero : HandHdr :=
  ⟨0, 0, 0, false, false, 0, 0, 0, false, false, false, false, 0, 0, 0, 0, 0, 0, 0, 0⟩

/-- One stream of a hand: its logical core, place, length and resources (R39). -/
structure StreamEnt where
  core   : Nat
  stream : Nat
  length : Nat
  res    : ResBlock
  deriving DecidableEq, Repr

/-- One edge of the hand graph (R41). -/
structure Edge where
  pred : Nat
  d    : Int
  deriving DecidableEq, Repr

/-- One hand of an image. -/
structure Hand where
  hdr     : HandHdr
  streams : List StreamEnt
  edges   : List Edge
  deriving DecidableEq, Repr

/-! ## The core -/

/-- Sequencer state (R108). -/
inductive SeqSt where
  | idle
  | running
  | atTrick
  | faulted
  deriving DecidableEq, Repr

/-- How far a member is with the TRICK it executes (R40, R49, R92). -/
inductive TrickSt where
  | none        -- not at a TRICK
  | draining    -- waits for its engines and remote writes; arrives when they have completed
  | arrived     -- has arrived
  | mismatched  -- stops at the TRICK and never arrives (R40)
  | aborting    -- stopped by an abort trick; arrives when its windows are closed (R69)
  | abortDone   -- has arrived at the abort trick
  deriving DecidableEq, Repr

/-- An open loop level (R89): byte offsets of its first body slot and of its ENDL, COUNT and iteration index. -/
structure LoopLv where
  body  : Nat
  endl  : Nat
  count : Nat
  idx   : Nat
  deriving DecidableEq, Repr

/-- What the seal check of a stream page found (R103): the fault code, the device address of the tile and its seal. -/
structure PageFault where
  code : Nat
  addr : Nat
  sl   : Seal
  deriving DecidableEq, Repr

/-- A frame of the instruction store: stream page number, its slots, and the first fault of its seal check (R101, R103). -/
structure Frame where
  page  : Nat
  slots : List Slot
  bad   : Option PageFault
  deriving DecidableEq, Repr

/-- A remote-write window (R56, R93): `ever` says that it was opened in the dealing (R281). -/
structure Window where
  isOpen : Bool
  write  : Bool
  fetch  : Bool
  base   : Nat
  tiles  : Nat
  ever   : Bool
  deriving DecidableEq, Repr

/-- A window closed and never opened (R48). -/
def Window.closed : Window := ⟨false, false, false, 0, 0, false⟩

/-- An address-generator slot (R95); `loops` holds COUNT and STRIDE of the levels used, level 0 first. -/
structure AdgSlot where
  space    : Space
  queue    : Bool
  qnum     : Nat
  base     : Nat
  gen      : Nat
  wslot    : Nat
  epochSrc : Nat
  epochVal : Nat
  loops    : List (Nat × Int)
  deriving DecidableEq, Repr

/-- A slot with all fields 0 (R48). -/
def AdgSlot.zero : AdgSlot := ⟨.spm, false, 0, 0, 0, 0, 0, 0, []⟩

/-- An entry of an engine issue queue (R75): the instruction, its byte offset, the copies of its four slots, and the
copied iteration index of loop level 0; and the instruction's issue index (R348). -/
structure QEntry where
  word  : Slot
  pc    : Nat
  slots : List AdgSlot
  loop0 : Option Nat
  index : Nat
  deriving DecidableEq, Repr

/-- The place of a tile: its space and byte address. -/
structure TileAt where
  space : Space
  addr  : Nat
  deriving DecidableEq, Repr

/-- State of a stored array error (R127, R232): corrected at each read, corrected once, or uncorrectable. -/
inductive MemErr where
  | none
  | corrected
  | hard
  | uncorr
  deriving DecidableEq, Repr

/-- A request of a requester of scratchpad or device memory (R113, R114, R235): the ranges it covers (one unit, or up to eight lines
granted as one), and for a write the bytes that each range it stored held before, with the stored errors that it cleared, by number of
their word of 8 bytes of a scratchpad or 32 of device memory (R127, R232). -/
structure MemReq where
  space : Space
  write : Bool
  segs  : List (Nat × Nat)
  old   : List (Nat × List Byte)
  errs  : SMap MemErr
  deriving DecidableEq, Repr

/-- A seal that an instruction wrote (R207): its tile, the seal before, and how many requests of the instruction had been served when the
tile's last line was. -/
structure SealUpd where
  tile   : TileAt
  before : Seal
  at'    : Nat
  deriving DecidableEq, Repr

/-- A push or a pop of a hardware queue by an instruction (R55): the queue, the count of the tile, and how many requests of the
instruction had been served when it completed. -/
structure QueueUse where
  queue : Nat
  pos   : Nat
  push  : Bool
  at'   : Nat
  deriving DecidableEq, Repr

/-- An instruction that has started and not completed (R76, R78): what it wrote (the tiles R69 poisons), its requests in order with the
seals and queue tiles they end (what an unordered access may find of it, R121 to R123, R207, R235), the link transfers it still
waits for (R78, R285, R290), whether it has applied its signal early (the LPUT exception of R78), the flits an LFETCH has landed,
whether it has been counted for a poisoned seal (R223) and the count of its first queue tile (R98), a stamp that names it, its issue index,
the sum of its digest terms (R348), and the tiles of an LFETCH of which a flit has landed (R55). -/
structure ExecEntry where
  word     : Slot
  pc       : Nat
  wrote    : List TileAt
  reqs     : List MemReq
  seals    : List SealUpd
  uses     : List QueueUse
  remote   : Nat
  signaled : Bool
  slots    : List AdgSlot
  landed   : Nat
  marked   : Bool
  qbase    : Nat
  stamp    : Nat
  index    : Nat
  term     : Nat
  begun    : List Nat
  deriving DecidableEq, Repr

/-- One engine: its issue queue, the tick at which the head reached the head (R53), and its started instructions. -/
structure Engine where
  queue     : List QEntry
  headSince : Nat
  exec      : List ExecEntry
  deriving DecidableEq, Repr

/-- An engine with nothing in it (R48). -/
def Engine.empty : Engine := ⟨[], 0, []⟩

/-- A stationary buffer of the matrix engine (R171): element codes by `k × NCOLS + n`, scale codes as read. -/
structure StatBuf where
  full   : Bool
  sfmt   : Nat
  scale  : Nat
  krows  : Nat
  ncols  : Nat
  codes  : List Nat
  scales : List Nat
  deriving DecidableEq, Repr

/-- An empty buffer (R170). -/
def StatBuf.empty : StatBuf := ⟨false, 0, 0, 0, 0, [], []⟩

/-- One accumulator element: its FP32 code (ordered), and T, class, saturation sign and whether an addend discarded
bits (anchored; R152, R157, R158, R179). -/
structure AccEl where
  f32   : Nat
  t     : Int
  cls   : Cls
  sat   : Int
  trunc : Bool
  deriving DecidableEq, Repr

/-- A new element (R152, R158). -/
def AccEl.zero : AccEl := ⟨0, 0, .finite, 0, false⟩

/-- The checksum quantities of one column (R179): C, M, and whether every product was finite (R180). -/
structure AccCol where
  c   : Rat
  m   : Rat
  fin : Bool
  deriving DecidableEq, Repr

/-- A column of a new sum. -/
def AccCol.zero : AccCol := ⟨0, 0, true⟩

/-- One accumulator block of 64 rows × 256 columns (R154, R173, R179); elements by `row × 256 + column`. -/
structure AccBlock where
  held     : Bool
  anchored : Bool
  anchor   : Int
  width    : Nat
  els      : SMap AccEl
  cols     : SMap AccCol
  nb       : Nat
  l8       : Bool
  deriving DecidableEq, Repr

/-- A block that holds no sum (R170). -/
def AccBlock.empty : AccBlock := ⟨false, false, 0, 0, [], [], 0, false⟩

/-- Power state of a core region (R128, R437, R438). -/
inductive Region where
  | running
  | stopped
  | gated
  | waking
  deriving DecidableEq, Repr

/-- The dealing a core is a member of (R47, R48): trick group, deal serial, hand index, dealing number, logical core,
deal time and the declared epoch of each weight slot (R37). -/
structure Member where
  group   : Nat
  serial  : Nat
  hand    : Nat
  number  : Nat
  logical : Nat
  dealAt  : Nat
  started : Bool
  epochs  : List Nat
  deriving DecidableEq, Repr

/-- A fault report of a core that the dealer's sweep has not yet seen (R69). -/
structure FaultRep where
  code   : Nat
  engine : Nat
  pc     : Nat
  info   : Nat
  deriving DecidableEq, Repr

/-- One physical core. -/
structure Core where
  st        : SeqSt
  halted    : Bool
  pc        : Nat
  preds     : Nat
  loops     : List LoopLv
  frames    : List Frame
  member    : Option Member
  tag       : Nat                 -- the hand tag that the window mirrors hold for the core (R275)
  trick     : TrickSt
  tricks    : Nat                 -- TRICK instructions executed in the dealing (R40)
  resumeAt  : Option Int          -- deal time carried by the trick's release (R92), in the scale of the die's copy (R310)
  stallAt   : Nat                 -- tick at which the sequencer's present wait began (R53)
  flags     : SMap Nat
  queues    : List HwQueue
  bounds    : List Bound
  windows   : SMap Window
  adg       : SMap AdgSlot
  eng       : SMap Engine
  bufs      : SMap StatBuf
  blocks    : SMap AccBlock
  spm       : SMap Byte
  seals     : SMap Seal
  spmErr    : SMap MemErr
  seaInject : Bool
  mxuInject : Bool
  region    : Region
  regionAt  : Nat                 -- tick of the last change of `region`, or of becoming idle
  retained  : Bool                -- the last gating kept contents (R129)
  ckptEnd   : Bool                -- the last hand ended at a checkpoint trick (R129)
  report    : Option FaultRep
  pace      : Nat                 -- issue pacing: active cycles of 16 (R427)
  paceGoal  : Nat
  deepTicks : Nat                 -- power ticks in a row with deep pacing (R428)
  dummy     : Nat                 -- dummy-load level (R324); its floor f, step S and limit M as of the arrival [ns]
  floor     : Nat
  rampStep  : Nat
  rampMax   : Nat
  handled   : Nat                 -- slots the sequencer has handled since the deal (R348)
  winFault  : Bool                -- a window fault has been raised in this dealing (R281)
  arrivedAt : Option Int          -- die TABLE_TIME of the arrival at the present trick (R324)
  active    : Nat                 -- array activity before the arrival, in sixteenths (R324)
  signalDue : Option Slot         -- signal word of the TRICK, applied when the member resumes (R92)
  deriving DecidableEq, Repr

/-- An access to a scratchpad by a requester that is no engine instruction: the part, the requester code of R134, the instruction it
names, the tick and the flags of that moment (an access after a change of either is a later cycle, R121), the engine whose later accesses come after it
in any case (R77; 16: none), the request, and the seal written with it (R207). -/
structure Recent where
  part  : Nat
  code  : Nat
  pc    : Nat
  tick  : Nat
  flags : SMap Nat
  skip  : Nat
  req   : MemReq
  seals : List SealUpd
  deriving DecidableEq, Repr

/-- A core after a package reset: nothing dealt, scratchpad zero, every seal poisoned (R130), region powered. -/
def Core.reset : Core where
  st := .idle
  halted := false
  pc := 0
  preds := 0
  loops := []
  frames := []
  member := none
  tag := 0
  trick := .none
  tricks := 0
  resumeAt := none
  stallAt := 0
  flags := []
  queues := []
  bounds := []
  windows := []
  adg := []
  eng := []
  bufs := []
  blocks := []
  spm := []
  seals := []
  spmErr := []
  seaInject := false
  mxuInject := false
  region := .running
  regionAt := 0
  retained := false
  ckptEnd := true
  report := none
  pace := 16
  paceGoal := 16
  deepTicks := 0
  dummy := 0
  floor := 0
  rampStep := 100
  rampMax := 1000000
  handled := 0
  winFault := false
  arrivedAt := none
  active := 0
  signalDue := none

end Sys2Proof.Machine
end

