-- ==== Sys2Proof/Machine/Encoding.lean ====
section
/-! DEFINITION. The Brupol instruction word: its fields (R80 to R83, R87, R90, R91, R93, R95, R100) and the tests that the
load check (R105) and the decode check (R106) make on it. -/

namespace Sys2Proof.Machine

/-- Bits of an instruction slot. -/
def Slot.bits (w : Slot) (lo n : Nat) : Nat := bitsOf w.toNat lo n

/-- One bit of an instruction slot. -/
def Slot.bit (w : Slot) (i : Nat) : Bool := bitOf w.toNat i

/-- Byte `n` of a slot, as the position of its bit 0. -/
def byteAt (n : Nat) : Nat := 8 * n

/-! ## Bytes 0 to 15 (R80 to R83) -/

def Slot.engine (w : Slot) : Nat := w.bits 0 4
def Slot.opcode (w : Slot) : Nat := w.bits 8 8
def Slot.sfmt (w : Slot) : Nat := w.bits 16 4
def Slot.dfmt (w : Slot) : Nat := w.bits 20 4
def Slot.scale (w : Slot) : Nat := w.bits 24 2
def Slot.acc (w : Slot) : Bool := w.bit 26
def Slot.verify (w : Slot) : Bool := w.bit 27
def Slot.wseal (w : Slot) : Bool := w.bit 28
def Slot.digest (w : Slot) : Bool := w.bit 29
def Slot.wflag (w : Slot) : Nat := w.bits 32 9
def Slot.wkind (w : Slot) : Nat := w.bits 41 2
def Slot.wval (w : Slot) : Nat := w.bits 48 16
def Slot.sflag (w : Slot) : Nat := w.bits 64 9
def Slot.stgt (w : Slot) : Nat := w.bits 73 2
def Slot.sinc (w : Slot) : Nat := w.bits 75 4
def Slot.starget (w : Slot) : Nat := w.bits 80 16
/-- The number of the address-generator slot in operand position `k` (A0 to A3, R83). -/
def Slot.a (w : Slot) (k : Nat) : Nat := w.bits (96 + 6 * k) 6
def Slot.imm8 (w : Slot) : Nat := w.bits 120 8

/-! ## Bytes 16 to 31 (R87, R90, R91, R93, R100) -/

def Slot.count (w : Slot) : Nat := w.bits (byteAt 16) 32
def Slot.body (w : Slot) : Nat := w.bits (byteAt 20) 32
def Slot.destPred (w : Slot) : Nat := w.bits (byteAt 16) 3
def Slot.src (w : Slot) : Nat := w.bits (byteAt 17) 8
def Slot.sel (w : Slot) : Nat := w.bits (byteAt 18) 8
def Slot.value (w : Slot) : Nat := w.bits (byteAt 20) 32
def Slot.setpAddr (w : Slot) : Nat := w.bits (byteAt 24) 32
def Slot.brNeg (w : Slot) : Bool := w.bit (byteAt 16 + 7)
/-- OFFSET of a BRP, a signed count of slots (R91). -/
def Slot.brOffset (w : Slot) : Int := signedOf 32 (w.bits (byteAt 20) 32)
def Slot.win (w : Slot) : Nat := w.bits (byteAt 16) 6
def Slot.winWrite (w : Slot) : Bool := w.bit (byteAt 17)
def Slot.winFetch (w : Slot) : Bool := w.bit (byteAt 17 + 1)
def Slot.winAll (w : Slot) : Bool := w.bit (byteAt 17)
def Slot.winBase (w : Slot) : Nat := w.bits (byteAt 20) 32
def Slot.winTiles (w : Slot) : Nat := w.bits (byteAt 24) 16
def Slot.markValue (w : Slot) : Nat := w.bits (byteAt 16) 32
/-- BUF of MLOAD. -/
def Slot.mlBuf (w : Slot) : Nat := w.bits (byteAt 16) 1
def Slot.mlTrans (w : Slot) : Bool := w.bit (byteAt 16 + 1)
def Slot.krows (w : Slot) : Nat := w.bits (byteAt 18) 16
def Slot.ncols (w : Slot) : Nat := w.bits (byteAt 20) 16
def Slot.first (w : Slot) : Nat := w.bits (byteAt 16) 2
/-- BUF of MMUL. -/
def Slot.mmBuf (w : Slot) : Nat := w.bits (byteAt 16 + 2) 1
def Slot.anchSrc (w : Slot) : Nat := w.bits (byteAt 16 + 3) 2
def Slot.ablk (w : Slot) : Nat := w.bits (byteAt 17) 3
def Slot.mrows (w : Slot) : Nat := w.bits (byteAt 18) 16
def Slot.anchor (w : Slot) : Int := signedOf 16 (w.bits (byteAt 20) 16)
def Slot.tscale (w : Slot) : Nat := w.bits (byteAt 24) 32
def Slot.abft (w : Slot) : Bool := w.bit (byteAt 16)
def Slot.out (w : Slot) : Nat := w.bits (byteAt 16 + 1) 2
def Slot.keep (w : Slot) : Bool := w.bit (byteAt 16 + 3)
def Slot.tol (w : Slot) : Nat := w.bits (byteAt 20) 8
def Slot.passes (w : Slot) : Nat := w.bits (byteAt 16) 32
def Slot.bscal (w : Slot) : Bool := w.bit (byteAt 16)
def Slot.scalar (w : Slot) : Nat := w.bits (byteAt 24) 64
def Slot.len (w : Slot) : Nat := w.bits (byteAt 16) 32
/-- RMODE of VCVT. -/
def Slot.vrmode (w : Slot) : RMode := if w.bit (byteAt 16) then .zero else .nearest
def Slot.base2 (w : Slot) : Bool := w.bit (byteAt 16)
def Slot.unit (w : Slot) : Nat := w.bits (byteAt 16) 2
def Slot.pattern (w : Slot) : Nat := w.bits (byteAt 20) 32
def Slot.istride (w : Slot) : Int := signedOf 32 (w.bits (byteAt 20) 32)
/-- ROWS of DGATHER. -/
def Slot.grows (w : Slot) : Nat := w.bits (byteAt 24) 16
def Slot.route (w : Slot) : Nat := w.bits (byteAt 16) 12
def Slot.rwin (w : Slot) : Nat := w.bits (byteAt 18) 6
def Slot.woffset (w : Slot) : Nat := w.bits (byteAt 20) 24
def Slot.redMode (w : Slot) : Nat := w.bits (byteAt 16) 2
/-- RMODE of RCVT. -/
def Slot.rrmode (w : Slot) : RMode := if w.bit (byteAt 16 + 2) then .zero else .nearest
def Slot.vocab (w : Slot) : Nat := w.bits (byteAt 16) 32
/-- ROWS of SAMPLE and SLOGP. -/
def Slot.srows (w : Slot) : Nat := w.bits (byteAt 20) 16

/-! ## The two slots of an ADG (R95); the second slot holds bytes 32 to 63 -/

/-- Bits of a two-slot instruction, counted over both slots. -/
def adgBits (w w2 : Slot) (lo n : Nat) : Nat := bitsOf (w.toNat + 2 ^ 256 * w2.toNat) lo n

def Slot.adgSlot (w : Slot) : Nat := w.bits 96 6
def Slot.adgOp (w : Slot) : Nat := w.bits 102 2
def Slot.adgSpace (w : Slot) : Nat := w.bits 104 2
def Slot.adgLevels (w : Slot) : Nat := w.bits 106 3
def Slot.adgQueue (w : Slot) : Bool := w.bit 109
def Slot.adgQnum (w : Slot) : Nat := w.bits 110 5
def Slot.adgBase (w : Slot) : Nat := w.bits (byteAt 16) 64
def Slot.adgGen (w : Slot) : Nat := w.bits (byteAt 24) 16
def Slot.adgWslot (w : Slot) : Nat := w.bits (byteAt 26) 6
def Slot.adgEpochSrc (w : Slot) : Nat := w.bits (byteAt 26 + 6) 2
def Slot.adgEpochVal (w : Slot) : Nat := w.bits (byteAt 27) 8
/-- COUNTi of an ADG. -/
def adgCount (w w2 : Slot) (i : Nat) : Nat := adgBits w w2 (byteAt 28 + 16 * i) 16
/-- STRIDEi of an ADG. -/
def adgStride (w w2 : Slot) (i : Nat) : Int := signedOf 32 (adgBits w w2 (byteAt 40 + 32 * i) 32)

/-- The address space of a two-bit code (R58). -/
def Space.ofCode : Nat → Space
  | 0 => .spm
  | 1 => .hbm
  | 2 => .ddr
  | _ => .host

/-- The code of an address space (R58). -/
def Space.code : Space → Nat
  | .spm => 0
  | .hbm => 1
  | .ddr => 2
  | .host => 3

/-! ## Instructions by engine and opcode (R86) -/

/-- The instructions of the opcode map (R86). -/
inductive Op where
  | nop | wait | signal | loop | endl | setp | brp | trick | adg | wopen | wclose | mark | halt
  | mload | mmul | mdrain | mburn
  | vop | vred | vcvt
  | fexp | flog | frsq | fact
  | dcopy | dfill | dgather
  | lput | lfetch | lsig
  | radd | ranchor | rcvt
  | spmm
  | sample | slogp
  deriving DecidableEq, Repr

/-- The instruction of an engine and an opcode; an opcode not listed is illegal (R86). -/
def Op.ofCode : Nat → Nat → Option Op
  | 0, 0 => some .nop | 0, 1 => some .wait | 0, 2 => some .signal | 0, 3 => some .loop | 0, 4 => some .endl
  | 0, 5 => some .setp | 0, 6 => some .brp | 0, 7 => some .trick | 0, 8 => some .adg | 0, 9 => some .wopen
  | 0, 10 => some .wclose | 0, 11 => some .mark | 0, 12 => some .halt
  | 1, 1 => some .mload | 1, 2 => some .mmul | 1, 3 => some .mdrain | 1, 4 => some .mburn
  | 2, 1 => some .vop | 2, 2 => some .vred | 2, 3 => some .vcvt
  | 3, 1 => some .fexp | 3, 2 => some .flog | 3, 3 => some .frsq | 3, 4 => some .fact
  | 4, 1 => some .dcopy | 4, 2 => some .dfill | 4, 3 => some .dgather
  | 5, 1 => some .lput | 5, 2 => some .lfetch | 5, 3 => some .lsig
  | 6, 1 => some .radd | 6, 2 => some .ranchor | 6, 3 => some .rcvt
  | 7, 1 => some .spmm
  | 8, 1 => some .sample | 8, 2 => some .slogp
  | _, _ => none

/-- The instruction that a slot holds. -/
def Slot.op (w : Slot) : Option Op := Op.ofCode w.engine w.opcode

/-! ## Legality (R81 to R85, R87 to R100, R155, R169, R171) -/

/-- The bits of `w` outside the named fields (R83). -/
def strayBits (w : Nat) (named : List (Nat × Nat)) : Nat := named.foldl (fun acc f => acc - (bitsOf acc f.1 f.2) * 2 ^ f.1) w

/-- The fields of bytes 0, 1 and 4 to 11 that every instruction has. -/
def commonFields : List (Nat × Nat) := [(0, 4), (8, 8), (32, 9), (41, 2), (48, 16), (64, 9), (73, 2), (75, 4), (80, 16)]

/-- VERIFY, WSEAL and DIGEST (R80). -/
def sealBits : List (Nat × Nat) := [(27, 1), (28, 1), (29, 1)]

/-- Rules of an instruction's fields: the byte at which the field starts, and whether it obeys (R107). -/
abbrev FieldRules := List (Nat × Bool)

/-- The byte of the lowest bit set in a word. -/
def strayByte (v : Nat) : Nat := ((List.range 32).find? (fun i => bitsOf v (8 * i) 8 != 0)).getD 0

/-- The wait word is legal (R81). -/
def Slot.waitRules (w : Slot) : FieldRules :=
  [(4, w.wkind != 0 || w.wflag == 0), (5, w.wkind != 3), (6, w.wkind != 0 || w.wval == 0)]

/-- The signal word is legal; STGT 0b11 only on LSE instructions (R82, R87). -/
def Slot.signalRules (w : Slot) : FieldRules :=
  match w.stgt with
  | 0 => [(8, w.sflag == 0), (9, w.bits 75 5 == 0), (10, w.starget == 0)]
  | 1 => [(9, decide (1 ≤ w.sinc)), (10, w.starget == 0)]
  | 2 => [(9, decide (1 ≤ w.sinc)), (10, decide (w.starget < 160))]
  | _ => [(9, decide (1 ≤ w.sinc) && w.engine == 5), (10, decide (w.starget < 4096))]

/-- Format classes of R169. -/
def fmtMat (f : Nat) : Bool := decide (f ≤ 10)
def fmtNarrow (f : Nat) : Bool := decide (3 ≤ f) && decide (f ≤ 10)
def fmtFloat (f : Nat) : Bool := decide (f ≤ 7) || f == 10
def fmtAny (f : Nat) : Bool := decide (f ≤ 11)
def fmtWide (f : Nat) : Bool := decide (f ≤ 2)

/-- Element width by format code; 0 for an illegal code. -/
def fmtWidth (f : Nat) : Nat := ((Fmt.ofCode f).map Fmt.width).getD 0

/-- The scale mode is legal with a narrow-only rule for E8M0 (R144, R169). -/
def scaleOk (s f : Nat) : Bool := s == 0 || (s == 1 && fmtNarrow f) || s == 2

/-- The side or sides of a VCVT that SCALE applies to: source, destination (R188). -/
def vcvtSides (sf df : Nat) : Bool × Bool :=
  let a := fmtWidth sf
  let b := fmtWidth df
  (decide (a ≤ b), decide (b ≤ a))

/-- SCALE of a VCVT is legal: the scaled sides carry neither a 6-bit format nor FP64, and E8M0 goes with formats of at
most 8 bits (R144, R188). -/
def vcvtScaleOk (s sf df : Nat) : Bool :=
  let sideOk (f : Nat) : Bool := f != 5 && f != 6 && f != 11 && (s != 1 || decide (fmtWidth f ≤ 8))
  s == 0 || (s != 3 && (!(vcvtSides sf df).1 || sideOk sf) && (!(vcvtSides sf df).2 || sideOk df))

/-- A TSCALE that R155 allows: neither zero nor subnormal nor infinite nor NaN. -/
def tscaleOk (t : Nat) : Bool := bitsOf t 23 8 != 0 && bitsOf t 23 8 != 255

/-- What the legality tests of one instruction depend on besides its word (R106): the hand's header and the core's
resource block. -/
structure LegalEnv where
  hdr : HandHdr
  res : ResBlock
  deriving DecidableEq, Repr

/-- Whether a range of the scratchpad lies in one enabled bound with the needed permission (R56, R57, R93). -/
def boundCovers (bs : List Bound) (sp : Space) (write : Bool) (addr n : Nat) : Bool :=
  bs.any (fun b => decide (0 < b.tiles) && b.space == sp && (if write then b.wr else b.rd) &&
    decide (b.base ≤ addr) && decide (addr + n ≤ b.base + 4096 * b.tiles))

/-- The fields of a WOPEN are legal (R93). -/
def Slot.wopenRules (w : Slot) (res : ResBlock) : FieldRules :=
  [(17, w.winWrite || w.winFetch),
   (20, w.winBase % 4096 == 0 && decide (w.winBase + 4096 * w.winTiles ≤ 0x800000) &&
     (!w.winWrite || boundCovers res.bounds .spm true w.winBase (4096 * w.winTiles)) &&
     (!w.winFetch || boundCovers res.bounds .spm false w.winBase (4096 * w.winTiles))),
   (24, decide (1 ≤ w.winTiles) && decide (w.winTiles ≤ 2048))]

/-- The fields of a SETP are legal (R90); whether a loop level is open is tested where the loops are known. -/
def Slot.setpRules (w : Slot) : FieldRules :=
  [(17, decide (w.src ≤ 4)),
   (18, match w.src with
    | 0 => w.sel == 0
    | 1 => decide (w.sel < 16)
    | 2 => w.sel == w.sel / 4 % 4 * 4
    | 3 => w.sel == w.sel / 4 % 4 * 4
    | _ => true),
   (24, w.setpAddr % 4 == 0)]

/-- The words of an ADG meet R96 and R98 (R105 item 7). -/
def adgRules (w w2 : Slot) (env : LegalEnv) : FieldRules :=
  match w.adgOp with
  | 0 =>
    let lv := w.adgLevels
    (List.range 6).flatMap (fun i =>
      if i < lv then [(28 + 2 * i, decide (1 ≤ adgCount w w2 i)), (40 + 4 * i, decide (adgStride w w2 i % 64 = 0))]
      else [(28 + 2 * i, adgCount w w2 i == 0), (40 + 4 * i, decide (adgStride w w2 i = 0))]) ++
    [(16, w.adgBase % 64 == 0 && (!w.adgQueue || w.adgBase == 0)),
     (13, !w.adgQueue || (w.adgSpace == 0 && lv == 0 && ((env.res.queues[w.adgQnum]?).map (fun q => decide (0 < q.depth))).getD false))]
  | 1 =>
    [(13, w.bits 104 11 == 0), (16, w.adgBase % 64 == 0), (24 + strayByte (w.bits 192 64), w.bits 192 64 == 0),
     (32 + strayByte w2.toNat, w2.toNat == 0)]
  | _ => []

/-- The fields of an ADG hold no reserved value, and EPOCH_SRC names no weight slot that the hand lacks (R80 to R83, R95, R99). -/
def adgFieldRules (w : Slot) (env : LegalEnv) : FieldRules :=
  [(0, w.bits 4 4 == 0), (2 + strayByte (w.bits 16 16), w.bits 16 16 == 0), (5, w.bits 43 5 == 0), (9, !w.bit 79),
   (12, decide (w.adgOp ≤ 1)), (13, w.adgOp != 0 || decide (w.adgLevels ≤ 6)), (14, w.bits 115 5 == 0),
   (15, w.bits 120 8 == 0),
   (26, w.adgOp != 0 || (w.adgEpochSrc != 3 && (w.adgEpochSrc != 1 || bitOf env.hdr.wslots w.adgWslot)))]

/-- The named fields of bytes 12 to 31 of an instruction other than an ADG, and of bytes 2 and 3 (R80, R83, R87, R90, R91, R93, R100). -/
def Slot.named (w : Slot) (o : Op) : List (Nat × Nat) :=
  let sc := w.scale
  let a0 := (96, 6)
  let a1 := (102, 6)
  let a2 := (108, 6)
  let a3 := (114, 6)
  let imm := (120, 8)
  let sF := (16, 4)
  let dF := (20, 4)
  let scF := (24, 2)
  let b (k len : Nat) : Nat × Nat := (byteAt k, len)
  match o with
  | .nop | .endl | .trick | .halt | .wait | .signal | .adg => []
  | .loop => [b 16 32, b 20 32]
  | .setp => [b 16 3, b 17 8, b 18 8, b 20 32, b 24 32]
  | .brp => [b 16 3, (byteAt 16 + 7, 1), b 20 32]
  | .wopen => [b 16 6, b 17 2, b 20 32, b 24 16]
  | .wclose => [b 16 6, b 17 1]
  | .mark => [b 16 32]
  | .mload => sealBits ++ [sF, scF, a0, b 16 2, b 18 16, b 20 16] ++ (if sc = 0 then [] else [a1])
  | .mmul => sealBits ++ [sF, scF, (26, 1), a0, b 16 5, b 17 3, b 18 16, b 20 16, b 24 32] ++ (if sc = 0 then [] else [a1])
  | .mdrain => sealBits ++ [dF, scF, a0, b 16 4, b 17 3, b 18 16, b 20 8] ++ (if sc = 0 ∧ w.out = 0 then [] else [a1])
  | .mburn => sealBits ++ [b 16 32]
  | .vop => sealBits ++ [sF, dF, a0, a1, a2, a3, imm, b 16 1, b 24 64]
  | .vred => sealBits ++ [sF, dF, a0, a2, imm, b 16 32]
  | .vcvt => sealBits ++ [sF, dF, scF, a0, a1, a2, a3, b 16 1]
  | .fexp | .flog => sealBits ++ [sF, dF, a0, a2, b 16 1]
  | .frsq => sealBits ++ [sF, dF, a0, a2]
  | .fact => sealBits ++ [sF, dF, a0, a2, imm]
  | .dcopy => [(27, 1), (29, 1), a0, a1, b 16 2]
  | .dfill => sealBits ++ [a1, b 16 2, b 20 32]
  | .dgather => sealBits ++ [a0, a1, a2, b 16 2, b 20 32, b 24 16]
  | .lput => [(27, 1), (29, 1), a0, b 16 12, b 18 6, b 20 24]
  | .lfetch => [(27, 1), (29, 1), a1, b 16 12, b 18 6, b 20 24]
  | .lsig => sealBits
  | .radd => sealBits ++ [a0, a1, a2, b 16 2]
  | .ranchor => sealBits ++ [sF, (26, 1), a0, a1, a2]
  | .rcvt => sealBits ++ [sF, dF, (26, 1), a0, a1, a2, b 16 3]
  | .spmm => sealBits ++ [sF, scF, (26, 1), a0, a1, a2, b 17 3, b 18 16]
  | .sample => sealBits ++ [sF, a0, a1, a2, b 16 32, b 20 16]
  | .slogp => sealBits ++ [sF, dF, a0, a1, a2, b 16 32, b 20 16]

/-- The fields of one instruction other than an ADG are legal (R81 to R85, R87, R90 to R93, R100, R155, R169, R171), each rule at the byte of
the field that breaks it.  Which of several fields breaks a rule that names more than one is the model's reading (DEDUCED, log entry 111). -/
def Slot.fieldRules (w : Slot) (o : Op) (env : LegalEnv) : FieldRules :=
  let sf := w.sfmt
  let df := w.dfmt
  let sc := w.scale
  let blocks : Nat × Bool := (18, decide (1 ≤ w.mrows) && decide (w.ablk * 64 + w.mrows ≤ 512))
  match o with
  | .nop | .endl | .trick | .halt | .adg | .loop | .mark => []
  | .wait => [(5, w.wkind != 0)]
  | .signal => [(9, w.stgt == 1 || w.stgt == 2)]
  | .setp => w.setpRules
  | .brp => [(20, w.bits (byteAt 20) 32 != 0)]
  | .wopen => w.wopenRules env.res
  | .wclose => [(16, !w.winAll || w.win == 0)]
  | .mload =>
    [(2, fmtMat sf), (3, scaleOk sc sf), (16, !w.mlTrans || (sf != 5 && sf != 6 && w.krows * fmtWidth sf % 512 == 0)),
     (18, decide (1 ≤ w.krows) && decide (w.krows ≤ 256)), (20, decide (1 ≤ w.ncols) && decide (w.ncols ≤ 256))]
  | .mmul =>
    [(2, fmtMat sf), (3, scaleOk sc sf && (!w.acc || sf != 0)), (16, w.first != 3), blocks] ++
    (if !w.acc || w.first == 0 then [] else
      match w.anchSrc with
      | 0 => [(16, sc == 1)]
      | 1 => [(24, tscaleOk w.tscale)]
      | 2 => [(20, decide (w.anchor ≠ -32768))]
      | _ => [(16, false)])
  | .mdrain =>
    [(2, if w.out = 0 then fmtMat df else df == 0), (3, if w.out = 0 then scaleOk sc df else sc == 0), (16, w.out != 3), blocks,
     (18, !w.abft || w.mrows % 64 == 0), (20, decide (w.tol ≤ 30))]
  | .mburn => [(16, w.passes != 0)]
  | .vop =>
    [(2, fmtAny sf && fmtAny df && (!(decide (8 ≤ w.imm8) && decide (w.imm8 ≤ 0x0C)) || sf == df)), (15, decide (w.imm8 ≤ 0x0F))]
  | .vred =>
    [(2, fmtAny sf && fmtAny df && (!(w.imm8 == 3 || w.imm8 == 4) || df == 0)), (15, decide (w.imm8 ≤ 5)),
     (16, decide (1 ≤ w.len) && decide (w.len ≤ 1048576))]
  | .vcvt => [(2, fmtAny sf && fmtAny df), (3, vcvtScaleOk sc sf df)]
  | .fexp | .flog | .frsq => [(2, fmtFloat sf && fmtFloat df)]
  | .fact => [(2, fmtFloat sf && fmtFloat df), (15, decide (w.imm8 ≤ 5))]
  | .dcopy | .dfill => [(16, w.unit != 3)]
  | .dgather => [(16, w.unit != 3), (24, decide (1 ≤ w.grows))]
  | .lput => [(10, w.stgt != 3 || w.starget == w.route), (20, w.woffset % 64 == 0)]
  | .lfetch => [(9, w.stgt != 3), (20, w.woffset % 64 == 0)]
  | .lsig => [(9, w.stgt == 3)]
  | .radd => [(16, w.redMode != 3)]
  | .ranchor => [(2, if w.acc then fmtWide sf else sf == 0)]
  | .rcvt => [(2, if w.acc then fmtWide sf && df == 0 else sf == 0 && fmtWide df), (16, w.redMode == 1 || w.redMode == 2)]
  | .spmm => [(2, decide (1 ≤ sf) && decide (sf ≤ 10)), (3, w.acc && (sc == 0 || (sc == 1 && fmtNarrow sf))), blocks]
  | .sample => [(2, fmtWide sf), (16, decide (1 ≤ w.vocab) && decide (w.vocab ≤ 1048576)), (20, decide (1 ≤ w.srows))]
  | .slogp => [(2, fmtWide sf && df == 0), (16, decide (1 ≤ w.vocab) && decide (w.vocab ≤ 1048576)), (20, decide (1 ≤ w.srows))]

/-- What needs a feature of the hand (R105 item 4), at the byte of its field. -/
def Slot.featureRules (w : Slot) (o : Op) (hdr : HandHdr) : FieldRules :=
  [(0, hdr.remote || w.engine != 5), (3, hdr.anchored || !((o == .mmul || o == .spmm || o == .ranchor || o == .rcvt) && w.acc)),
   (13, hdr.ddr5 || !(o == .adg && w.adgOp == 0 && w.adgSpace == 2)),
   (16, hdr.anchored || !(o == .rcvt || (o == .mdrain && w.out != 0) || (o == .radd && w.redMode != 0)))]

/-- Why an instruction fails a test of R105 items 3, 4 or 7. -/
inductive IllegalBy where
  | instruction   -- item 3
  | featureMask   -- item 4
  | addressGen    -- item 7
  deriving DecidableEq, Repr

/-- The rules that fail, each with a reason. -/
def failing {α : Type} (a : α) (rs : FieldRules) : List (Nat × α) := (rs.filter (fun r => !r.2)).map (fun r => (r.1, a))

/-- The failure at the lowest byte; the first of several there. -/
def lowest {α : Type} : List (Nat × α) → Option (Nat × α)
  | [] => none
  | x :: xs => match lowest xs with
    | some y => some (if y.1 < x.1 then y else x)
    | none => some x

/-- The failures of R105 items 3, 4 and 7 in one instruction, with the byte of the field; `w2` is the slot after it, used by an ADG only. -/
def illegalFields (w w2 : Slot) (env : LegalEnv) : List (Nat × IllegalBy) :=
  match w.op with
  | none => [(if 9 ≤ w.engine then 0 else 1, .instruction)]
  | some o =>
    let stray := strayBits w.toNat (commonFields ++ w.named o)
    failing .instruction (w.waitRules ++ w.signalRules ++ [(3, !w.digest || env.hdr.digest)] ++
      (if o = .adg then adgFieldRules w env else (strayByte stray, stray == 0) :: w.fieldRules o env)) ++
    failing .addressGen (if o = .adg then adgRules w w2 env else []) ++
    failing .featureMask (w.featureRules o env.hdr)

/-- The tests of R105 items 3, 4 and 7 on one instruction: the reason of the first offending field. -/
def illegal (w w2 : Slot) (env : LegalEnv) : Option IllegalBy := (lowest (illegalFields w w2 env)).map (·.2)

/-- The slot that a legal ADG with OP 0b00 writes (R95, R96). -/
def adgLoaded (w w2 : Slot) : AdgSlot where
  space := Space.ofCode w.adgSpace
  queue := w.adgQueue
  qnum := w.adgQnum
  base := w.adgBase
  gen := w.adgGen
  wslot := w.adgWslot
  epochSrc := w.adgEpochSrc
  epochVal := w.adgEpochVal
  loops := (List.range w.adgLevels).map (fun i => (adgCount w w2 i, adgStride w w2 i))

/-- The operand positions whose slots an opcode uses (R75, R100). -/
def Slot.usedSlots (w : Slot) (o : Op) : List Nat :=
  match o with
  | .mload | .mmul => if w.scale = 0 then [0] else [0, 1]
  | .mdrain => if w.scale = 0 ∧ w.out = 0 then [0] else [0, 1]
  | .vop | .vcvt => [0, 1, 2, 3]
  | .vred | .fexp | .flog | .frsq | .fact => [0, 2]
  | .dcopy => [0, 1]
  | .dfill | .lfetch => [1]
  | .lput => [0]
  | .dgather | .radd | .ranchor | .rcvt | .spmm | .sample | .slogp => [0, 1, 2]
  | _ => []

end Sys2Proof.Machine
end

