-- ==== Sys2Proof/Machine/Keccak.lean ====
section
/-! DEFINITION. The extendable-output functions SHAKE128 and SHAKE256 of FIPS 202, which the spec names for the
sampler's random value (R192), the partner digest (R220), section digests (R519) and key hashes (R529).
PRESUMED from FIPS 202: the spec names the functions and not their steps. -/

namespace Sys2Proof.Machine

/-- Lane `x + 5y` of a Keccak state of 25 lanes of 64 bits. -/
def kLane (a : List Nat) (x y : Nat) : Nat := a.getD (x % 5 + 5 * (y % 5)) 0

/-- Rotation of a 64-bit lane to the left. -/
def rot64 (v n : Nat) : Nat := ((v <<< (n % 64)) ||| (v >>> (64 - n % 64))) % 2 ^ 64

/-- Complement of a 64-bit lane. -/
def not64 (v : Nat) : Nat := v ^^^ (2 ^ 64 - 1)

/-- The walk over the 24 lanes other than (0, 0) that the rho step takes from (1, 0): lane (x, y) is followed by (y, 2x + 3y). -/
def rhoWalk : Nat → Nat → Nat → List (Nat × Nat)
  | 0, _, _ => []
  | n + 1, x, y => (x, y) :: rhoWalk n y ((2 * x + 3 * y) % 5)

/-- The rotation of a lane by the rho step: step `k` of the walk turns its lane by the triangular number (k + 1)(k + 2) / 2. -/
def rhoTurn (i : Nat) : Nat :=
  match (rhoWalk 24 1 0).findIdx? (fun c => c.1 + 5 * c.2 == i) with
  | some k => (k + 1) * (k + 2) / 2 % 64
  | none => 0

/-- The rotations of the 25 lanes. -/
def rhoTurns : List Nat := (List.range 25).map rhoTurn

/-- The shift register of the iota step, x^8 + x^6 + x^5 + x^4 + 1, one step on. -/
def iotaStep (r : Nat) : Nat := if r < 128 then 2 * r else (2 * r) ^^^ 0x171

/-- The constant of a round from the register at its start: output bit `j` of the round goes to lane bit 2^j − 1; and the register at the
end of the round, 7 steps on. -/
def iotaRound (r : Nat) : Nat × Nat :=
  (List.range 7).foldl (fun acc j => (acc.1 + (acc.2 % 2) * 2 ^ (2 ^ j - 1), iotaStep acc.2)) (0, r)

/-- The constants of `n` rounds from a register on. -/
def iotaFrom : Nat → Nat → List Nat
  | 0, _ => []
  | n + 1, r => (iotaRound r).1 :: iotaFrom n (iotaRound r).2

/-- The constants of the 24 rounds. -/
def iotaConsts : List Nat := iotaFrom 24 1

/-- The theta step. -/
def kTheta (a : List Nat) : List Nat :=
  let c (x : Nat) : Nat := kLane a x 0 ^^^ kLane a x 1 ^^^ kLane a x 2 ^^^ kLane a x 3 ^^^ kLane a x 4
  (List.range 25).map (fun i => a.getD i 0 ^^^ c ((i % 5 + 4) % 5) ^^^ rot64 (c ((i % 5 + 1) % 5)) 1)

/-- The rho and pi steps: the new lane (x, y) is the rotated old lane (x + 3y, x). -/
def kRhoPi (a : List Nat) : List Nat :=
  (List.range 25).map (fun i =>
    let x := i % 5
    let y := i / 5
    let j := (x + 3 * y) % 5 + 5 * x
    rot64 (a.getD j 0) (rhoTurns.getD j 0))

/-- The chi and iota steps. -/
def kChiIota (a : List Nat) (rc : Nat) : List Nat :=
  (List.range 25).map (fun i =>
    let x := i % 5
    let y := i / 5
    let v := kLane a x y ^^^ (not64 (kLane a (x + 1) y) &&& kLane a (x + 2) y)
    if i = 0 then v ^^^ rc else v)

/-- Keccak-f[1600]: 24 rounds. -/
def keccakF (a : List Nat) : List Nat := iotaConsts.foldl (fun s rc => kChiIota (kRhoPi (kTheta s)) rc) a

/-- The eight-byte lanes of a byte string. -/
def lanesOf (n : Nat) (bs : List Byte) : List Nat :=
  (List.range n).map (fun i => leNat ((bs.drop (8 * i)).take 8))

/-- One block absorbed at a rate of `rate` bytes. -/
def kAbsorb (rate : Nat) (a : List Nat) (blk : List Byte) : List Nat :=
  keccakF ((List.range 25).map (fun i => a.getD i 0 ^^^ ((lanesOf (rate / 8) blk).getD i 0)))

/-- A byte string padded for SHAKE at a rate of `rate` bytes: 0x1F, zeros, and the last bit set. -/
def kPad (rate : Nat) (bs : List Byte) : List Byte :=
  let z := rate - 1 - bs.length % rate
  if z = 0 then bs ++ [0x9F#8]
  else bs ++ [0x1F#8] ++ List.replicate (z - 1) 0#8 ++ [0x80#8]

/-- The blocks of a padded byte string absorbed in order. -/
def kAbsorbAll (rate : Nat) : Nat → List Nat → List Byte → List Nat
  | 0, a, _ => a
  | n + 1, a, bs => kAbsorbAll rate n (kAbsorb rate a (bs.take rate)) (bs.drop rate)

/-- `blocks` output blocks squeezed from a state. -/
def kSqueeze (rate : Nat) : Nat → List Nat → List Byte
  | 0, _ => []
  | n + 1, a => ((a.take (rate / 8)).flatMap (leBytes 8)) ++ kSqueeze rate n (keccakF a)

/-- A SHAKE function at a rate of `rate` bytes, `n` bytes of output. -/
def shake (rate n : Nat) (msg : List Byte) : List Byte :=
  let p := kPad rate msg
  (kSqueeze rate (n / rate + 1) (kAbsorbAll rate (p.length / rate) (List.replicate 25 0) p)).take n

/-- SHAKE128 with `n` bytes of output. -/
def shake128 (n : Nat) (msg : List Byte) : List Byte := shake 168 n msg

/-- SHAKE256 with `n` bytes of output. -/
def shake256 (n : Nat) (msg : List Byte) : List Byte := shake 136 n msg

/-- The bytes of an ASCII string. -/
def ascii (s : String) : List Byte := s.toList.map (fun c => BitVec.ofNat 8 c.toNat)

end Sys2Proof.Machine
end

