-- ==== Sys2Proof/Machine/TrickState.lean ====
section
/-! DEFINITION. State of the dealer and of the trick logic: dealings, trick groups, table time, and the partner logic.
Plain data. -/

namespace Sys2Proof.Machine

/-! ## Dealings and groups (R42, R47, R316 to R323, R448) -/

/-- Hand index of the built-in check of R453, which is no hand of an image. -/
def checkHand : Nat := 65536

/-- The share of one request in a dealing (R391, R392): the request (its `order`), first row and rows, first token index,
SAMPLE, SCORE, the units debited, and whether its epoch-range list grew at the deal. -/
structure BatchReq where
  req    : Nat
  first  : Nat
  rows   : Nat
  index  : Nat
  sample : Bool
  score  : Bool
  cost   : Nat
  grew   : Bool
  deriving DecidableEq, Repr

/-- A dealing in progress on a trick group: hand index, dealing number, deal time of its present phase, the trick being
collected, the physical parts of its local members, the declared epoch of each weight slot (R37), its requests, the start
[tick] and compute energy [fJ] of the present phase up to the last power tick (R430), what its cores had used of that tick when the phase
began, and the die time of the last local arrival (R460). -/
structure Dealing where
  hand    : Nat
  number  : Nat
  dealAt  : Nat
  trick   : Nat
  parts   : List Nat
  epochs  : List Nat
  reqs    : List BatchReq
  phaseAt : Nat
  energy  : Rat
  base    : Rat
  locAt   : Nat
  deriving DecidableEq, Repr

/-- What an abort trick carries (R69, R323): the serial it aborts, its code, the chip identifier of the faulting package,
whether that is this package and, there, the report and the physical part of the core; `quiet` says that this package has
its journal entry already or records none for this group (R69 step 5, R447). -/
structure AbortInfo where
  serial : Nat
  code   : Nat
  origin : Nat
  mine   : Bool
  part   : Option Nat
  engine : Nat
  pc     : Nat
  quiet  : Bool
  deriving DecidableEq, Repr

/-- State of a trick group (R328). -/
inductive GroupSt where
  | idle
  | dealing
  | collecting
  | arrived
  | released
  | aborting
  deriving DecidableEq, Repr

/-- One trick group: its last deal serial, its dealing in progress, the child ports that have sent ARRIVE (or ABORT_ARRIVE)
for the trick being collected with their NEED, whether this package has sent its own upward, the deal time of a release
not yet reached, the abort in progress, the completion counts `c(h)` of its hands at its last checkpoint trick and the
hands dealt since (R69), the return count (R448), a DEAL received and not yet dealt (R321), the load vote (R338), a
group aborted for the loss of a tree port (R449), whether an aborted dealing has not been dealt again (R361), the seal
digest saved at its last checkpoint trick (R221), the NEED of the subtree for its next deal (R319), and the aborts, by group and serial, of
the groups returned with it, which end before it deals again (R69 steps 5 and 6). -/
structure Group where
  serial  : Nat
  st      : GroupSt
  dealing : Option Dealing
  kids    : List (Nat × Nat)
  sentUp  : Bool
  abort   : Option AbortInfo
  ckpt    : SMap Nat
  round   : List (Nat × Nat)
  returns : Nat
  asked   : Option (Nat × Nat × Nat)
  voted   : Bool
  lost    : Bool
  owed    : Bool
  digest  : Nat
  need    : Nat
  pull    : List (Nat × Nat)
  deriving DecidableEq, Repr

/-- A group with nothing dealt. -/
def Group.reset : Group := ⟨0, .idle, none, [], false, none, [], [], 0, none, false, false, false, 0, 0, []⟩

/-- A TRICK flit's payload (R317). -/
structure TrickFlit where
  kind   : Nat
  group  : Nat
  trick  : Nat
  serial : Nat
  need   : Nat
  t      : Nat
  handId : Nat
  code   : Nat
  origin : Nat
  deriving DecidableEq, Repr

/-! ## Table time (R303 to R312) -/

/-- A beacon (R306), with the arrival time R of R308 in sixteenths of a nanosecond. -/
structure Beacon where
  stamp   : Nat
  frac    : Nat
  state   : Nat
  stratum : Nat
  root    : Nat
  arrived : Int
  deriving DecidableEq, Repr

/-- A step that waits under R310: by an offset, or to a value. -/
inductive StepReq where
  | by (ns : Int)
  | to (ns : Nat)
  deriving DecidableEq, Repr

/-- Time logic beyond the TIM page: sixteenths of a nanosecond, the rate correction in force [ppm] and its accumulated
part [10^-6 ns], the tick since which the offset has stayed within LOCK_NS, the step that waits, a TIM_CTRL.STEP that waits for the pulse edge (R311), the groups whose deal times are held back from
local members (R310), and the beacons of the followed port not yet used, with their port (R308). -/
structure TimeSt where
  sub      : Nat
  slew     : Int
  slewAcc  : Int
  inLimit  : Option Nat
  step     : Option StepReq
  atEdge   : Bool
  held     : List (Nat × Nat)
  beacons  : List (Nat × Beacon)
  deriving DecidableEq, Repr

/-- Time logic after a package reset. -/
def TimeSt.reset : TimeSt := ⟨0, 0, 0, none, none, false, [], []⟩

/-! ## Slot wheels of the package network and of the DDR5 channels (R11, R231, R337) -/

/-- Who owns a slot: nobody, the forwarded flits, or a flow of the dealing with a serial of a trick group. -/
inductive SlotOwner where
  | free
  | transit
  | flow (group serial flow : Nat)
  deriving DecidableEq, Repr

/-! ## Partner mode (R346 to R349) -/

/-- A partner flit's payload (R346). -/
structure PartnerFlit where
  kind   : Nat
  group  : Nat
  handId : Nat
  deal   : Nat
  value  : Nat
  core   : Nat
  engine : Nat
  index  : Nat
  pc     : Nat
  deriving DecidableEq, Repr

/-- The partner logic: COMPAREs this package waits on, by group (its own COMPARE), early COMPAREs of the partner by group
(R347), the group mismatched or searched, this package's COMPARE of the last mismatch, and the RECORDs of a search not yet matched on each side (R348). -/
structure PartnerSt where
  waiting : List PartnerFlit
  early   : List PartnerFlit
  bad     : Option Nat
  last    : Option PartnerFlit
  search  : Bool
  mine    : List PartnerFlit
  theirs  : List PartnerFlit
  held    : Bool
  deriving DecidableEq, Repr

/-- The partner logic after reset. -/
def PartnerSt.reset : PartnerSt := ⟨[], [], none, none, false, [], [], false⟩

/-! ## Dies (R303, R313, R439) -/

/-- Power state of a die. -/
inductive DiePower where
  | awake
  | gated
  | waking
  deriving DecidableEq, Repr

/-- One die: power state, the difference of its table-time copy from the hub's [ns] and the steps of TABLE_TIME that the copy has
yet to take at its next mark (R310), whether the copy is LOCAL, the frequency that the power controller chooses [50 MHz] (R428),
the tick of the last heat step, the power ticks in a row that were cool and that had ample budget (R428, R434), and its bring-up results. -/
structure Die where
  power     : DiePower
  offset    : Int
  owed      : Int
  isLocal   : Bool
  freq      : Nat
  hotAt     : Nat
  coolTicks : Nat
  richTicks : Nat
  droopAt   : Option Nat
  tested    : Bool
  passed    : Bool
  trained   : Bool
  memDone   : Bool
  anchored  : Bool
  deriving DecidableEq, Repr

/-- A die after a package reset: not yet woken (HIF_AWAKE reads 0x100_0000; R504, R508), its copy LOCAL (R303). -/
def Die.reset : Die := ⟨.gated, 0, 0, true, 0x1C, 0, 0, 0, none, false, false, false, false, false⟩

end Sys2Proof.Machine
end

