-- ==== Sys2Proof/Machine/LinkState.lean ====
section
/-! DEFINITION. State of the Evkai ports: flits, replay buffers, elastic buffers, retirement, training, and the fetch
responders.  Plain data. -/

namespace Sys2Proof.Machine

/-- A flit (R256 to R258): header fields, payload and seal carry. -/
structure Flit where
  ty      : Nat
  nak     : Bool
  ddown   : Bool
  partner : Bool
  seq     : Nat
  ack     : Nat
  route   : Nat
  window  : Nat
  offset  : Nat
  sflag   : Nat
  sinc    : Nat
  tag     : Nat
  payload : List Byte
  carry   : Seal
  deriving DecidableEq, Repr

/-- Who waits for the retirement report of a flit that a port sent (R285, R286): an LSE instruction of a core, by its
stamp; a flit that another port accepted and forwarded, by that port and its sequence number there; nobody. -/
inductive Owner where
  | lse (part stamp : Nat)
  | fwd (port seq : Nat)
  | none
  deriving DecidableEq, Repr

/-- A flit in the replay buffer, with its count of replays (R264, R267). -/
structure Buffered where
  seq   : Nat
  flit  : Flit
  count : Nat
  deriving DecidableEq, Repr

/-- A sequenced flit accepted and not yet covered by the RETIRED report (R284, R286). -/
structure Accepted where
  seq  : Nat
  done : Bool
  via  : Option (Nat × Nat)
  deriving DecidableEq, Repr

/-- A flit in the elastic buffer (R276, R277, R293): the bytes as decoded, whether it goes to an output port, whether
its window and hand tag have been checked, whether its write has been made and only its signal is due, the scratchpad address
that its check gave it (R275), whether a flit of its tile was refused (R209), and whether its retirement is still reported (not
after a fresh start, R271). -/
structure Elastic where
  flit    : Flit
  raw     : List Byte
  forward : Bool
  checked : Bool
  written : Bool
  addr    : Nat
  broken  : Bool
  live    : Bool
  deriving DecidableEq, Repr

/-- A tile that is arriving at a window, some of its flits not yet seen (R209, R280): core, window, tile within the window and
hand tag; the scratchpad address of the tile once a flit of it has passed its check; and whether one was refused. -/
structure RxTile where
  core    : Nat
  window  : Nat
  tile    : Nat
  tag     : Nat
  addr    : Option Nat
  refused : Bool
  deriving DecidableEq, Repr

/-- A replay in progress (R265): the number it follows, the numbers still to resend, and the tick of its start. -/
structure Replay where
  from' : Nat
  rest  : List Nat
  at'   : Nat
  deriving DecidableEq, Repr

/-- One Evkai port beyond its page (R261 to R286): why it trains (a re-deal, or bring-up and TRAIN), whether it has declared
LINK_DOWN and not become ACTIVE since (R272), whether its training has been started (R269), its fresh bit, the
tick at which the training state was entered, MAX_RATE and LANE_MASK as its training took them (R269, R298), whether it has accepted a
flit since RESUME began (R269), the round trip in sixteenths of a nanosecond (R308), the scrambler and descrambler histories of its active
lanes (R253), the starts of the last two re-deals (R272), replay buffer, flits sent and not
reported as applied with their owners, the peer's last RETIRED, flits accepted and not retired and the RETIRED this port
sends, the last or present replay, the tick of the last advance of ACK and the last ACK (R266), the start of the pause after an
overrun and the number it replays from (R278), due control codes (R259), flit times since the last unsequenced flit (R260) and
the tick of the last beacon sent (R307), waiting TRICK and partner flits, flows, wheel position, elastic buffer and the
tick at which its head began to wait (R276), tiles arriving (R209), discard bin, and the last beacon received with its tick (R308, R309). -/
structure Port where
  redeal   : Bool
  down     : Bool
  train    : Bool
  fresh    : Bool
  since    : Nat
  maxRate  : Nat
  laneMask : Nat
  heard    : Bool
  rtt16    : Nat
  txHist   : List Nat
  rxHist   : List Nat
  starts   : List Nat
  buffer   : List Buffered
  sent     : List (Nat × Owner)
  peerRet  : Nat
  acc      : List Accepted
  retired  : Nat
  replay   : Option Replay
  ackAt    : Nat
  lastAck  : Nat
  pause    : Option (Nat × Nat)
  due      : List (Nat × Nat)
  quiet    : Nat
  timeAt   : Nat
  tricks   : List Flit
  flows    : SMap (List (Flit × Owner))
  wheel    : Nat
  elastic  : List Elastic
  tiles    : List RxTile
  headAt   : Nat
  bin      : List (List Byte)
  beacon   : Option Beacon
  beaconAt : Nat
  stratum  : Nat
  peerTime : Nat
  rootChip : Nat
  deriving DecidableEq, Repr

/-- A port after a package reset: QUIET, with the fresh bit set (R261, R271, R284). -/
def Port.reset : Port :=
  ⟨false, false, false, true, 0, 0, 0xF, false, 0, [], [], [], [], [], 0xFFFF, [], 0xFFFF, none, 0, 0xFFFF, none, [], 0, 0, [], [], 0, [], [], 0, [], none, 0,
   255, 0, 0⟩

/-- A FETCH that a responder has taken (R289): the scratchpad address of its first tile, its tiles, its fetch tag and hand
tag, and the route of its return flits. -/
structure FetchReq where
  addr  : Nat
  tiles : Nat
  tag   : Nat
  hand  : Nat
  route : Nat
  deriving DecidableEq, Repr

end Sys2Proof.Machine
end

