-- ==== Sys2Proof/Machine/PowerState.lean ====
section
/-! DEFINITION. State of the power controller, of faults and health, of MRAM and of the life cycle.  Plain data. -/

namespace Sys2Proof.Machine

/-! ## Power (R418 to R436) -/

/-- A phase entry of the bid table (R430): the learned power in W and when it was last used. -/
structure Bid where
  power : Nat
  used  : Nat
  deriving DecidableEq, Repr

/-- The power controller beyond the PWR page: energies [fJ] of its ticks of the last 10 s, each
with its time, newest first (R419); B_c of
the latest tick [W] (R425); the bid table by `HAND_ID × 65,536 + trick` and its use clock (R430); the estimate of the
present 1 ms period and the energies of the last valid period (R432) [fJ]; the last valid measured power [W]; and, for each
regulator, its count of consecutive periods without a valid answer (R423). -/
structure PowerSt where
  hist    : List (Nat × Nat)
  bc      : Rat
  bids    : SMap Bid
  bidUse  : Nat
  periodE : Nat
  estE    : Nat
  measE   : Nat
  measW   : Nat
  misses  : SMap Nat
  deriving DecidableEq, Repr

/-- The default of PWR_COEF(i) (R421). -/
def coefDefault (i : Nat) : Nat :=
  [283, 150, 600, 8000, 9273000, 20000, 4000, 12000, 20000, 2000, 4500000, 40000, 130000, 170000, 250000, 20000].getD i 0

/-- The power controller after a package reset. -/
def PowerSt.reset : PowerSt := ⟨[], 0, [], 0, 0, 0, 0, 0, []⟩

/-! ## Faults and health (R446 to R466) -/

/-- A fault journal entry (R446). -/
structure JrnEntry where
  time   : Nat
  code   : Nat
  kind   : Nat
  die    : Nat
  core   : Nat
  part   : Nat
  engine : Nat
  group  : Nat
  handId : Nat
  serial : Nat
  pc     : Nat
  origin : Nat
  info   : Nat
  deriving DecidableEq, Repr

/-- The entry that an empty ring position reads as. -/
def JrnEntry.zero : JrnEntry := ⟨0, 0, 0, 0, 0, 0, 0, 0, 0, 0, 0, 0, 0⟩

/-- The joker map of one C-die (R16, R466): the physical core of each logical core, retired cores, jokers left, and whether
a marked core waits for a joker. -/
structure JokerMap where
  phys    : List Nat
  retired : List Nat
  jokers  : Nat
  waits   : Bool
  deriving DecidableEq, Repr

/-- Faults and health beyond the FLT page: the journal ring by position, the tick of its oldest unstored change, scores by
part (R458), the counter values of the last health sample by part, cores marked for retirement with the code of what
marked them (R462, R463), joker maps by die, whether a check is due and the part the running check is on (R453), and the
parts whose last dealing ended at a trick that is no checkpoint trick and was not returned, with that dealing when it is of the loaded image
(R454). -/
structure FaultSt where
  jrn     : SMap JrnEntry
  dirtyAt : Option Nat
  health  : SMap Nat
  sample  : SMap Nat
  marked  : SMap Nat
  maps    : List JokerMap
  due     : Bool
  running : Option Nat
  midRound : List (Nat × Option (Nat × Nat))
  deriving DecidableEq, Repr

/-! ## MRAM, start-up and life cycle (R505 to R534) -/

/-- One MRAM bank (R518): its digest, none where none has been written, whether it is erased, its SEQ and its data by index. -/
structure Bank where
  digest : List Byte
  erased : Bool
  seq    : Nat
  data   : SMap Nat
  deriving DecidableEq, Repr

/-- An erased bank. -/
def Bank.blank : Bank := ⟨[], true, 0, []⟩

/-- One MRAM section: two banks, and which holds the stored value (none: blank). -/
structure Section where
  bank0  : Bank
  bank1  : Bank
  stored : Option Bool
  deriving DecidableEq, Repr

/-- A blank section. -/
def Section.blank : Section := ⟨Bank.blank, Bank.blank, none⟩

/-- Who asked for an MRAM operation (R521). -/
inductive NvmBy where
  | host
  | dealer
  | supervisor
  | security
  deriving DecidableEq, Repr

/-- An MRAM store or erase: its section, whether it is a store, who asked, and the values captured at its start (R520). -/
structure NvmOp where
  sect  : Nat
  store : Bool
  by'   : NvmBy
  data  : SMap Nat
  deriving DecidableEq, Repr

/-- Life-cycle states (R525). -/
inductive Lcs where
  | raw
  | test
  | provision
  | field
  | fieldDebug
  | ret
  | void
  deriving DecidableEq, Repr

/-- The life-cycle operation in progress (R528 to R531). -/
inductive LcsOp where
  | submit (loaded : Bool)
  | claim
  | cert
  deriving DecidableEq, Repr

/-- Fuses (R21 to R25, R514, R526, R528, R531, R535): grade, step, absent engines and ports, disabled cores by die, lowest
SVN, firmware-key hashes and those revoked, life-cycle key hash, root hash, device identifier and the fuse-held
life-cycle state. -/
structure Fuses where
  grade     : Nat
  lcores    : Nat
  stepMinor : Nat
  stepMajor : Nat
  engines   : Nat
  ports     : Nat
  cores     : List Nat
  minSvn    : Nat
  fwKeys    : List (List Byte)
  revoked   : List Nat
  lcsKey    : List Byte
  rootKey   : List Byte
  deviceId  : Nat
  lcs       : Lcs
  deriving DecidableEq, Repr

/-- Life-cycle and start-up state beyond the HUB, NVM and LCS pages: the state in force, the running operation, the owner
key hash, identity key (present or not, with its public key) and its secret key, nonce words, whether DDR5 training is in progress, firmware and plan
measurements, the attestation nonce captured, request in progress (its KIND) and result, a package reset that waits for an MRAM store, fuse burn or hold-up save (R506;
whether PERST_N caused it), MRAM operations: the one in progress and those waiting, and the equaliser seeds of the ports (R518). -/
structure LifeSt where
  lcs      : Lcs
  op       : Option LcsOp
  identity : Option (List Byte)
  secret   : List Byte
  nonce    : List Nat
  ddrTrain : Bool
  mFw      : List Byte
  mPlan    : List Byte
  plans    : Nat
  attNonce : List Byte
  attOp    : Option Nat
  attData  : List Byte
  resetDue : Option Bool
  nvmNow   : Option NvmOp
  nvmWait  : List NvmOp
  seeds    : SMap Nat
  deriving DecidableEq, Repr

/-- What stops the package (R435, R467, R468, R522): held in reset, running, dealer down, hub-only reset, tripped, sag. -/
inductive PkgSt where
  | held
  | running
  | down
  | hubReset
  | tripped
  | sagged
  deriving DecidableEq, Repr

end Sys2Proof.Machine
end

