-- ==== Sys2Proof/Machine/ServState.lean ====
section
/-! DEFINITION. State of serving and of weights: request logs, requests, completion rings, stakes, weight slots and delta
seats.  Plain data. -/

namespace Sys2Proof.Machine

/-! ## Requests (R381 to R407) -/

/-- A request entry (R382). -/
structure Entry where
  user       : Nat
  promptAddr : Nat
  outAddr    : Nat
  logpAddr   : Nat
  elistAddr  : Nat
  seed       : Nat
  promptLen  : Nat
  maxNew     : Nat
  temp       : Nat
  topk       : Nat
  topp       : Nat
  stop0      : Nat
  stop1      : Nat
  deltaId    : Nat
  flags      : Nat
  deriving DecidableEq, Repr

/-- A request taken from a log: its slot's key `512 × f + slot`, TAG and entry; whether it is admitted and its place in
the order of taking; its admission epoch (R388), KV pages, delta seat and version, chunk size (R392), prompt tokens
processed, tokens generated and the last of them, score, units debited, epoch-range list (R370), a pause in force, a
cancel waiting for its dealing, a completion status waiting for its dealing (R408), whether its function has been disabled since it was
taken (R408), and whether a function-level reset has detached it (R409). -/
structure Req where
  key      : Nat
  tag      : Nat
  entry    : Entry
  admitted : Bool
  order    : Nat
  epoch    : Nat
  pages    : List Nat
  seat     : Option Nat
  version  : Nat
  chunk    : Nat
  prompt   : Nat
  tokens   : Nat
  last     : Nat
  score    : Nat
  debit    : Nat
  elist    : List (Nat × Nat)
  paused   : Bool
  pinned   : Bool
  cancel   : Bool
  ending   : Option Nat
  disabled : Bool
  detached : Bool
  deriving DecidableEq, Repr

/-- A completion entry that waits for room in its ring or has been formed (R402): the request's key when it frees a slot,
and its fields. -/
structure Cpl where
  key     : Nat
  final   : Bool
  tag     : Nat
  user    : Nat
  status  : Nat
  cancel  : Nat
  tokens  : Nat
  prompt  : Nat
  stake   : Nat
  elistN  : Nat
  version : Nat
  elistA  : Nat
  score   : Nat
  deriving DecidableEq, Repr

/-- One function: its request log and control line (R381), the slots submitted and not yet completed, the TAG of the last
FINAL completion of each slot (plus 1; R385), the slots whose valid word a disabling has dropped (R408), its stake in 10^-9 units and the tick of that value (R398), the completion
entries that wait, and message moderation: entries written since the last message and the tick of the first (R405). -/
structure Func where
  log     : SMap Byte
  busy    : List Nat
  lastTag : SMap Nat
  stale   : List Nat
  stake   : Nat
  stakeAt : Nat
  cpls    : List Cpl
  since   : Nat
  firstAt : Option Nat
  deriving DecidableEq, Repr

/-- A function after a package reset: its stake at BURST 0xFFFF_FFFF (R416). -/
def Func.reset : Func := ⟨[], [], [], [], 0xFFFFFFFF * 1000000000, 0, [], 0, none⟩

/-! ## Weight slots and delta seats (R353 to R374) -/

/-- State of a weight slot (R355). -/
inductive SlotSt where
  | empty
  | ready
  | free
  | staged
  | retiring
  deriving DecidableEq, Repr

/-- A weight slot (R353); `ended` says that, since the slot was staged, a dealing that named it has ended, and `atCkpt`
whether the last such dealing ended at a checkpoint trick (R361, R365). -/
structure WSlot where
  st     : SlotSt
  epoch  : Nat
  seat   : Nat
  ended  : Bool
  atCkpt : Bool
  deriving DecidableEq, Repr

/-- Weight slot `s` after a package reset (R353). -/
def WSlot.reset (s : Nat) : WSlot := ⟨if s % 2 = 0 then .empty else .free, 0, s % 2, false, false⟩

/-- A pending weight-slot command (R379). -/
inductive WOp where
  | stage (epoch : Nat)
  | cut
  | drop
  deriving DecidableEq, Repr

/-- State of a delta seat (R372). -/
inductive SeatSt where
  | free
  | loading
  | live
  | retired
  deriving DecidableEq, Repr

/-- A delta seat (R372, R380). -/
structure Seat where
  st      : SeatSt
  id      : Nat
  version : Nat
  deriving DecidableEq, Repr

/-- A free delta seat. -/
def Seat.free : Seat := ⟨.free, 0, 0⟩

/-! ## Functions of the PCI Express port (R474 to R478, R498, R501) -/

/-- What software sets in a function's configuration space beyond the bits that HIF_FUNC shows (R474, R475, R477, R498): the address bits of its
six BAR registers and, in the physical function, of the six of SR-IOV; Max_Payload_Size and Max_Read_Request_Size as codes; the Completion
Timeout Value; ASPM; NumVFs, VF Enable and VF Memory Space Enable; the uncorrectable errors that AER has logged; and the tick at which a
function-level reset is complete. -/
structure PcieFn where
  bars     : List Nat
  vfBars   : List Nat
  mps      : Nat
  mrrs     : Nat
  timeout  : Nat
  aspm     : Nat
  numVfs   : Nat
  vfEnable : Bool
  vfMse    : Bool
  aer      : Nat
  flrEnd   : Nat
  deriving DecidableEq, Repr

/-- A function after a package reset: 128-byte payloads and 512-byte read requests (PRESUMED, the PCI Express standard's; log entry 141), the
default Completion Timeout Value (R498). -/
def PcieFn.reset : PcieFn := ⟨[0, 0, 0, 0, 0, 0], [0, 0, 0, 0, 0, 0], 0, 2, 0, 0, 0, false, false, 0, 0⟩

end Sys2Proof.Machine
end

