-- ==== Sys2Proof/Machine/State.lean ====
section
/-! DEFINITION. The state of the package as plain data, and its value after reset. -/

namespace Sys2Proof.Machine

/-! ## Registers (R6, R480, R485) -/

/-- The blocks that have register pages (R485). -/
inductive Block where
  | hub | aon | pln | hif | att | nvm | lcs | srv | wsl | dpl | pwr | flt | tim | trk | xpk | sdg | rte
  | clk | hbm | seq | spm | mxu | cmp | sea | dma | ddr | lnk
  deriving DecidableEq, Repr

/-- Access codes (R6). -/
inductive Access where
  | ro | rw | w1c | w1s | wo | rws | nv
  deriving DecidableEq, Repr

/-- A register field: block, offset of its register, stride and number of instances of the register, least bit,
width, access code, and value after a package reset. -/
structure Fld where
  blk    : Block
  off    : Nat
  stride : Nat
  count  : Nat
  lsb    : Nat
  width  : Nat
  acc    : Access
  reset  : Nat
  deriving DecidableEq, Repr

/-- What leaves the package: host memory writes, MSI-X messages, flits (the 288 bytes, and the levels that each active lane sends), the
results of host reads, and PMBus reads (R422: address and command). -/
inductive Out where
  | hostWrite (fn addr : Nat) (bytes : List Byte)
  | msix (fn entry addr data : Nat)
  | readData (value : Nat)
  | readBytes (poisoned : Bool) (bytes : List Byte)
  | flit (port : Nat) (bytes : List Byte) (lanes : List (List Nat))
  | pmbus (addr command : Nat)
  deriving DecidableEq, Repr

/-- The mark of a latch that no read has filled; no register word has this value (R482). -/
def noLatch : Nat := 2 ^ 32

/-- A memory tier (R211, R226): data bytes, seals by tile number, and stored word errors by word number. -/
structure Tier where
  bytes : SMap Byte
  seals : SMap Seal
  err   : SMap MemErr
  deriving DecidableEq, Repr

/-- A loaded plan image (R32). -/
structure Image where
  addr     : Nat
  chipId   : Nat
  packages : Nat
  ports    : Nat
  size     : Nat
  hands    : List Hand
  deriving DecidableEq, Repr

/-- A plan image being loaded (R33, R495): its device address, or none. -/
structure Loading where
  addr : Nat
  deriving DecidableEq, Repr

/-- Tick at which each clock-like event last happened, for rules that count time from it (R304): the last check (R453), the
start of Evkai training (R508), the last external time edge and the start of the watch on the external inputs (R311, R543), the last power tick and measurement period (R419, R422), the
last health sample, decay and store (R458). -/
structure Marks where
  checkAt  : Nat
  linkAt   : Nat
  extAt    : Nat
  extFrom  : Nat
  powerAt  : Nat
  measAt   : Nat
  sampleAt : Nat
  decayAt  : Nat
  storeAt  : Nat
  deriving DecidableEq, Repr

/-- The package. -/
structure State where
  /-- commands that wait, oldest first -/
  pending : List Instr
  /-- ticks of the 1 GHz domain since reset; every limit counts them (R304) -/
  tick    : Nat
  /-- TABLE_TIME on the hub [ns] (R302) -/
  time    : Nat
  /-- whether the always-on domain runs on its internal oscillator, SYSREF being absent (R542) -/
  osc     : Bool
  /-- the model's own counter of free values; no register of the package -/
  free    : Nat
  /-- a counter that names started instructions and requests in the order they came; the model's own -/
  stamp   : Nat
  /-- what has left the package, oldest first -/
  outbox  : List Out
  /-- register fields, by `Fld.key` (R480) -/
  regs    : SMap Nat
  /-- which record registers hold a record made since their event bits were last clear, by the key of the VALID field (R134, R224, R250,
  R299, R484) -/
  recs    : SMap Bool
  /-- the latched HI halves of read pairs, by BAR0 offset of the LO half; `noLatch` before a read has latched one (R482) -/
  latches : SMap Nat
  /-- the package's condition (R435, R467, R468, R522) -/
  pkg     : PkgSt
  /-- fuses (R21) -/
  fuses   : Fuses
  /-- core records by physical part (R452) -/
  cores   : SMap Core
  /-- accesses of link receive, the sequencer, debug access and the fetch responder in the present tick (R121, R122) -/
  recent  : List Recent
  /-- HBM by device address (R226, R227) -/
  hbm     : Tier
  /-- the DDR5 tier by tier address (R240) -/
  ddr     : Tier
  /-- dies by die index (R11) -/
  dies    : SMap Die
  /-- owners of the slots of the 78 wires' wheels and of the wheels of the DDR5 channels, wheel 78 on: by 64 × wheel + slot (R11, R231) -/
  wheels  : SMap SlotOwner
  /-- energy events counted since the last power tick, by 32 × unit + index: units are physical parts, 176 + P-die, and 184 for the hub (R421); index 16
  holds the dummy-load cycles of index 4 -/
  events  : SMap Nat
  /-- whether THERMTRIP_N is driven low (R435) -/
  thermtrip : Bool
  /-- whether the DDR5 DIMMs are in self-refresh (R435, R522) -/
  ddrSelf : Bool
  /-- the loaded plan image, parsed -/
  image   : Option Image
  /-- the load in progress -/
  loading : Option Loading
  /-- completion counts c(h) by hand index (R42) -/
  done    : SMap Nat
  /-- 1 more than the stamp of the last deal of each class or GEN variant; 0 before the first (R412) -/
  dealt   : SMap Nat
  /-- trick groups -/
  groups  : SMap Group
  /-- TRICK flits taken by the trick logic and not yet handled: port of arrival and payload -/
  trickIn : List (Nat × TrickFlit)
  /-- seal digest of each trick group (R220) -/
  digests : SMap Nat
  /-- table-time logic -/
  timing  : TimeSt
  /-- partner logic, and the partner flits taken and not yet handled -/
  partner : PartnerSt
  partnerIn : List PartnerFlit
  /-- Evkai ports -/
  ports   : SMap Port
  /-- fetch responders by physical part (R289) -/
  responders : SMap (List FetchReq)
  /-- route table (R291) -/
  routes  : SMap Nat
  /-- the last value written to RTE_DATA_HI, which a write of RTE_DATA_LO stores; a read of RTE_DATA_LO changes only what the register
  shows (R301) -/
  routeHi : Nat
  /-- functions (R381) -/
  funcs   : SMap Func
  /-- requests taken and not completed: the admitted ones in the order of admission, the waiting ones in the order they were taken -/
  reqs    : List Req
  /-- KV pages in use (R388) -/
  kvUsed  : List Nat
  /-- weight slots that are not at their reset value (R353) -/
  wslots  : List WSlot
  /-- the pending weight-slot command: operation and pair (R379) -/
  wcmd    : Option (WOp × Nat)
  /-- delta seats (R372) -/
  seats   : SMap Seat
  /-- the version last given to each delta set (R372) -/
  versions : SMap Nat
  /-- power controller -/
  power   : PowerSt
  /-- faults, health, jokers -/
  flt     : FaultSt
  /-- MRAM sections by number (R518) -/
  mram    : SMap Section
  /-- life cycle and start-up -/
  life    : LifeSt
  /-- when clock-like events last happened -/
  marks   : Marks
  /-- MSI-X vector masks, function masks and pending bits (R478, R499) -/
  msixMask : SMap Bool
  msixFnMask : SMap Bool
  msixPend : SMap Bool
  /-- addresses and data of the MSI-X table entries: words 0 to 2 of entry `e` of function `f` at 4 (2048 f + e) (R478, R499) -/
  msixEntry : SMap Nat
  /-- configuration spaces of the functions (R475) -/
  pcie    : SMap PcieFn
  /-- the Subsystem Vendor ID and Subsystem ID of every function, as the last package reset took them (R475) -/
  subsys  : Nat
  deriving DecidableEq, Repr

/-! ## Outcomes -/

/-- Faults of the model.  None is raised: a fault of the package is the command's effect on `State` (R444 to R445), and
every address that the spec says does not exist has an outcome of its own in the spec (R227, R486, R490).  The one
constructor is kept for a queue entry that is not well formed; nothing raises it (safe). -/
inductive Fault where
  | illFormed
  deriving DecidableEq, Repr

/-- Refusals: `notModelled` is raised by an arm of `exec` that has no meaning yet (safe: the run stops). -/
inductive Refusal where
  | notModelled (mnemonic : String)
  deriving DecidableEq, Repr

/-! ## Reset -/

/-- A memory tier after a package reset: nothing listed; every seal poisoned (R236, R241). -/
def Tier.reset : Tier := ⟨[], [], []⟩

/-- Fuses of the modelled package: grade K25-A with ten logical cores a die, nothing absent and no core disabled
(DESIGN CHOICE, log entry 3; the spec leaves fuse contents to each part), its key hashes and identifier constants without a value. -/
def Fuses.reset : Fuses where
  grade := 1
  lcores := 10
  stepMinor := 0
  stepMajor := 1
  engines := 0xFE00
  ports := 0
  cores := List.replicate 16 0
  minSvn := 0
  fwKeys := (List.range 4).map Config.fuseHash
  revoked := []
  lcsKey := Config.fuseHash 4
  rootKey := Config.fuseHash 5
  deviceId := Config.deviceId.toNat
  lcs := .field

/-- The joker map that R16 gives a die whose fuse word is `fuse`, for a grade with `lcores` logical cores: logical cores
in order on the lowest enabled physical cores; the rest are jokers. -/
def JokerMap.ofFuse (lcores fuse : Nat) : JokerMap :=
  let ok := (List.range 11).filter (fun c => !bitOf fuse c)
  ⟨ok.take lcores, [], (ok.drop lcores).length, false⟩

/-- Faults and health after a package reset with blank MRAM. -/
def FaultSt.reset (f : Fuses) : FaultSt where
  jrn := []
  dirtyAt := none
  health := []
  sample := []
  marked := []
  maps := f.cores.map (fun w => JokerMap.ofFuse f.lcores w)
  due := false
  running := none
  midRound := []

/-- Life cycle and start-up after a package reset; the nonce is a random value of the part (R528), 0 until the reset is
released (DESIGN CHOICE, log entry 4). -/
def LifeSt.reset (l : Lcs) : LifeSt where
  lcs := l
  op := none
  identity := none
  secret := []
  nonce := [0, 0, 0, 0]
  ddrTrain := false
  mFw := []
  mPlan := []
  plans := 0
  attNonce := []
  attOp := none
  attData := []
  resetDue := none
  nvmNow := none
  nvmWait := []
  seeds := []

/-- The fields whose Reset value differs between the instances of a register, by `Fld.key`: PWR_COEF (R421, R442). -/
def coefFields : SMap Nat := (List.range 16).map (fun i => ((24 * 0x800000 + 0x00A * 0x1000 + 0x100 + 4 * i) * 32, coefDefault i))

/-- The package right after a package reset (R7, R505), held until RESET_RELEASE. -/
def State.reset : State where
  pending := []
  tick := 0
  time := 0
  osc := true
  free := 0
  stamp := 0
  outbox := []
  regs := coefFields
  recs := []
  latches := []
  pkg := .held
  fuses := Fuses.reset
  cores := []
  recent := []
  hbm := Tier.reset
  ddr := Tier.reset
  dies := []
  wheels := []
  events := []
  thermtrip := false
  ddrSelf := false
  image := none
  loading := none
  done := []
  dealt := []
  groups := []
  trickIn := []
  digests := []
  timing := TimeSt.reset
  partner := PartnerSt.reset
  partnerIn := []
  ports := []
  responders := []
  routes := []
  routeHi := 0
  funcs := []
  reqs := []
  kvUsed := []
  wslots := (List.range 64).map WSlot.reset
  wcmd := none
  seats := []
  versions := []
  power := PowerSt.reset
  flt := FaultSt.reset Fuses.reset
  mram := []
  life := LifeSt.reset .field
  marks := ⟨0, 0, 0, 0, 0, 0, 0, 0, 0⟩
  msixMask := []
  msixFnMask := []
  msixPend := []
  msixEntry := []
  pcie := []
  subsys := 0

end Sys2Proof.Machine
end

