-- ==== Sys2Proof/Machine/Regs.lean ====
section
/-! DEFINITION. Every field of every register table of the spec, as data: block, offset, stride and count of its register,
least bit and width, access code (R6), and value after a package reset (R7).  Fields whose Reset column is "fuse",
"stored" or another rule have 0 here; `State.fieldView` (Machine/Views.lean) or the reset operations give their value.
The common page header of R483 stands first, as fields of the block `hdr`, which every page shares. -/

namespace Sys2Proof.Machine

namespace R

/-- PAGE_CTRL_VECTOR of the common page header (R483). -/
def PAGE_CTRL_VECTOR (b : Block) : Fld := ⟨b, 0x008, 0, 1, 0, 11, .rw, 0⟩
/-- PAGE_CTRL_MSG_EN of the common page header (R483). -/
def PAGE_CTRL_MSG_EN (b : Block) : Fld := ⟨b, 0x008, 0, 1, 11, 1, .rw, 0⟩
/-- EVT_STATUS of the common page header (R483). -/
def EVT_STATUS (b : Block) : Fld := ⟨b, 0x010, 0, 1, 0, 32, .w1c, 0⟩
/-- EVT_ENABLE of the common page header (R483). -/
def EVT_ENABLE (b : Block) : Fld := ⟨b, 0x014, 0, 1, 0, 32, .rw, 0⟩
/-- EVT_FIRST_CODE of the common page header (R483). -/
def EVT_FIRST_CODE (b : Block) : Fld := ⟨b, 0x01C, 0, 1, 0, 16, .w1c, 0⟩

/-- HUB_GRADE.GRADE (R22) -/
def HUB_GRADE_GRADE : Fld := ⟨.hub, 0x040, 0, 1, 0, 4, .ro, 0⟩
/-- HUB_GRADE.LCORES (R22) -/
def HUB_GRADE_LCORES : Fld := ⟨.hub, 0x040, 0, 1, 4, 4, .ro, 0⟩
/-- HUB_GRADE.STEP_MINOR (R22) -/
def HUB_GRADE_STEP_MINOR : Fld := ⟨.hub, 0x040, 0, 1, 8, 4, .ro, 0⟩
/-- HUB_GRADE.STEP_MAJOR (R22) -/
def HUB_GRADE_STEP_MAJOR : Fld := ⟨.hub, 0x040, 0, 1, 12, 4, .ro, 0⟩
/-- HUB_FUSE_ENGINES.ABSENT (R23) -/
def HUB_FUSE_ENGINES : Fld := ⟨.hub, 0x044, 0, 1, 0, 16, .ro, 0⟩
/-- HUB_FUSE_PORTS.ABSENT (R24) -/
def HUB_FUSE_PORTS : Fld := ⟨.hub, 0x048, 0, 1, 0, 16, .ro, 0⟩
/-- HUB_FUSE_CORE.DISABLED (R25) -/
def HUB_FUSE_CORE : Fld := ⟨.hub, 0x060, 4, 16, 0, 11, .ro, 0⟩
/-- PLN_LOAD_STATUS.STATE (R107) -/
def PLN_LOAD_STATUS_STATE : Fld := ⟨.pln, 0x040, 0, 1, 0, 2, .ro, 0⟩
/-- PLN_LOAD_STATUS.REASON (R107) -/
def PLN_LOAD_STATUS_REASON : Fld := ⟨.pln, 0x040, 0, 1, 8, 8, .ro, 0⟩
/-- PLN_LOAD_STATUS.CODE (R107) -/
def PLN_LOAD_STATUS_CODE : Fld := ⟨.pln, 0x040, 0, 1, 16, 16, .ro, 0⟩
/-- PLN_LOAD_OFFSET_LO.OFFSET (R107) -/
def PLN_LOAD_OFFSET_LO : Fld := ⟨.pln, 0x044, 0, 1, 0, 32, .ro, 0⟩
/-- PLN_LOAD_OFFSET_HI.OFFSET (R107) -/
def PLN_LOAD_OFFSET_HI : Fld := ⟨.pln, 0x048, 0, 1, 0, 32, .ro, 0⟩
/-- PLN_LOAD_WHERE.HAND (R107) -/
def PLN_LOAD_WHERE_HAND : Fld := ⟨.pln, 0x04C, 0, 1, 0, 16, .ro, 0xFFFF⟩
/-- PLN_LOAD_WHERE.CORE (R107) -/
def PLN_LOAD_WHERE_CORE : Fld := ⟨.pln, 0x04C, 0, 1, 16, 8, .ro, 0xFF⟩
/-- SEQ_STATUS.STATE (R108) -/
def SEQ_STATUS_STATE : Fld := ⟨.seq, 0x040, 0, 1, 0, 2, .ro, 0⟩
/-- SEQ_STATUS.HALTED (R108) -/
def SEQ_STATUS_HALTED : Fld := ⟨.seq, 0x040, 0, 1, 2, 1, .ro, 0⟩
/-- SEQ_STATUS.LOOPS (R108) -/
def SEQ_STATUS_LOOPS : Fld := ⟨.seq, 0x040, 0, 1, 3, 3, .ro, 0⟩
/-- SEQ_STATUS.PRED (R108) -/
def SEQ_STATUS_PRED : Fld := ⟨.seq, 0x040, 0, 1, 8, 8, .ro, 0⟩
/-- SEQ_PC.PC (R108) -/
def SEQ_PC : Fld := ⟨.seq, 0x044, 0, 1, 0, 32, .ro, 0⟩
/-- SEQ_HAND.HAND_ID (R108) -/
def SEQ_HAND : Fld := ⟨.seq, 0x048, 0, 1, 0, 32, .ro, 0⟩
/-- SEQ_FAULT_PC.PC (R108) -/
def SEQ_FAULT_PC : Fld := ⟨.seq, 0x050, 0, 1, 0, 32, .ro, 0⟩
/-- SEQ_MARK_VALUE.VALUE (R108) -/
def SEQ_MARK_VALUE : Fld := ⟨.seq, 0x05C, 0, 1, 0, 32, .ro, 0⟩
/-- SEQ_MARK_PC.PC (R108) -/
def SEQ_MARK_PC : Fld := ⟨.seq, 0x060, 0, 1, 0, 32, .ro, 0⟩
/-- SEQ_FAULT.CODE (R108) -/
def SEQ_FAULT_CODE : Fld := ⟨.seq, 0x04C, 0, 1, 0, 16, .ro, 0⟩
/-- SEQ_FAULT.ENGINE (R108) -/
def SEQ_FAULT_ENGINE : Fld := ⟨.seq, 0x04C, 0, 1, 16, 4, .ro, 0⟩
/-- SEQ_FAULT_INFO.FLAG_VALUE (R108) -/
def SEQ_FAULT_INFO_FLAG_VALUE : Fld := ⟨.seq, 0x054, 0, 1, 0, 16, .ro, 0⟩
/-- SEQ_FAULT_INFO.FLAG (R108) -/
def SEQ_FAULT_INFO_FLAG : Fld := ⟨.seq, 0x054, 0, 1, 16, 9, .ro, 0⟩
/-- SEQ_FAULT_INFO.AT_TRICK (R108) -/
def SEQ_FAULT_INFO_AT_TRICK : Fld := ⟨.seq, 0x054, 0, 1, 25, 1, .ro, 0⟩
/-- SEQ_CTRL.RESUME (R108) -/
def SEQ_CTRL_RESUME : Fld := ⟨.seq, 0x058, 0, 1, 0, 1, .wo, 0⟩
/-- SEQ_CTRL.MARK_EN (R108) -/
def SEQ_CTRL_MARK_EN : Fld := ⟨.seq, 0x058, 0, 1, 1, 1, .rw, 0⟩
/-- SEQ_MARK_TIME_LO.TIME (R108) -/
def SEQ_MARK_TIME_LO : Fld := ⟨.seq, 0x064, 0, 1, 0, 32, .ro, 0⟩
/-- SEQ_MARK_TIME_HI.TIME (R108) -/
def SEQ_MARK_TIME_HI : Fld := ⟨.seq, 0x068, 0, 1, 0, 32, .ro, 0⟩
/-- SPM_CNT_COLLIDE.COUNT (R133) -/
def SPM_CNT_COLLIDE : Fld := ⟨.spm, 0x020, 0, 1, 0, 32, .w1c, 0⟩
/-- SPM_CNT_BOUNDS.COUNT (R133) -/
def SPM_CNT_BOUNDS : Fld := ⟨.spm, 0x024, 0, 1, 0, 32, .w1c, 0⟩
/-- SPM_CNT_ECC_CORR.COUNT (R133) -/
def SPM_CNT_ECC_CORR : Fld := ⟨.spm, 0x028, 0, 1, 0, 32, .w1c, 0⟩
/-- SPM_CNT_ECC_UNCORR.COUNT (R133) -/
def SPM_CNT_ECC_UNCORR : Fld := ⟨.spm, 0x02C, 0, 1, 0, 32, .w1c, 0⟩
/-- SPM_CTRL.COLLIDE_FAULT (R134) -/
def SPM_CTRL_COLLIDE_FAULT : Fld := ⟨.spm, 0x040, 0, 1, 0, 1, .rw, 0⟩
/-- SPM_CTRL.RETAIN (R134) -/
def SPM_CTRL_RETAIN : Fld := ⟨.spm, 0x040, 0, 1, 1, 1, .rw, 0⟩
/-- SPM_CTRL.AGE_LIMIT (R134) -/
def SPM_CTRL_AGE_LIMIT : Fld := ⟨.spm, 0x040, 0, 1, 8, 8, .rw, 0x20⟩
/-- SPM_STATUS.POWERED (R134) -/
def SPM_STATUS_POWERED : Fld := ⟨.spm, 0x044, 0, 1, 0, 1, .ro, 0⟩
/-- SPM_STATUS.LOST (R134) -/
def SPM_STATUS_LOST : Fld := ⟨.spm, 0x044, 0, 1, 1, 1, .ro, 1⟩
/-- SPM_STATUS.CLEARING (R134) -/
def SPM_STATUS_CLEARING : Fld := ⟨.spm, 0x044, 0, 1, 2, 1, .ro, 0⟩
/-- SPM_COLLIDE_INFO.TILE (R134) -/
def SPM_COLLIDE_INFO_TILE : Fld := ⟨.spm, 0x048, 0, 1, 0, 11, .ro, 0⟩
/-- SPM_COLLIDE_INFO.ROW (R134) -/
def SPM_COLLIDE_INFO_ROW : Fld := ⟨.spm, 0x048, 0, 1, 11, 3, .ro, 0⟩
/-- SPM_COLLIDE_INFO.READER (R134) -/
def SPM_COLLIDE_INFO_READER : Fld := ⟨.spm, 0x048, 0, 1, 14, 4, .ro, 0⟩
/-- SPM_COLLIDE_INFO.WRITER (R134) -/
def SPM_COLLIDE_INFO_WRITER : Fld := ⟨.spm, 0x048, 0, 1, 18, 4, .ro, 0⟩
/-- SPM_COLLIDE_INFO.WW (R134) -/
def SPM_COLLIDE_INFO_WW : Fld := ⟨.spm, 0x048, 0, 1, 22, 1, .ro, 0⟩
/-- SPM_COLLIDE_INFO.VALID (R134) -/
def SPM_COLLIDE_INFO_VALID : Fld := ⟨.spm, 0x048, 0, 1, 23, 1, .ro, 0⟩
/-- SPM_COLLIDE_PC.PC (R134) -/
def SPM_COLLIDE_PC : Fld := ⟨.spm, 0x04C, 0, 1, 0, 32, .ro, 0⟩
/-- SPM_ECC_INFO.TILE (R134) -/
def SPM_ECC_INFO_TILE : Fld := ⟨.spm, 0x050, 0, 1, 0, 11, .ro, 0⟩
/-- SPM_ECC_INFO.LINE (R134) -/
def SPM_ECC_INFO_LINE : Fld := ⟨.spm, 0x050, 0, 1, 11, 6, .ro, 0⟩
/-- SPM_ECC_INFO.VALID (R134) -/
def SPM_ECC_INFO_VALID : Fld := ⟨.spm, 0x050, 0, 1, 17, 1, .ro, 0⟩
/-- SPM_WAIT_LO.CYCLES (R134) -/
def SPM_WAIT_LO : Fld := ⟨.spm, 0x054, 0, 1, 0, 32, .ro, 0⟩
/-- SPM_WAIT_HI.CYCLES (R134) -/
def SPM_WAIT_HI : Fld := ⟨.spm, 0x058, 0, 1, 0, 32, .ro, 0⟩
/-- SPM_PROMOTED.COUNT (R134) -/
def SPM_PROMOTED : Fld := ⟨.spm, 0x05C, 0, 1, 0, 32, .ro, 0⟩
/-- SPM_DBG_ADDR.WORD (R135) -/
def SPM_DBG_ADDR : Fld := ⟨.spm, 0x060, 0, 1, 2, 21, .rw, 0⟩
/-- SPM_DBG_DATA.DATA (R135) -/
def SPM_DBG_DATA : Fld := ⟨.spm, 0x064, 0, 1, 0, 32, .rw, 0⟩
/-- MXU_CNT_ABFT.COUNT (R200) -/
def MXU_CNT_ABFT : Fld := ⟨.mxu, 0x020, 0, 1, 0, 32, .w1c, 0⟩
/-- MXU_CNT_OVERFLOW.COUNT (R200) -/
def MXU_CNT_OVERFLOW : Fld := ⟨.mxu, 0x024, 0, 1, 0, 32, .w1c, 0⟩
/-- MXU_CNT_STATE.COUNT (R200) -/
def MXU_CNT_STATE : Fld := ⟨.mxu, 0x028, 0, 1, 0, 32, .w1c, 0⟩
/-- CMP_CNT_RED_OVERFLOW.COUNT (R200) -/
def CMP_CNT_RED_OVERFLOW : Fld := ⟨.cmp, 0x020, 0, 1, 0, 32, .w1c, 0⟩
/-- CMP_CNT_DLT_OVERFLOW.COUNT (R200) -/
def CMP_CNT_DLT_OVERFLOW : Fld := ⟨.cmp, 0x024, 0, 1, 0, 32, .w1c, 0⟩
/-- MXU_CTRL.INJECT (R201) -/
def MXU_CTRL_INJECT : Fld := ⟨.mxu, 0x040, 0, 1, 0, 1, .wo, 0⟩
/-- MXU_CTRL.ABFT_DISABLE (R201) -/
def MXU_CTRL_ABFT_DISABLE : Fld := ⟨.mxu, 0x040, 0, 1, 1, 1, .rw, 0⟩
/-- MXU_CTRL.BURN_DUTY (R201) -/
def MXU_CTRL_BURN_DUTY : Fld := ⟨.mxu, 0x040, 0, 1, 8, 4, .rw, 0xF⟩
/-- MXU_ABFT_INFO.BLOCK (R201) -/
def MXU_ABFT_INFO_BLOCK : Fld := ⟨.mxu, 0x044, 0, 1, 0, 3, .ro, 0⟩
/-- MXU_ABFT_INFO.COLUMN (R201) -/
def MXU_ABFT_INFO_COLUMN : Fld := ⟨.mxu, 0x044, 0, 1, 3, 8, .ro, 0⟩
/-- MXU_ABFT_INFO.MODE (R201) -/
def MXU_ABFT_INFO_MODE : Fld := ⟨.mxu, 0x044, 0, 1, 11, 1, .ro, 0⟩
/-- MXU_ABFT_INFO.VALID (R201) -/
def MXU_ABFT_INFO_VALID : Fld := ⟨.mxu, 0x044, 0, 1, 12, 1, .ro, 0⟩
/-- MXU_ABFT_PC.PC (R201) -/
def MXU_ABFT_PC : Fld := ⟨.mxu, 0x048, 0, 1, 0, 32, .ro, 0⟩
/-- MXU_ACTIVE_LO.CYCLES (R201) -/
def MXU_ACTIVE_LO : Fld := ⟨.mxu, 0x04C, 0, 1, 0, 32, .ro, 0⟩
/-- MXU_ACTIVE_HI.CYCLES (R201) -/
def MXU_ACTIVE_HI : Fld := ⟨.mxu, 0x050, 0, 1, 0, 32, .ro, 0⟩
/-- MXU_BURN_LO.CYCLES (R201) -/
def MXU_BURN_LO : Fld := ⟨.mxu, 0x054, 0, 1, 0, 32, .ro, 0⟩
/-- MXU_BURN_HI.CYCLES (R201) -/
def MXU_BURN_HI : Fld := ⟨.mxu, 0x058, 0, 1, 0, 32, .ro, 0⟩
/-- CMP_BUSY_VXU.CYCLES (R202) -/
def CMP_BUSY_VXU : Fld := ⟨.cmp, 0x040, 0, 1, 0, 32, .ro, 0⟩
/-- CMP_BUSY_XFN.CYCLES (R202) -/
def CMP_BUSY_XFN : Fld := ⟨.cmp, 0x044, 0, 1, 0, 32, .ro, 0⟩
/-- CMP_BUSY_RED.CYCLES (R202) -/
def CMP_BUSY_RED : Fld := ⟨.cmp, 0x048, 0, 1, 0, 32, .ro, 0⟩
/-- CMP_BUSY_DLT.CYCLES (R202) -/
def CMP_BUSY_DLT : Fld := ⟨.cmp, 0x04C, 0, 1, 0, 32, .ro, 0⟩
/-- CMP_BUSY_SMP.CYCLES (R202) -/
def CMP_BUSY_SMP : Fld := ⟨.cmp, 0x050, 0, 1, 0, 32, .ro, 0⟩
/-- CMP_TOKENS.COUNT (R202) -/
def CMP_TOKENS : Fld := ⟨.cmp, 0x054, 0, 1, 0, 32, .ro, 0⟩
/-- SEA_CNT_CRC.COUNT (R223) -/
def SEA_CNT_CRC : Fld := ⟨.sea, 0x020, 0, 1, 0, 32, .w1c, 0⟩
/-- SEA_CNT_GEN.COUNT (R223) -/
def SEA_CNT_GEN : Fld := ⟨.sea, 0x024, 0, 1, 0, 32, .w1c, 0⟩
/-- SEA_CNT_FMT.COUNT (R223) -/
def SEA_CNT_FMT : Fld := ⟨.sea, 0x028, 0, 1, 0, 32, .w1c, 0⟩
/-- SEA_CNT_EPOCH.COUNT (R223) -/
def SEA_CNT_EPOCH : Fld := ⟨.sea, 0x02C, 0, 1, 0, 32, .w1c, 0⟩
/-- SEA_CNT_POISON.COUNT (R223) -/
def SEA_CNT_POISON : Fld := ⟨.sea, 0x030, 0, 1, 0, 32, .w1c, 0⟩
/-- SEA_CNT_PROPAGATE.COUNT (R223) -/
def SEA_CNT_PROPAGATE : Fld := ⟨.sea, 0x034, 0, 1, 0, 32, .w1c, 0⟩
/-- SEA_CTRL.INJECT (R224) -/
def SEA_CTRL : Fld := ⟨.sea, 0x040, 0, 1, 0, 1, .wo, 0⟩
/-- SEA_FAULT_INFO.ENGINE (R224) -/
def SEA_FAULT_INFO_ENGINE : Fld := ⟨.sea, 0x044, 0, 1, 0, 4, .ro, 0⟩
/-- SEA_FAULT_INFO.OPERAND (R224) -/
def SEA_FAULT_INFO_OPERAND : Fld := ⟨.sea, 0x044, 0, 1, 4, 2, .ro, 0⟩
/-- SEA_FAULT_INFO.SPACE (R224) -/
def SEA_FAULT_INFO_SPACE : Fld := ⟨.sea, 0x044, 0, 1, 6, 2, .ro, 0⟩
/-- SEA_FAULT_INFO.PARTIAL (R224) -/
def SEA_FAULT_INFO_PARTIAL : Fld := ⟨.sea, 0x044, 0, 1, 8, 1, .ro, 0⟩
/-- SEA_FAULT_INFO.VALID (R224) -/
def SEA_FAULT_INFO_VALID : Fld := ⟨.sea, 0x044, 0, 1, 9, 1, .ro, 0⟩
/-- SEA_FAULT_ADDR_LO.ADDR (R224) -/
def SEA_FAULT_ADDR_LO : Fld := ⟨.sea, 0x048, 0, 1, 0, 32, .ro, 0⟩
/-- SEA_FAULT_ADDR_HI.ADDR (R224) -/
def SEA_FAULT_ADDR_HI : Fld := ⟨.sea, 0x04C, 0, 1, 0, 32, .ro, 0⟩
/-- SEA_FAULT_SEAL_LO.SEAL (R224) -/
def SEA_FAULT_SEAL_LO : Fld := ⟨.sea, 0x050, 0, 1, 0, 32, .ro, 0⟩
/-- SEA_FAULT_SEAL_HI.SEAL (R224) -/
def SEA_FAULT_SEAL_HI : Fld := ⟨.sea, 0x054, 0, 1, 0, 32, .ro, 0⟩
/-- SEA_FAULT_EXPECT.GEN (R224) -/
def SEA_FAULT_EXPECT_GEN : Fld := ⟨.sea, 0x058, 0, 1, 0, 16, .ro, 0⟩
/-- SEA_FAULT_EXPECT.FMT (R224) -/
def SEA_FAULT_EXPECT_FMT : Fld := ⟨.sea, 0x058, 0, 1, 16, 4, .ro, 0⟩
/-- SEA_FAULT_EXPECT.SCALE (R224) -/
def SEA_FAULT_EXPECT_SCALE : Fld := ⟨.sea, 0x058, 0, 1, 20, 2, .ro, 0⟩
/-- SEA_FAULT_EXPECT.EPOCH (R224) -/
def SEA_FAULT_EXPECT_EPOCH : Fld := ⟨.sea, 0x058, 0, 1, 22, 8, .ro, 0⟩
/-- SEA_FAULT_PC.PC (R224) -/
def SEA_FAULT_PC : Fld := ⟨.sea, 0x05C, 0, 1, 0, 32, .ro, 0⟩
/-- SDG_DIGEST_LO.DIGEST (R225) -/
def SDG_DIGEST_LO : Fld := ⟨.sdg, 0x100, 8, 64, 0, 32, .ro, 0⟩
/-- SDG_DIGEST_HI.DIGEST (R225) -/
def SDG_DIGEST_HI : Fld := ⟨.sdg, 0x104, 8, 64, 0, 32, .ro, 0⟩
/-- HBM_CNT_CORR.COUNT (R249) -/
def HBM_CNT_CORR : Fld := ⟨.hbm, 0x020, 0, 1, 0, 32, .w1c, 0⟩
/-- HBM_CNT_UNCORR_READ.COUNT (R249) -/
def HBM_CNT_UNCORR_READ : Fld := ⟨.hbm, 0x024, 0, 1, 0, 32, .w1c, 0⟩
/-- HBM_CNT_UNCORR_SCRUB.COUNT (R249) -/
def HBM_CNT_UNCORR_SCRUB : Fld := ⟨.hbm, 0x028, 0, 1, 0, 32, .w1c, 0⟩
/-- DMA_CNT_HOST_DROP.COUNT (R249) -/
def DMA_CNT_HOST_DROP : Fld := ⟨.dma, 0x020, 0, 1, 0, 32, .w1c, 0⟩
/-- DMA_CNT_HOST_ERR.COUNT (R249) -/
def DMA_CNT_HOST_ERR : Fld := ⟨.dma, 0x024, 0, 1, 0, 32, .w1c, 0⟩
/-- HBM_STATUS.TRAINED (R250) -/
def HBM_STATUS_TRAINED : Fld := ⟨.hbm, 0x040, 0, 1, 0, 1, .ro, 0⟩
/-- HBM_STATUS.FAILED (R250) -/
def HBM_STATUS_FAILED : Fld := ⟨.hbm, 0x040, 0, 1, 1, 1, .ro, 0⟩
/-- HBM_STATUS.SELF_REFRESH (R250) -/
def HBM_STATUS_SELF_REFRESH : Fld := ⟨.hbm, 0x040, 0, 1, 2, 1, .ro, 0⟩
/-- HBM_CTRL.SCRUB_EN (R250) -/
def HBM_CTRL_SCRUB_EN : Fld := ⟨.hbm, 0x044, 0, 1, 0, 1, .rw, 1⟩
/-- HBM_CTRL.SCRUB_HOURS (R250) -/
def HBM_CTRL_SCRUB_HOURS : Fld := ⟨.hbm, 0x044, 0, 1, 8, 8, .rw, 0x18⟩
/-- HBM_ECC_INFO.UNIT (R250) -/
def HBM_ECC_INFO_UNIT : Fld := ⟨.hbm, 0x048, 0, 1, 0, 6, .ro, 0⟩
/-- DDR_ECC_INFO.UNIT (R250) -/
def DDR_ECC_INFO_UNIT : Fld := ⟨.ddr, 0x060, 0, 1, 0, 6, .ro, 0⟩
/-- HBM_ECC_INFO.SCRUB (R250) -/
def HBM_ECC_INFO_SCRUB : Fld := ⟨.hbm, 0x048, 0, 1, 6, 1, .ro, 0⟩
/-- DDR_ECC_INFO.SCRUB (R250) -/
def DDR_ECC_INFO_SCRUB : Fld := ⟨.ddr, 0x060, 0, 1, 6, 1, .ro, 0⟩
/-- HBM_ECC_INFO.VALID (R250) -/
def HBM_ECC_INFO_VALID : Fld := ⟨.hbm, 0x048, 0, 1, 7, 1, .ro, 0⟩
/-- DDR_ECC_INFO.VALID (R250) -/
def DDR_ECC_INFO_VALID : Fld := ⟨.ddr, 0x060, 0, 1, 7, 1, .ro, 0⟩
/-- HBM_ECC_ADDR_LO.ADDR (R250) -/
def HBM_ECC_ADDR_LO : Fld := ⟨.hbm, 0x04C, 0, 1, 0, 32, .ro, 0⟩
/-- HBM_ECC_ADDR_HI.ADDR (R250) -/
def HBM_ECC_ADDR_HI : Fld := ⟨.hbm, 0x050, 0, 1, 0, 32, .ro, 0⟩
/-- DDR_STATUS.PRESENT (R251) -/
def DDR_STATUS_PRESENT : Fld := ⟨.ddr, 0x040, 0, 1, 0, 1, .ro, 0⟩
/-- DDR_STATUS.TRAINED (R251) -/
def DDR_STATUS_TRAINED : Fld := ⟨.ddr, 0x040, 0, 1, 1, 1, .ro, 0⟩
/-- DDR_STATUS.FAILED (R251) -/
def DDR_STATUS_FAILED : Fld := ⟨.ddr, 0x040, 0, 1, 2, 1, .ro, 0⟩
/-- DDR_STATUS.MRDIMM (R251) -/
def DDR_STATUS_MRDIMM : Fld := ⟨.ddr, 0x040, 0, 1, 3, 1, .ro, 0⟩
/-- DDR_STATUS.TIER_READY (R251) -/
def DDR_STATUS_TIER_READY : Fld := ⟨.ddr, 0x040, 0, 1, 4, 1, .ro, 0⟩
/-- DDR_STATUS.RATE (R251) -/
def DDR_STATUS_RATE : Fld := ⟨.ddr, 0x040, 0, 1, 8, 8, .ro, 0⟩
/-- DDR_STATUS.SIZE (R251) -/
def DDR_STATUS_SIZE : Fld := ⟨.ddr, 0x040, 0, 1, 16, 8, .ro, 0⟩
/-- DDR_CFG.EIGHT (R251) -/
def DDR_CFG_EIGHT : Fld := ⟨.ddr, 0x048, 0, 1, 0, 1, .nv, 1⟩
/-- DDR_CFG.MAX_RATE (R251) -/
def DDR_CFG_MAX_RATE : Fld := ⟨.ddr, 0x048, 0, 1, 8, 8, .nv, 0x58⟩
/-- DDR_CTRL.RETRAIN (R251) -/
def DDR_CTRL : Fld := ⟨.ddr, 0x04C, 0, 1, 0, 1, .wo, 0⟩
/-- DDR_CAPACITY_LO.BYTES (R251) -/
def DDR_CAPACITY_LO : Fld := ⟨.ddr, 0x050, 0, 1, 0, 32, .ro, 0⟩
/-- DDR_CAPACITY_HI.BYTES (R251) -/
def DDR_CAPACITY_HI : Fld := ⟨.ddr, 0x054, 0, 1, 0, 32, .ro, 0⟩
/-- LNK_CNT_FEC_CORR.COUNT (R297) -/
def LNK_CNT_FEC_CORR : Fld := ⟨.lnk, 0x020, 0, 1, 0, 32, .w1c, 0⟩
/-- LNK_CNT_FEC_UNCORR.COUNT (R297) -/
def LNK_CNT_FEC_UNCORR : Fld := ⟨.lnk, 0x024, 0, 1, 0, 32, .w1c, 0⟩
/-- LNK_CNT_CRC.COUNT (R297) -/
def LNK_CNT_CRC : Fld := ⟨.lnk, 0x028, 0, 1, 0, 32, .w1c, 0⟩
/-- LNK_CNT_REPLAY.COUNT (R297) -/
def LNK_CNT_REPLAY : Fld := ⟨.lnk, 0x02C, 0, 1, 0, 32, .w1c, 0⟩
/-- LNK_CNT_OVERRUN.COUNT (R297) -/
def LNK_CNT_OVERRUN : Fld := ⟨.lnk, 0x030, 0, 1, 0, 32, .w1c, 0⟩
/-- LNK_CNT_REDEAL.COUNT (R297) -/
def LNK_CNT_REDEAL : Fld := ⟨.lnk, 0x034, 0, 1, 0, 32, .w1c, 0⟩
/-- LNK_CNT_DISCARD.COUNT (R297) -/
def LNK_CNT_DISCARD : Fld := ⟨.lnk, 0x038, 0, 1, 0, 32, .w1c, 0⟩
/-- LNK_CNT_STALE.COUNT (R297) -/
def LNK_CNT_STALE : Fld := ⟨.lnk, 0x03C, 0, 1, 0, 32, .w1c, 0⟩
/-- LNK_STATUS.STATE (R298) -/
def LNK_STATUS_STATE : Fld := ⟨.lnk, 0x040, 0, 1, 0, 4, .ro, 0⟩
/-- LNK_STATUS.LANES (R298) -/
def LNK_STATUS_LANES : Fld := ⟨.lnk, 0x040, 0, 1, 4, 4, .ro, 0⟩
/-- LNK_STATUS.RATE (R298) -/
def LNK_STATUS_RATE : Fld := ⟨.lnk, 0x040, 0, 1, 8, 2, .ro, 0⟩
/-- LNK_STATUS.PEER_DDOWN (R298) -/
def LNK_STATUS_PEER_DDOWN : Fld := ⟨.lnk, 0x040, 0, 1, 10, 1, .ro, 0⟩
/-- LNK_STATUS.NAK (R298) -/
def LNK_STATUS_NAK : Fld := ⟨.lnk, 0x040, 0, 1, 11, 1, .ro, 0⟩
/-- LNK_CTRL.REDEAL (R298) -/
def LNK_CTRL_REDEAL : Fld := ⟨.lnk, 0x044, 0, 1, 0, 1, .wo, 0⟩
/-- LNK_CTRL.TRAIN (R298) -/
def LNK_CTRL_TRAIN : Fld := ⟨.lnk, 0x044, 0, 1, 1, 1, .wo, 0⟩
/-- LNK_CTRL.BIN_CLEAR (R298) -/
def LNK_CTRL_BIN_CLEAR : Fld := ⟨.lnk, 0x044, 0, 1, 2, 1, .wo, 0⟩
/-- LNK_CFG.MAX_RATE (R298) -/
def LNK_CFG_MAX_RATE : Fld := ⟨.lnk, 0x048, 0, 1, 0, 2, .nv, 0⟩
/-- LNK_CFG.LANE_MASK (R298) -/
def LNK_CFG_LANE_MASK : Fld := ⟨.lnk, 0x048, 0, 1, 4, 4, .nv, 0xF⟩
/-- LNK_CFG.ACK_TIMEOUT (R298) -/
def LNK_CFG_ACK_TIMEOUT : Fld := ⟨.lnk, 0x048, 0, 1, 8, 8, .rw, 0x1E⟩
/-- LNK_CFG.OVR_BACKOFF (R298) -/
def LNK_CFG_OVR_BACKOFF : Fld := ⟨.lnk, 0x048, 0, 1, 16, 8, .rw, 0x20⟩
/-- LNK_TRAIN_MAX_ERR.MAX_ERR (R298) -/
def LNK_TRAIN_MAX_ERR : Fld := ⟨.lnk, 0x04C, 0, 1, 0, 32, .rw, 0x2710⟩
/-- LNK_RTT.RTT (R298) -/
def LNK_RTT : Fld := ⟨.lnk, 0x050, 0, 1, 0, 16, .ro, 0⟩
/-- LNK_PEER.CHIP_ID (R298) -/
def LNK_PEER_CHIP_ID : Fld := ⟨.lnk, 0x054, 0, 1, 0, 16, .ro, 0⟩
/-- LNK_PEER.PORT (R298) -/
def LNK_PEER_PORT : Fld := ⟨.lnk, 0x054, 0, 1, 16, 4, .ro, 0⟩
/-- LNK_PEER.VALID (R298) -/
def LNK_PEER_VALID : Fld := ⟨.lnk, 0x054, 0, 1, 20, 1, .ro, 0⟩
/-- LNK_SEQ.TX_NEXT (R298) -/
def LNK_SEQ_TX_NEXT : Fld := ⟨.lnk, 0x058, 0, 1, 0, 16, .ro, 0⟩
/-- LNK_SEQ.RX_LAST (R298) -/
def LNK_SEQ_RX_LAST : Fld := ⟨.lnk, 0x058, 0, 1, 16, 16, .ro, 0xFFFF⟩
/-- LNK_REDEAL_INFO.CAUSE (R298) -/
def LNK_REDEAL_INFO_CAUSE : Fld := ⟨.lnk, 0x05C, 0, 1, 0, 4, .ro, 0⟩
/-- LNK_REDEAL_INFO.FAILED (R298) -/
def LNK_REDEAL_INFO_FAILED : Fld := ⟨.lnk, 0x05C, 0, 1, 4, 1, .ro, 0⟩
/-- LNK_REDEAL_INFO.SEQ (R298) -/
def LNK_REDEAL_INFO_SEQ : Fld := ⟨.lnk, 0x05C, 0, 1, 16, 16, .ro, 0⟩
/-- LNK_LANE_CORR.COUNT (R299) -/
def LNK_LANE_CORR : Fld := ⟨.lnk, 0x060, 4, 4, 0, 32, .w1c, 0⟩
/-- LNK_DISCARD_INFO.CORE (R299) -/
def LNK_DISCARD_INFO_CORE : Fld := ⟨.lnk, 0x070, 0, 1, 0, 8, .ro, 0⟩
/-- LNK_DISCARD_INFO.WINDOW (R299) -/
def LNK_DISCARD_INFO_WINDOW : Fld := ⟨.lnk, 0x070, 0, 1, 8, 6, .ro, 0⟩
/-- LNK_DISCARD_INFO.REASON (R299) -/
def LNK_DISCARD_INFO_REASON : Fld := ⟨.lnk, 0x070, 0, 1, 14, 3, .ro, 0⟩
/-- LNK_DISCARD_INFO.VALID (R299) -/
def LNK_DISCARD_INFO_VALID : Fld := ⟨.lnk, 0x070, 0, 1, 17, 1, .ro, 0⟩
/-- LNK_BIN_STATUS.COUNT (R299) -/
def LNK_BIN_STATUS_COUNT : Fld := ⟨.lnk, 0x074, 0, 1, 0, 6, .ro, 0⟩
/-- LNK_BIN_STATUS.FULL (R299) -/
def LNK_BIN_STATUS_FULL : Fld := ⟨.lnk, 0x074, 0, 1, 6, 1, .ro, 0⟩
/-- LNK_BIN_ADDR.WORD (R299) -/
def LNK_BIN_ADDR : Fld := ⟨.lnk, 0x078, 0, 1, 2, 12, .rw, 0⟩
/-- LNK_BIN_DATA.DATA (R299) -/
def LNK_BIN_DATA : Fld := ⟨.lnk, 0x07C, 0, 1, 0, 32, .ro, 0⟩
/-- LNK_WHEEL.FLOW (R300) -/
def LNK_WHEEL_FLOW : Fld := ⟨.lnk, 0x100, 4, 64, 0, 6, .rw, 0⟩
/-- LNK_WHEEL.VALID (R300) -/
def LNK_WHEEL_VALID : Fld := ⟨.lnk, 0x100, 4, 64, 6, 1, .rw, 0⟩
/-- RTE_ADDR.INDEX (R301) -/
def RTE_ADDR : Fld := ⟨.rte, 0x040, 0, 1, 0, 12, .rw, 0⟩
/-- RTE_DATA_LO.DATA (R301) -/
def RTE_DATA_LO : Fld := ⟨.rte, 0x044, 0, 1, 0, 32, .rw, 0⟩
/-- RTE_DATA_HI.DATA (R301) -/
def RTE_DATA_HI : Fld := ⟨.rte, 0x048, 0, 1, 0, 32, .rw, 0⟩
/-- RTE_STATUS.LOCKED (R301) -/
def RTE_STATUS : Fld := ⟨.rte, 0x04C, 0, 1, 0, 1, .ro, 0⟩
/-- TIM_CNT_STEP.COUNT (R326) -/
def TIM_CNT_STEP : Fld := ⟨.tim, 0x020, 0, 1, 0, 32, .w1c, 0⟩
/-- TIM_CNT_HOLDOVER.COUNT (R326) -/
def TIM_CNT_HOLDOVER : Fld := ⟨.tim, 0x024, 0, 1, 0, 32, .w1c, 0⟩
/-- TIM_CNT_SWITCH.COUNT (R326) -/
def TIM_CNT_SWITCH : Fld := ⟨.tim, 0x028, 0, 1, 0, 32, .w1c, 0⟩
/-- TRK_CNT_LATE.COUNT (R326) -/
def TRK_CNT_LATE : Fld := ⟨.trk, 0x020, 0, 1, 0, 32, .w1c, 0⟩
/-- TRK_CNT_ABORT.COUNT (R326) -/
def TRK_CNT_ABORT : Fld := ⟨.trk, 0x024, 0, 1, 0, 32, .w1c, 0⟩
/-- TRK_CNT_BAD.COUNT (R326) -/
def TRK_CNT_BAD : Fld := ⟨.trk, 0x028, 0, 1, 0, 32, .w1c, 0⟩
/-- TIM_STATUS.STATE (R327) -/
def TIM_STATUS_STATE : Fld := ⟨.tim, 0x040, 0, 1, 0, 3, .ro, 0⟩
/-- TIM_STATUS.ALT (R327) -/
def TIM_STATUS_ALT : Fld := ⟨.tim, 0x040, 0, 1, 3, 1, .ro, 0⟩
/-- TIM_STATUS.PORT (R327) -/
def TIM_STATUS_PORT : Fld := ⟨.tim, 0x040, 0, 1, 4, 4, .ro, 0⟩
/-- TIM_STATUS.STRATUM (R327) -/
def TIM_STATUS_STRATUM : Fld := ⟨.tim, 0x040, 0, 1, 8, 8, .ro, 0xFF⟩
/-- TIM_STATUS.STEPPED (R327) -/
def TIM_STATUS_STEPPED : Fld := ⟨.tim, 0x040, 0, 1, 16, 1, .w1c, 0⟩
/-- TIM_STATUS.HOLDOVER_SEEN (R327) -/
def TIM_STATUS_HOLDOVER_SEEN : Fld := ⟨.tim, 0x040, 0, 1, 17, 1, .w1c, 0⟩
/-- TIM_STATUS.PPS_LOST (R327) -/
def TIM_STATUS_PPS_LOST : Fld := ⟨.tim, 0x040, 0, 1, 18, 1, .w1c, 0⟩
/-- TIM_STATUS.STEP_PENDING (R327) -/
def TIM_STATUS_STEP_PENDING : Fld := ⟨.tim, 0x040, 0, 1, 19, 1, .ro, 0⟩
/-- TIM_CFG.ROOT (R327) -/
def TIM_CFG_ROOT : Fld := ⟨.tim, 0x044, 0, 1, 0, 1, .nv, 0⟩
/-- TIM_CFG.EXT_EN (R327) -/
def TIM_CFG_EXT_EN : Fld := ⟨.tim, 0x044, 0, 1, 1, 1, .nv, 0⟩
/-- TIM_CFG.PARENT (R327) -/
def TIM_CFG_PARENT : Fld := ⟨.tim, 0x044, 0, 1, 4, 4, .nv, 0⟩
/-- TIM_CFG.PARENT_VALID (R327) -/
def TIM_CFG_PARENT_VALID : Fld := ⟨.tim, 0x044, 0, 1, 8, 1, .nv, 0⟩
/-- TIM_CFG.ALT_PORT (R327) -/
def TIM_CFG_ALT_PORT : Fld := ⟨.tim, 0x044, 0, 1, 12, 4, .nv, 0⟩
/-- TIM_CFG.ALT_VALID (R327) -/
def TIM_CFG_ALT_VALID : Fld := ⟨.tim, 0x044, 0, 1, 16, 1, .nv, 0⟩
/-- TIM_CFG.INTERVAL (R327) -/
def TIM_CFG_INTERVAL : Fld := ⟨.tim, 0x044, 0, 1, 20, 8, .rw, 0xA⟩
/-- TIM_LIMITS.STEP_NS (R327) -/
def TIM_LIMITS_STEP_NS : Fld := ⟨.tim, 0x048, 0, 1, 0, 16, .rw, 0x3E8⟩
/-- TIM_LIMITS.SLEW_PPM (R327) -/
def TIM_LIMITS_SLEW_PPM : Fld := ⟨.tim, 0x048, 0, 1, 16, 8, .rw, 0x32⟩
/-- TIM_LIMITS.LOCK_NS (R327) -/
def TIM_LIMITS_LOCK_NS : Fld := ⟨.tim, 0x048, 0, 1, 24, 8, .rw, 3⟩
/-- TIM_NOW_LO.TIME (R327) -/
def TIM_NOW_LO : Fld := ⟨.tim, 0x04C, 0, 1, 0, 32, .ro, 0⟩
/-- TIM_NOW_HI.TIME (R327) -/
def TIM_NOW_HI : Fld := ⟨.tim, 0x050, 0, 1, 0, 32, .ro, 0⟩
/-- TIM_SET_LO.TIME (R327) -/
def TIM_SET_LO : Fld := ⟨.tim, 0x054, 0, 1, 0, 32, .rw, 0⟩
/-- TIM_SET_HI.TIME (R327) -/
def TIM_SET_HI : Fld := ⟨.tim, 0x058, 0, 1, 0, 32, .rw, 0⟩
/-- TIM_CTRL.STEP (R327) -/
def TIM_CTRL_STEP : Fld := ⟨.tim, 0x05C, 0, 1, 0, 1, .wo, 0⟩
/-- TIM_CTRL.RELOCK (R327) -/
def TIM_CTRL_RELOCK : Fld := ⟨.tim, 0x05C, 0, 1, 1, 1, .wo, 0⟩
/-- TIM_OFFSET.OFFSET (R327) -/
def TIM_OFFSET : Fld := ⟨.tim, 0x060, 0, 1, 0, 32, .ro, 0⟩
/-- TIM_ASYM.ASYM (R327) -/
def TIM_ASYM : Fld := ⟨.tim, 0x080, 4, 16, 0, 16, .nv, 0⟩
/-- TRK_DUMMY.STEP (R328) -/
def TRK_DUMMY_STEP : Fld := ⟨.trk, 0x040, 0, 1, 0, 8, .rw, 0xA⟩
/-- TRK_DUMMY.MAX (R328) -/
def TRK_DUMMY_MAX : Fld := ⟨.trk, 0x040, 0, 1, 8, 16, .rw, 0x3E8⟩
/-- TRK_DUMMY.EN (R328) -/
def TRK_DUMMY_EN : Fld := ⟨.trk, 0x040, 0, 1, 24, 1, .rw, 1⟩
/-- TRK_TREE.PARENT (R328) -/
def TRK_TREE_PARENT : Fld := ⟨.trk, 0x100, 4, 64, 0, 4, .rw, 0⟩
/-- TRK_TREE.PARENT_VALID (R328) -/
def TRK_TREE_PARENT_VALID : Fld := ⟨.trk, 0x100, 4, 64, 4, 1, .rw, 0⟩
/-- TRK_TREE.MARGIN (R328) -/
def TRK_TREE_MARGIN : Fld := ⟨.trk, 0x100, 4, 64, 8, 8, .rw, 0⟩
/-- TRK_TREE.CHILDREN (R328) -/
def TRK_TREE_CHILDREN : Fld := ⟨.trk, 0x100, 4, 64, 16, 16, .rw, 0⟩
/-- TRK_STATE.SERIAL (R328) -/
def TRK_STATE_SERIAL : Fld := ⟨.trk, 0x200, 4, 64, 0, 16, .ro, 0⟩
/-- TRK_STATE.TRICK (R328) -/
def TRK_STATE_TRICK : Fld := ⟨.trk, 0x200, 4, 64, 16, 8, .ro, 0⟩
/-- TRK_STATE.STATE (R328) -/
def TRK_STATE_STATE : Fld := ⟨.trk, 0x200, 4, 64, 24, 3, .ro, 0⟩
/-- TRK_STATE.ROOT (R328) -/
def TRK_STATE_ROOT : Fld := ⟨.trk, 0x200, 4, 64, 27, 1, .ro, 0⟩
/-- CLK_STATUS.FREQ (R329) -/
def CLK_STATUS_FREQ : Fld := ⟨.clk, 0x040, 0, 1, 0, 5, .ro, 0x1C⟩
/-- CLK_STATUS.TARGET (R329) -/
def CLK_STATUS_TARGET : Fld := ⟨.clk, 0x040, 0, 1, 5, 5, .ro, 0x1C⟩
/-- CLK_STATUS.PLL (R329) -/
def CLK_STATUS_PLL : Fld := ⟨.clk, 0x040, 0, 1, 10, 1, .ro, 0⟩
/-- CLK_STATUS.RETUNING (R329) -/
def CLK_STATUS_RETUNING : Fld := ⟨.clk, 0x040, 0, 1, 11, 1, .ro, 0⟩
/-- CLK_STATUS.LOCAL (R329) -/
def CLK_STATUS_LOCAL : Fld := ⟨.clk, 0x040, 0, 1, 12, 1, .ro, 1⟩
/-- CLK_SWITCHES.COUNT (R329) -/
def CLK_SWITCHES : Fld := ⟨.clk, 0x044, 0, 1, 0, 32, .ro, 0⟩
/-- CLK_MAX_STOP.CYCLES (R329) -/
def CLK_MAX_STOP : Fld := ⟨.clk, 0x048, 0, 1, 0, 5, .ro, 0⟩
/-- XPK_CNT_COMPARE.COUNT (R351) -/
def XPK_CNT_COMPARE : Fld := ⟨.xpk, 0x020, 0, 1, 0, 32, .w1c, 0⟩
/-- XPK_CNT_MISMATCH.COUNT (R351) -/
def XPK_CNT_MISMATCH : Fld := ⟨.xpk, 0x024, 0, 1, 0, 32, .w1c, 0⟩
/-- XPK_CNT_BAD.COUNT (R351) -/
def XPK_CNT_BAD : Fld := ⟨.xpk, 0x028, 0, 1, 0, 32, .w1c, 0⟩
/-- XPK_CHIP.CHIP_ID (R352) -/
def XPK_CHIP : Fld := ⟨.xpk, 0x040, 0, 1, 0, 16, .rw, 0⟩
/-- XPK_LOAD.STATE (R352) -/
def XPK_LOAD_STATE : Fld := ⟨.xpk, 0x044, 0, 1, 0, 2, .ro, 0⟩
/-- XPK_LOAD.ABORT_HELD (R352) -/
def XPK_LOAD_ABORT_HELD : Fld := ⟨.xpk, 0x044, 0, 1, 2, 1, .ro, 0⟩
/-- XPK_LOAD.ORIGIN (R352) -/
def XPK_LOAD_ORIGIN : Fld := ⟨.xpk, 0x044, 0, 1, 16, 16, .ro, 0⟩
/-- XPK_LOAD_CODE.CODE (R352) -/
def XPK_LOAD_CODE : Fld := ⟨.xpk, 0x048, 0, 1, 0, 16, .ro, 0⟩
/-- XPK_VOTED_LO.GROUPS (R352) -/
def XPK_VOTED_LO : Fld := ⟨.xpk, 0x04C, 0, 1, 0, 32, .ro, 0⟩
/-- XPK_VOTED_HI.GROUPS (R352) -/
def XPK_VOTED_HI : Fld := ⟨.xpk, 0x050, 0, 1, 0, 32, .ro, 0⟩
/-- XPK_CTRL.CLEAR (R352) -/
def XPK_CTRL_CLEAR : Fld := ⟨.xpk, 0x054, 0, 1, 0, 1, .wo, 0⟩
/-- XPK_CTRL.SEARCH (R352) -/
def XPK_CTRL_SEARCH : Fld := ⟨.xpk, 0x054, 0, 1, 1, 1, .wo, 0⟩
/-- XPK_CTRL.RESUME (R352) -/
def XPK_CTRL_RESUME : Fld := ⟨.xpk, 0x054, 0, 1, 2, 1, .wo, 0⟩
/-- XPK_PCFG.EN (R352) -/
def XPK_PCFG_EN : Fld := ⟨.xpk, 0x058, 0, 1, 0, 1, .rw, 0⟩
/-- XPK_PCFG.PORT (R352) -/
def XPK_PCFG_PORT : Fld := ⟨.xpk, 0x058, 0, 1, 1, 4, .rw, 0⟩
/-- XPK_PSTATUS.STATE (R352) -/
def XPK_PSTATUS_STATE : Fld := ⟨.xpk, 0x05C, 0, 1, 0, 3, .ro, 0⟩
/-- XPK_PSTATUS.GROUP (R352) -/
def XPK_PSTATUS_GROUP : Fld := ⟨.xpk, 0x05C, 0, 1, 8, 6, .ro, 0⟩
/-- XPK_DIV_WHERE.CORE (R352) -/
def XPK_DIV_WHERE_CORE : Fld := ⟨.xpk, 0x060, 0, 1, 0, 8, .ro, 0⟩
/-- XPK_DIV_WHERE.ENGINE (R352) -/
def XPK_DIV_WHERE_ENGINE : Fld := ⟨.xpk, 0x060, 0, 1, 8, 4, .ro, 0⟩
/-- XPK_DIV_WHERE.VALID (R352) -/
def XPK_DIV_WHERE_VALID : Fld := ⟨.xpk, 0x060, 0, 1, 12, 1, .ro, 0⟩
/-- XPK_DIV_INDEX.INDEX (R352) -/
def XPK_DIV_INDEX : Fld := ⟨.xpk, 0x064, 0, 1, 0, 32, .ro, 0⟩
/-- XPK_DIV_PC.PC (R352) -/
def XPK_DIV_PC : Fld := ⟨.xpk, 0x068, 0, 1, 0, 32, .ro, 0⟩
/-- XPK_DIV_HAND.HAND_ID (R352) -/
def XPK_DIV_HAND : Fld := ⟨.xpk, 0x06C, 0, 1, 0, 32, .ro, 0⟩
/-- XPK_DIV_DEAL.DEAL (R352) -/
def XPK_DIV_DEAL : Fld := ⟨.xpk, 0x070, 0, 1, 0, 32, .ro, 0⟩
/-- XPK_MINE_LO.VALUE (R352) -/
def XPK_MINE_LO : Fld := ⟨.xpk, 0x074, 0, 1, 0, 32, .ro, 0⟩
/-- XPK_MINE_HI.VALUE (R352) -/
def XPK_MINE_HI : Fld := ⟨.xpk, 0x078, 0, 1, 0, 32, .ro, 0⟩
/-- XPK_THEIRS_LO.VALUE (R352) -/
def XPK_THEIRS_LO : Fld := ⟨.xpk, 0x07C, 0, 1, 0, 32, .ro, 0⟩
/-- XPK_THEIRS_HI.VALUE (R352) -/
def XPK_THEIRS_HI : Fld := ⟨.xpk, 0x080, 0, 1, 0, 32, .ro, 0⟩
/-- WSL_CNT_CUT.COUNT (R379) -/
def WSL_CNT_CUT : Fld := ⟨.wsl, 0x020, 0, 1, 0, 32, .w1c, 0⟩
/-- WSL_CNT_STAGE.COUNT (R379) -/
def WSL_CNT_STAGE : Fld := ⟨.wsl, 0x024, 0, 1, 0, 32, .w1c, 0⟩
/-- WSL_CNT_CONVERT.COUNT (R379) -/
def WSL_CNT_CONVERT : Fld := ⟨.wsl, 0x028, 0, 1, 0, 32, .w1c, 0⟩
/-- WSL_CMD.OP (R379) -/
def WSL_CMD_OP : Fld := ⟨.wsl, 0x040, 0, 1, 0, 4, .wo, 0⟩
/-- WSL_CMD.PAIR (R379) -/
def WSL_CMD_PAIR : Fld := ⟨.wsl, 0x040, 0, 1, 4, 5, .wo, 0⟩
/-- WSL_CMD_EPOCH.EPOCH (R379) -/
def WSL_CMD_EPOCH : Fld := ⟨.wsl, 0x044, 0, 1, 0, 32, .rw, 0⟩
/-- WSL_CMD_STATUS.STATE (R379) -/
def WSL_CMD_STATUS_STATE : Fld := ⟨.wsl, 0x048, 0, 1, 0, 2, .ro, 0⟩
/-- WSL_CMD_STATUS.REASON (R379) -/
def WSL_CMD_STATUS_REASON : Fld := ⟨.wsl, 0x048, 0, 1, 4, 4, .ro, 0⟩
/-- WSL_RECORD_BASE_LO.VALID (R379) -/
def WSL_RECORD_BASE_LO_VALID : Fld := ⟨.wsl, 0x04C, 0, 1, 0, 1, .rw, 0⟩
/-- WSL_RECORD_BASE_LO.ADDR (R379) -/
def WSL_RECORD_BASE_LO_ADDR : Fld := ⟨.wsl, 0x04C, 0, 1, 12, 20, .rw, 0⟩
/-- WSL_RECORD_BASE_HI.ADDR (R379) -/
def WSL_RECORD_BASE_HI : Fld := ⟨.wsl, 0x050, 0, 1, 0, 32, .rw, 0⟩
/-- WSL_CONVERT.FUNCS (R379) -/
def WSL_CONVERT : Fld := ⟨.wsl, 0x054, 0, 1, 0, 16, .rw, 0⟩
/-- WSL_PAIR_CFG.AUTO (R379) -/
def WSL_PAIR_CFG : Fld := ⟨.wsl, 0x100, 4, 32, 0, 1, .rw, 0⟩
/-- WSL_SLOT_EPOCH.EPOCH (R379) -/
def WSL_SLOT_EPOCH : Fld := ⟨.wsl, 0x200, 4, 64, 0, 32, .ro, 0⟩
/-- WSL_SLOT_STATE.STATE (R379) -/
def WSL_SLOT_STATE_STATE : Fld := ⟨.wsl, 0x300, 4, 64, 0, 3, .ro, 0⟩
/-- WSL_SLOT_STATE.SEAT (R379) -/
def WSL_SLOT_STATE_SEAT : Fld := ⟨.wsl, 0x300, 4, 64, 3, 1, .ro, 0⟩
/-- WSL_SLOT_STATE.REFS (R379) -/
def WSL_SLOT_STATE_REFS : Fld := ⟨.wsl, 0x300, 4, 64, 16, 16, .ro, 0⟩
/-- DPL_CNT_ENLIST.COUNT (R380) -/
def DPL_CNT_ENLIST : Fld := ⟨.dpl, 0x020, 0, 1, 0, 32, .w1c, 0⟩
/-- DPL_CNT_FREED.COUNT (R380) -/
def DPL_CNT_FREED : Fld := ⟨.dpl, 0x024, 0, 1, 0, 32, .w1c, 0⟩
/-- DPL_CFG.SEATS (R380) -/
def DPL_CFG_SEATS : Fld := ⟨.dpl, 0x040, 0, 1, 0, 13, .rw, 0⟩
/-- DPL_CFG.PAIR (R380) -/
def DPL_CFG_PAIR : Fld := ⟨.dpl, 0x040, 0, 1, 13, 5, .rw, 0⟩
/-- DPL_SEAT_TILES.TILES (R380) -/
def DPL_SEAT_TILES : Fld := ⟨.dpl, 0x044, 0, 1, 0, 24, .rw, 0⟩
/-- DPL_CMD.OP (R380) -/
def DPL_CMD_OP : Fld := ⟨.dpl, 0x048, 0, 1, 0, 4, .wo, 0⟩
/-- DPL_CMD.SEAT (R380) -/
def DPL_CMD_SEAT : Fld := ⟨.dpl, 0x048, 0, 1, 4, 12, .wo, 0⟩
/-- DPL_CMD_ID.ID (R380) -/
def DPL_CMD_ID : Fld := ⟨.dpl, 0x04C, 0, 1, 0, 32, .rw, 0⟩
/-- DPL_CMD_STATUS.STATE (R380) -/
def DPL_CMD_STATUS_STATE : Fld := ⟨.dpl, 0x050, 0, 1, 0, 2, .ro, 0⟩
/-- DPL_CMD_STATUS.REASON (R380) -/
def DPL_CMD_STATUS_REASON : Fld := ⟨.dpl, 0x050, 0, 1, 4, 4, .ro, 0⟩
/-- DPL_CMD_STATUS.VERSION (R380) -/
def DPL_CMD_STATUS_VERSION : Fld := ⟨.dpl, 0x050, 0, 1, 16, 16, .ro, 0⟩
/-- DPL_SEAT_SEL.SEAT (R380) -/
def DPL_SEAT_SEL : Fld := ⟨.dpl, 0x054, 0, 1, 0, 12, .rw, 0⟩
/-- DPL_SEAT_INFO.STATE (R380) -/
def DPL_SEAT_INFO_STATE : Fld := ⟨.dpl, 0x058, 0, 1, 0, 3, .ro, 0⟩
/-- DPL_SEAT_INFO.VERSION (R380) -/
def DPL_SEAT_INFO_VERSION : Fld := ⟨.dpl, 0x058, 0, 1, 16, 16, .ro, 0⟩
/-- DPL_SEAT_ID.ID (R380) -/
def DPL_SEAT_ID : Fld := ⟨.dpl, 0x05C, 0, 1, 0, 32, .ro, 0⟩
/-- DPL_SEAT_REFS.REFS (R380) -/
def DPL_SEAT_REFS : Fld := ⟨.dpl, 0x060, 0, 1, 0, 32, .ro, 0⟩
/-- DPL_PART_LO.VALID (R380) -/
def DPL_PART_LO_VALID : Fld := ⟨.dpl, 0x100, 8, 16, 0, 1, .rw, 0⟩
/-- DPL_PART_LO.ADDR (R380) -/
def DPL_PART_LO_ADDR : Fld := ⟨.dpl, 0x100, 8, 16, 12, 20, .rw, 0⟩
/-- DPL_PART_HI.ADDR (R380) -/
def DPL_PART_HI : Fld := ⟨.dpl, 0x104, 8, 16, 0, 32, .rw, 0⟩
/-- SRV_CNT_REFUSED.COUNT (R414) -/
def SRV_CNT_REFUSED : Fld := ⟨.srv, 0x020, 0, 1, 0, 32, .w1c, 0⟩
/-- SRV_CNT_CANCEL.COUNT (R414) -/
def SRV_CNT_CANCEL : Fld := ⟨.srv, 0x024, 0, 1, 0, 32, .w1c, 0⟩
/-- SRV_CNT_LATE_CANCEL.COUNT (R414) -/
def SRV_CNT_LATE_CANCEL : Fld := ⟨.srv, 0x028, 0, 1, 0, 32, .w1c, 0⟩
/-- SRV_CNT_CPL_DROP.COUNT (R414) -/
def SRV_CNT_CPL_DROP : Fld := ⟨.srv, 0x02C, 0, 1, 0, 32, .w1c, 0⟩
/-- SRV_CNT_PAUSE.COUNT (R414) -/
def SRV_CNT_PAUSE : Fld := ⟨.srv, 0x030, 0, 1, 0, 32, .w1c, 0⟩
/-- SRV_BATCH_BASE_LO.VALID (R414) -/
def SRV_BATCH_BASE_LO_VALID : Fld := ⟨.srv, 0x040, 0, 1, 0, 1, .rw, 0⟩
/-- SRV_BATCH_BASE_LO.ADDR (R414) -/
def SRV_BATCH_BASE_LO_ADDR : Fld := ⟨.srv, 0x040, 0, 1, 12, 20, .rw, 0⟩
/-- SRV_BATCH_BASE_HI.ADDR (R414) -/
def SRV_BATCH_BASE_HI : Fld := ⟨.srv, 0x044, 0, 1, 0, 32, .rw, 0⟩
/-- SRV_KV_CFG.PAGE_TILES (R414) -/
def SRV_KV_CFG_PAGE_TILES : Fld := ⟨.srv, 0x048, 0, 1, 0, 5, .rw, 1⟩
/-- SRV_KV_CFG.PAGE_TOKENS (R414) -/
def SRV_KV_CFG_PAGE_TOKENS : Fld := ⟨.srv, 0x048, 0, 1, 8, 12, .rw, 0x40⟩
/-- SRV_KV_CFG.LIST_LINES (R414) -/
def SRV_KV_CFG_LIST_LINES : Fld := ⟨.srv, 0x048, 0, 1, 20, 8, .rw, 1⟩
/-- SRV_KV_PAGES.PAGES (R414) -/
def SRV_KV_PAGES : Fld := ⟨.srv, 0x04C, 0, 1, 0, 24, .rw, 0⟩
/-- SRV_KV_FREE.PAGES (R414) -/
def SRV_KV_FREE : Fld := ⟨.srv, 0x050, 0, 1, 0, 24, .ro, 0⟩
/-- SRV_LIVE.COUNT (R414) -/
def SRV_LIVE : Fld := ⟨.srv, 0x054, 0, 1, 0, 32, .ro, 0⟩
/-- SRV_CLASS_PRIO.PRIO (R414) -/
def SRV_CLASS_PRIO : Fld := ⟨.srv, 0x058, 0, 1, 0, 24, .rw, 0x5AA2DB⟩
/-- SRV_GATE_HAND.HAND (R415) -/
def SRV_GATE_HAND_HAND : Fld := ⟨.srv, 0x080, 8, 16, 0, 16, .rw, 0⟩
/-- SRV_GATE_HAND.VALID (R415) -/
def SRV_GATE_HAND_VALID : Fld := ⟨.srv, 0x080, 8, 16, 16, 1, .rw, 0⟩
/-- SRV_GATE_COUNT.COUNT (R415) -/
def SRV_GATE_COUNT : Fld := ⟨.srv, 0x084, 8, 16, 0, 32, .rw, 0⟩
/-- SRV_FUNC.EN (R416) -/
def SRV_FUNC_EN : Fld := ⟨.srv, 0x100, 32, 16, 0, 1, .rw, 0⟩
/-- SRV_FUNC.DEVICE (R416) -/
def SRV_FUNC_DEVICE : Fld := ⟨.srv, 0x100, 32, 16, 1, 1, .rw, 0⟩
/-- SRV_FUNC.DISABLING (R416) -/
def SRV_FUNC_DISABLING : Fld := ⟨.srv, 0x100, 32, 16, 2, 1, .ro, 0⟩
/-- SRV_STAKE_RATE.RATE (R416) -/
def SRV_STAKE_RATE : Fld := ⟨.srv, 0x104, 32, 16, 0, 32, .rw, 0xFFFFFFFF⟩
/-- SRV_STAKE_BURST.BURST (R416) -/
def SRV_STAKE_BURST : Fld := ⟨.srv, 0x108, 32, 16, 0, 32, .rw, 0xFFFFFFFF⟩
/-- SRV_STAKE_LEVEL.LEVEL (R416) -/
def SRV_STAKE_LEVEL : Fld := ⟨.srv, 0x10C, 32, 16, 0, 32, .ro, 0xFFFFFFFF⟩
/-- SRV_CPL_BASE_LO.ADDR (R416) -/
def SRV_CPL_BASE_LO : Fld := ⟨.srv, 0x110, 32, 16, 6, 26, .rw, 0⟩
/-- SRV_CPL_BASE_HI.ADDR (R416) -/
def SRV_CPL_BASE_HI : Fld := ⟨.srv, 0x114, 32, 16, 0, 32, .rw, 0⟩
/-- SRV_CPL_CFG.SIZE (R416) -/
def SRV_CPL_CFG_SIZE : Fld := ⟨.srv, 0x118, 32, 16, 0, 4, .rw, 0⟩
/-- SRV_CPL_CFG.VECTOR (R416) -/
def SRV_CPL_CFG_VECTOR : Fld := ⟨.srv, 0x118, 32, 16, 4, 11, .rw, 0⟩
/-- SRV_CPL_CFG.COUNT (R416) -/
def SRV_CPL_CFG_COUNT : Fld := ⟨.srv, 0x118, 32, 16, 15, 8, .rw, 1⟩
/-- SRV_CPL_CFG.TIMER (R416) -/
def SRV_CPL_CFG_TIMER : Fld := ⟨.srv, 0x118, 32, 16, 23, 8, .rw, 0⟩
/-- SRV_CPL_WRITTEN.COUNT (R416) -/
def SRV_CPL_WRITTEN : Fld := ⟨.srv, 0x11C, 32, 16, 0, 32, .ro, 0⟩
/-- SRV_GROUP.ROWS (R417) -/
def SRV_GROUP_ROWS : Fld := ⟨.srv, 0x300, 4, 64, 0, 13, .rw, 0⟩
/-- SRV_GROUP.REQS (R417) -/
def SRV_GROUP_REQS : Fld := ⟨.srv, 0x300, 4, 64, 13, 11, .rw, 0⟩
/-- SRV_GROUP.CHUNK (R417) -/
def SRV_GROUP_CHUNK : Fld := ⟨.srv, 0x300, 4, 64, 24, 8, .rw, 0⟩
/-- PWR_CNT_DRIFT.COUNT (R441) -/
def PWR_CNT_DRIFT : Fld := ⟨.pwr, 0x020, 0, 1, 0, 32, .w1c, 0⟩
/-- PWR_CNT_DEFER.COUNT (R441) -/
def PWR_CNT_DEFER : Fld := ⟨.pwr, 0x024, 0, 1, 0, 32, .w1c, 0⟩
/-- PWR_CNT_FSTEP.COUNT (R441) -/
def PWR_CNT_FSTEP : Fld := ⟨.pwr, 0x028, 0, 1, 0, 32, .w1c, 0⟩
/-- PWR_CNT_HOT.COUNT (R441) -/
def PWR_CNT_HOT : Fld := ⟨.pwr, 0x02C, 0, 1, 0, 32, .w1c, 0⟩
/-- PWR_CNT_DROOP.COUNT (R441) -/
def PWR_CNT_DROOP : Fld := ⟨.pwr, 0x030, 0, 1, 0, 32, .w1c, 0⟩
/-- PWR_CNT_MEAS_ERR.COUNT (R441) -/
def PWR_CNT_MEAS_ERR : Fld := ⟨.pwr, 0x034, 0, 1, 0, 32, .w1c, 0⟩
/-- PWR_LIMIT.CAP_W (R442) -/
def PWR_LIMIT_CAP_W : Fld := ⟨.pwr, 0x040, 0, 1, 0, 13, .nv, 0x11F8⟩
/-- PWR_LIMIT.WINDOW (R442) -/
def PWR_LIMIT_WINDOW : Fld := ⟨.pwr, 0x040, 0, 1, 16, 7, .nv, 0x14⟩
/-- PWR_CFG.MEAS_EN (R442) -/
def PWR_CFG_MEAS_EN : Fld := ⟨.pwr, 0x044, 0, 1, 0, 1, .nv, 0⟩
/-- PWR_CFG.BID_EN (R442) -/
def PWR_CFG_BID_EN : Fld := ⟨.pwr, 0x044, 0, 1, 1, 1, .rw, 1⟩
/-- PWR_CFG.GATE_EN (R442) -/
def PWR_CFG_GATE_EN : Fld := ⟨.pwr, 0x044, 0, 1, 2, 1, .rw, 1⟩
/-- PWR_CFG.HORIZON (R442) -/
def PWR_CFG_HORIZON : Fld := ⟨.pwr, 0x044, 0, 1, 8, 8, .rw, 0x64⟩
/-- PWR_CFG.STEP_PACE (R442) -/
def PWR_CFG_STEP_PACE : Fld := ⟨.pwr, 0x044, 0, 1, 16, 4, .rw, 4⟩
/-- PWR_RSV.BASE_W (R442) -/
def PWR_RSV : Fld := ⟨.pwr, 0x048, 0, 1, 0, 11, .nv, 0x169⟩
/-- PWR_FREQ.FMAX (R442) -/
def PWR_FREQ : Fld := ⟨.pwr, 0x04C, 0, 1, 0, 5, .nv, 0x1C⟩
/-- PWR_THERM.THROTTLE_C (R442) -/
def PWR_THERM_THROTTLE_C : Fld := ⟨.pwr, 0x050, 0, 1, 0, 8, .nv, 0x64⟩
/-- PWR_THERM.TRIP_C (R442) -/
def PWR_THERM_TRIP_C : Fld := ⟨.pwr, 0x050, 0, 1, 8, 8, .ro, 0x73⟩
/-- PWR_DUMMY_FLOOR_PCT.PCT (R442) -/
def PWR_DUMMY_FLOOR_PCT : Fld := ⟨.pwr, 0x054, 0, 1, 0, 7, .rw, 0x32⟩
/-- PWR_GATE.DELAY_MS (R442) -/
def PWR_GATE : Fld := ⟨.pwr, 0x058, 0, 1, 0, 8, .rw, 0xA⟩
/-- PWR_HOLD_AWAKE.DIES (R442) -/
def PWR_HOLD_AWAKE : Fld := ⟨.pwr, 0x05C, 0, 1, 0, 24, .rw, 0⟩
/-- PWR_STATUS.DRIFT (R442) -/
def PWR_STATUS_DRIFT : Fld := ⟨.pwr, 0x060, 0, 1, 0, 1, .ro, 0⟩
/-- PWR_STATUS.BID_FROZEN (R442) -/
def PWR_STATUS_BID_FROZEN : Fld := ⟨.pwr, 0x060, 0, 1, 1, 1, .ro, 0⟩
/-- PWR_STATUS.MEAS_LOST (R442) -/
def PWR_STATUS_MEAS_LOST : Fld := ⟨.pwr, 0x060, 0, 1, 2, 1, .ro, 0⟩
/-- PWR_STATUS.HOT (R442) -/
def PWR_STATUS_HOT : Fld := ⟨.pwr, 0x060, 0, 1, 3, 1, .ro, 0⟩
/-- PWR_STATUS.TRIPPED (R442) -/
def PWR_STATUS_TRIPPED : Fld := ⟨.pwr, 0x060, 0, 1, 4, 1, .ro, 0⟩
/-- PWR_STATUS.HOT_SEEN (R442) -/
def PWR_STATUS_HOT_SEEN : Fld := ⟨.pwr, 0x060, 0, 1, 5, 1, .w1c, 0⟩
/-- PWR_CTRL.CLEAR_DRIFT (R442) -/
def PWR_CTRL_CLEAR_DRIFT : Fld := ⟨.pwr, 0x064, 0, 1, 0, 1, .wo, 0⟩
/-- PWR_CTRL.BID_RESET (R442) -/
def PWR_CTRL_BID_RESET : Fld := ⟨.pwr, 0x064, 0, 1, 1, 1, .wo, 0⟩
/-- PWR_USED_LO.MJ (R442) -/
def PWR_USED_LO : Fld := ⟨.pwr, 0x068, 0, 1, 0, 32, .ro, 0⟩
/-- PWR_USED_HI.MJ (R442) -/
def PWR_USED_HI : Fld := ⟨.pwr, 0x06C, 0, 1, 0, 32, .ro, 0⟩
/-- PWR_SPEND.PS (R442) -/
def PWR_SPEND_PS : Fld := ⟨.pwr, 0x070, 0, 1, 0, 16, .ro, 0⟩
/-- PWR_SPEND.BC (R442) -/
def PWR_SPEND_BC : Fld := ⟨.pwr, 0x070, 0, 1, 16, 16, .ro, 0⟩
/-- PWR_POWER.EST (R442) -/
def PWR_POWER_EST : Fld := ⟨.pwr, 0x074, 0, 1, 0, 16, .ro, 0⟩
/-- PWR_POWER.MEAS (R442) -/
def PWR_POWER_MEAS : Fld := ⟨.pwr, 0x074, 0, 1, 16, 16, .ro, 0⟩
/-- PWR_DRIFT_MS.COUNT (R442) -/
def PWR_DRIFT_MS : Fld := ⟨.pwr, 0x078, 0, 1, 0, 16, .ro, 0⟩
/-- PWR_BID.USED (R442) -/
def PWR_BID_USED : Fld := ⟨.pwr, 0x07C, 0, 1, 0, 11, .ro, 0⟩
/-- PWR_BID.RESERVED_W (R442) -/
def PWR_BID_RESERVED_W : Fld := ⟨.pwr, 0x07C, 0, 1, 16, 16, .ro, 0⟩
/-- PWR_VR.ADDR (R442) -/
def PWR_VR_ADDR : Fld := ⟨.pwr, 0x0C0, 4, 8, 0, 7, .nv, 0⟩
/-- PWR_VR.VALID (R442) -/
def PWR_VR_VALID : Fld := ⟨.pwr, 0x0C0, 4, 8, 7, 1, .nv, 0⟩
/-- PWR_COEF.COEF (R442) -/
def PWR_COEF : Fld := ⟨.pwr, 0x100, 4, 16, 0, 32, .nv, 0⟩
/-- PWR_DIE.FLIMIT (R443) -/
def PWR_DIE_FLIMIT : Fld := ⟨.pwr, 0x200, 4, 16, 0, 5, .ro, 0x1C⟩
/-- PWR_DIE.PACE (R443) -/
def PWR_DIE_PACE : Fld := ⟨.pwr, 0x200, 4, 16, 5, 4, .ro, 0⟩
/-- PWR_DIE.HOT (R443) -/
def PWR_DIE_HOT : Fld := ⟨.pwr, 0x200, 4, 16, 9, 1, .ro, 0⟩
/-- PWR_DIE.GATED (R443) -/
def PWR_DIE_GATED : Fld := ⟨.pwr, 0x200, 4, 16, 10, 1, .ro, 0⟩
/-- PWR_DIE.TEMP (R443) -/
def PWR_DIE_TEMP : Fld := ⟨.pwr, 0x200, 4, 16, 16, 8, .ro, 0⟩
/-- HUB_JOKER_MAP_LO.L0 (R466) -/
def HUB_JOKER_MAP_LO_L0 : Fld := ⟨.hub, 0x100, 8, 16, 0, 4, .ro, 0⟩
/-- HUB_JOKER_MAP_LO.L1 (R466) -/
def HUB_JOKER_MAP_LO_L1 : Fld := ⟨.hub, 0x100, 8, 16, 4, 4, .ro, 0⟩
/-- HUB_JOKER_MAP_LO.L2 (R466) -/
def HUB_JOKER_MAP_LO_L2 : Fld := ⟨.hub, 0x100, 8, 16, 8, 4, .ro, 0⟩
/-- HUB_JOKER_MAP_LO.L3 (R466) -/
def HUB_JOKER_MAP_LO_L3 : Fld := ⟨.hub, 0x100, 8, 16, 12, 4, .ro, 0⟩
/-- HUB_JOKER_MAP_LO.L4 (R466) -/
def HUB_JOKER_MAP_LO_L4 : Fld := ⟨.hub, 0x100, 8, 16, 16, 4, .ro, 0⟩
/-- HUB_JOKER_MAP_LO.L5 (R466) -/
def HUB_JOKER_MAP_LO_L5 : Fld := ⟨.hub, 0x100, 8, 16, 20, 4, .ro, 0⟩
/-- HUB_JOKER_MAP_LO.L6 (R466) -/
def HUB_JOKER_MAP_LO_L6 : Fld := ⟨.hub, 0x100, 8, 16, 24, 4, .ro, 0⟩
/-- HUB_JOKER_MAP_LO.L7 (R466) -/
def HUB_JOKER_MAP_LO_L7 : Fld := ⟨.hub, 0x100, 8, 16, 28, 4, .ro, 0⟩
/-- HUB_JOKER_MAP_HI.L8 (R466) -/
def HUB_JOKER_MAP_HI_L8 : Fld := ⟨.hub, 0x104, 8, 16, 0, 4, .ro, 0⟩
/-- HUB_JOKER_MAP_HI.L9 (R466) -/
def HUB_JOKER_MAP_HI_L9 : Fld := ⟨.hub, 0x104, 8, 16, 4, 4, .ro, 0⟩
/-- HUB_JOKER_MAP_HI.RETIRED (R466) -/
def HUB_JOKER_MAP_HI_RETIRED : Fld := ⟨.hub, 0x104, 8, 16, 8, 11, .ro, 0⟩
/-- HUB_JOKER_MAP_HI.JOKERS (R466) -/
def HUB_JOKER_MAP_HI_JOKERS : Fld := ⟨.hub, 0x104, 8, 16, 19, 4, .ro, 0⟩
/-- HUB_JOKER_MAP_HI.PENDING (R466) -/
def HUB_JOKER_MAP_HI_PENDING : Fld := ⟨.hub, 0x104, 8, 16, 23, 1, .ro, 0⟩
/-- FLT_CNT_FAULT.COUNT (R471) -/
def FLT_CNT_FAULT : Fld := ⟨.flt, 0x020, 0, 1, 0, 32, .w1c, 0⟩
/-- FLT_CNT_SWAP.COUNT (R471) -/
def FLT_CNT_SWAP : Fld := ⟨.flt, 0x024, 0, 1, 0, 32, .w1c, 0⟩
/-- FLT_CNT_CHECK.COUNT (R471) -/
def FLT_CNT_CHECK : Fld := ⟨.flt, 0x028, 0, 1, 0, 32, .w1c, 0⟩
/-- FLT_CNT_ASLEEP.COUNT (R471) -/
def FLT_CNT_ASLEEP : Fld := ⟨.flt, 0x02C, 0, 1, 0, 32, .w1c, 0⟩
/-- FLT_CNT_RETURN.COUNT (R471) -/
def FLT_CNT_RETURN : Fld := ⟨.flt, 0x030, 0, 1, 0, 32, .w1c, 0⟩
/-- AON_CNT_DOWN.COUNT (R471) -/
def AON_CNT_DOWN : Fld := ⟨.aon, 0x020, 0, 1, 0, 32, .w1c, 0⟩
/-- AON_CNT_HUB_RESET.COUNT (R471) -/
def AON_CNT_HUB_RESET : Fld := ⟨.aon, 0x024, 0, 1, 0, 32, .w1c, 0⟩
/-- FLT_CFG.RETRY (R472) -/
def FLT_CFG_RETRY : Fld := ⟨.flt, 0x040, 0, 1, 0, 4, .rw, 2⟩
/-- FLT_CFG.SWAP_EN (R472) -/
def FLT_CFG_SWAP_EN : Fld := ⟨.flt, 0x040, 0, 1, 4, 1, .nv, 1⟩
/-- FLT_CFG.CHECK_EN (R472) -/
def FLT_CFG_CHECK_EN : Fld := ⟨.flt, 0x040, 0, 1, 5, 1, .nv, 1⟩
/-- FLT_CFG.CHECK_GROUP (R472) -/
def FLT_CFG_CHECK_GROUP : Fld := ⟨.flt, 0x040, 0, 1, 8, 6, .nv, 0x3F⟩
/-- FLT_CFG.VECTOR (R472) -/
def FLT_CFG_VECTOR : Fld := ⟨.flt, 0x040, 0, 1, 16, 11, .rw, 0⟩
/-- FLT_CHECK_PERIOD.SECONDS (R472) -/
def FLT_CHECK_PERIOD : Fld := ⟨.flt, 0x044, 0, 1, 0, 16, .nv, 0x258⟩
/-- FLT_STATUS.PLAN_STOPPED (R472) -/
def FLT_STATUS_PLAN_STOPPED : Fld := ⟨.flt, 0x048, 0, 1, 0, 1, .ro, 0⟩
/-- FLT_STATUS.SUSPECT (R472) -/
def FLT_STATUS_SUSPECT : Fld := ⟨.flt, 0x048, 0, 1, 1, 1, .w1c, 0⟩
/-- FLT_STATUS.MODE (R472) -/
def FLT_STATUS_MODE : Fld := ⟨.flt, 0x048, 0, 1, 2, 1, .ro, 0⟩
/-- FLT_STATUS.NO_JOKER (R472) -/
def FLT_STATUS_NO_JOKER : Fld := ⟨.flt, 0x048, 0, 1, 3, 1, .ro, 0⟩
/-- FLT_STATUS.CHECK_PART (R472) -/
def FLT_STATUS_CHECK_PART : Fld := ⟨.flt, 0x048, 0, 1, 4, 8, .ro, 0⟩
/-- FLT_CTRL.RESUME (R472) -/
def FLT_CTRL_RESUME : Fld := ⟨.flt, 0x04C, 0, 1, 0, 1, .wo, 0⟩
/-- FLT_CTRL.RETIRE (R472) -/
def FLT_CTRL_RETIRE : Fld := ⟨.flt, 0x04C, 0, 1, 1, 1, .wo, 0⟩
/-- FLT_CTRL.CHECK_NOW (R472) -/
def FLT_CTRL_CHECK_NOW : Fld := ⟨.flt, 0x04C, 0, 1, 2, 1, .wo, 0⟩
/-- FLT_CTRL.PART (R472) -/
def FLT_CTRL_PART : Fld := ⟨.flt, 0x04C, 0, 1, 4, 8, .wo, 0⟩
/-- FLT_JRN_COUNT.COUNT (R472) -/
def FLT_JRN_COUNT : Fld := ⟨.flt, 0x050, 0, 1, 0, 32, .ro, 0⟩
/-- FLT_JRN_SEL.ENTRY (R472) -/
def FLT_JRN_SEL_ENTRY : Fld := ⟨.flt, 0x054, 0, 1, 0, 12, .rw, 0⟩
/-- FLT_JRN_SEL.WORD (R472) -/
def FLT_JRN_SEL_WORD : Fld := ⟨.flt, 0x054, 0, 1, 12, 3, .rw, 0⟩
/-- FLT_JRN_DATA.DATA (R472) -/
def FLT_JRN_DATA : Fld := ⟨.flt, 0x058, 0, 1, 0, 32, .ro, 0⟩
/-- FLT_HEALTH_CFG.DECAY_H (R472) -/
def FLT_HEALTH_CFG : Fld := ⟨.flt, 0x05C, 0, 1, 0, 8, .nv, 3⟩
/-- FLT_HEALTH_WARN.LEVEL (R472) -/
def FLT_HEALTH_WARN : Fld := ⟨.flt, 0x060, 0, 1, 0, 32, .nv, 0x800⟩
/-- FLT_HEALTH_RETIRE.LEVEL (R472) -/
def FLT_HEALTH_RETIRE : Fld := ⟨.flt, 0x064, 0, 1, 0, 32, .nv, 0x2000⟩
/-- FLT_HEALTH_SEL.PART (R472) -/
def FLT_HEALTH_SEL : Fld := ⟨.flt, 0x068, 0, 1, 0, 8, .rw, 0⟩
/-- FLT_HEALTH_SCORE.SCORE (R472) -/
def FLT_HEALTH_SCORE : Fld := ⟨.flt, 0x06C, 0, 1, 0, 32, .ro, 0⟩
/-- FLT_STRAG_CFG.SLACK_US (R472) -/
def FLT_STRAG_CFG_SLACK_US : Fld := ⟨.flt, 0x070, 0, 1, 0, 8, .rw, 5⟩
/-- FLT_STRAG_CFG.SHARE_PCT (R472) -/
def FLT_STRAG_CFG_SHARE_PCT : Fld := ⟨.flt, 0x070, 0, 1, 8, 8, .rw, 0x19⟩
/-- FLT_STRAG_CFG.WINDOW (R472) -/
def FLT_STRAG_CFG_WINDOW : Fld := ⟨.flt, 0x070, 0, 1, 16, 16, .rw, 0x1000⟩
/-- FLT_STRAG_STAT.TRICKS (R472) -/
def FLT_STRAG_STAT_TRICKS : Fld := ⟨.flt, 0x074, 0, 1, 0, 16, .ro, 0⟩
/-- FLT_STRAG_STAT.NEAR (R472) -/
def FLT_STRAG_STAT_NEAR : Fld := ⟨.flt, 0x074, 0, 1, 16, 16, .ro, 0⟩
/-- AON_STATUS.STATE (R473) -/
def AON_STATUS_STATE : Fld := ⟨.aon, 0x040, 0, 1, 0, 2, .ro, 0⟩
/-- AON_STATUS.MISMATCH (R473) -/
def AON_STATUS_MISMATCH : Fld := ⟨.aon, 0x040, 0, 1, 2, 1, .ro, 0⟩
/-- AON_STATUS.WDOG (R473) -/
def AON_STATUS_WDOG : Fld := ⟨.aon, 0x040, 0, 1, 3, 1, .ro, 0⟩
/-- AON_CTRL.HUB_RESET (R473) -/
def AON_CTRL : Fld := ⟨.aon, 0x044, 0, 1, 0, 1, .wo, 0⟩
/-- AON_CFG.VECTOR (R473) -/
def AON_CFG_VECTOR : Fld := ⟨.aon, 0x048, 0, 1, 0, 11, .rws, 0⟩
/-- AON_CFG.WDOG_MS (R473) -/
def AON_CFG_WDOG_MS : Fld := ⟨.aon, 0x048, 0, 1, 16, 16, .rws, 0xA⟩
/-- AON_DOWN_TIME_LO.TIME (R473) -/
def AON_DOWN_TIME_LO : Fld := ⟨.aon, 0x04C, 0, 1, 0, 32, .ro, 0⟩
/-- AON_DOWN_TIME_HI.TIME (R473) -/
def AON_DOWN_TIME_HI : Fld := ⟨.aon, 0x050, 0, 1, 0, 32, .ro, 0⟩
/-- PLN_IMAGE_LO.ADDR (R496) -/
def PLN_IMAGE_LO : Fld := ⟨.pln, 0x050, 0, 1, 12, 20, .rw, 0⟩
/-- PLN_IMAGE_HI.ADDR (R496) -/
def PLN_IMAGE_HI : Fld := ⟨.pln, 0x054, 0, 1, 0, 32, .rw, 0⟩
/-- PLN_CTRL.LOAD (R496) -/
def PLN_CTRL_LOAD : Fld := ⟨.pln, 0x058, 0, 1, 0, 1, .wo, 0⟩
/-- PLN_CTRL.UNLOAD (R496) -/
def PLN_CTRL_UNLOAD : Fld := ⟨.pln, 0x058, 0, 1, 1, 1, .wo, 0⟩
/-- PLN_IMAGE_STATE.STATE (R496) -/
def PLN_IMAGE_STATE : Fld := ⟨.pln, 0x05C, 0, 1, 0, 2, .ro, 0⟩
/-- ATT_CTRL.REQUEST (R503) -/
def ATT_CTRL_REQUEST : Fld := ⟨.att, 0x040, 0, 1, 0, 1, .wo, 0⟩
/-- ATT_CTRL.KIND (R503) -/
def ATT_CTRL_KIND : Fld := ⟨.att, 0x040, 0, 1, 1, 2, .wo, 0⟩
/-- ATT_STATUS.STATE (R503) -/
def ATT_STATUS_STATE : Fld := ⟨.att, 0x044, 0, 1, 0, 2, .ro, 0⟩
/-- ATT_STATUS.LENGTH (R503) -/
def ATT_STATUS_LENGTH : Fld := ⟨.att, 0x044, 0, 1, 16, 16, .ro, 0⟩
/-- ATT_SEL.WORD (R503) -/
def ATT_SEL : Fld := ⟨.att, 0x048, 0, 1, 0, 14, .rw, 0⟩
/-- ATT_DATA.DATA (R503) -/
def ATT_DATA : Fld := ⟨.att, 0x04C, 0, 1, 0, 32, .ro, 0⟩
/-- ATT_NONCE.NONCE (R503) -/
def ATT_NONCE : Fld := ⟨.att, 0x060, 4, 8, 0, 32, .rw, 0⟩
/-- HIF_CNT_BAD_ACCESS.COUNT (R504) -/
def HIF_CNT_BAD_ACCESS : Fld := ⟨.hif, 0x020, 0, 1, 0, 32, .w1c, 0⟩
/-- HIF_CNT_NOMEM.COUNT (R504) -/
def HIF_CNT_NOMEM : Fld := ⟨.hif, 0x024, 0, 1, 0, 32, .w1c, 0⟩
/-- HIF_CNT_CPL_TIMEOUT.COUNT (R504) -/
def HIF_CNT_CPL_TIMEOUT : Fld := ⟨.hif, 0x028, 0, 1, 0, 32, .w1c, 0⟩
/-- HIF_CNT_CPL_ERROR.COUNT (R504) -/
def HIF_CNT_CPL_ERROR : Fld := ⟨.hif, 0x02C, 0, 1, 0, 32, .w1c, 0⟩
/-- HIF_CNT_BAD_VECTOR.COUNT (R504) -/
def HIF_CNT_BAD_VECTOR : Fld := ⟨.hif, 0x030, 0, 1, 0, 32, .w1c, 0⟩
/-- HIF_LINK.SPEED (R504) -/
def HIF_LINK_SPEED : Fld := ⟨.hif, 0x040, 0, 1, 0, 4, .ro, 0⟩
/-- HIF_LINK.WIDTH (R504) -/
def HIF_LINK_WIDTH : Fld := ⟨.hif, 0x040, 0, 1, 4, 5, .ro, 0⟩
/-- HIF_LINK.FLIT (R504) -/
def HIF_LINK_FLIT : Fld := ⟨.hif, 0x040, 0, 1, 9, 1, .ro, 0⟩
/-- HIF_APERTURE.BASE_GIB (R504) -/
def HIF_APERTURE : Fld := ⟨.hif, 0x044, 0, 1, 0, 10, .rws, 0⟩
/-- HIF_AWAKE.DIES (R504) -/
def HIF_AWAKE : Fld := ⟨.hif, 0x048, 0, 1, 0, 25, .ro, 0x1000000⟩
/-- HIF_SUBSYS.SVID (R504) -/
def HIF_SUBSYS_SVID : Fld := ⟨.hif, 0x04C, 0, 1, 0, 16, .nv, 0⟩
/-- HIF_SUBSYS.SSID (R504) -/
def HIF_SUBSYS_SSID : Fld := ⟨.hif, 0x04C, 0, 1, 16, 16, .nv, 0⟩
/-- HIF_FUNC.PRESENT (R504) -/
def HIF_FUNC_PRESENT : Fld := ⟨.hif, 0x100, 4, 16, 0, 1, .ro, 0⟩
/-- HIF_FUNC.BME (R504) -/
def HIF_FUNC_BME : Fld := ⟨.hif, 0x100, 4, 16, 1, 1, .ro, 0⟩
/-- HIF_FUNC.MSE (R504) -/
def HIF_FUNC_MSE : Fld := ⟨.hif, 0x100, 4, 16, 2, 1, .ro, 0⟩
/-- HIF_FUNC.D3HOT (R504) -/
def HIF_FUNC_D3HOT : Fld := ⟨.hif, 0x100, 4, 16, 3, 1, .ro, 0⟩
/-- HIF_FUNC.FLR_BUSY (R504) -/
def HIF_FUNC_FLR_BUSY : Fld := ⟨.hif, 0x100, 4, 16, 4, 1, .ro, 0⟩
/-- HIF_FUNC.MSIX_EN (R504) -/
def HIF_FUNC_MSIX_EN : Fld := ⟨.hif, 0x100, 4, 16, 5, 1, .ro, 0⟩
/-- HUB_BRINGUP_STATUS.AON_PCIE (R535) -/
def HUB_BRINGUP_STATUS_AON_PCIE : Fld := ⟨.hub, 0x04C, 0, 1, 0, 1, .ro, 0⟩
/-- HUB_BRINGUP_STATUS.FIRMWARE (R535) -/
def HUB_BRINGUP_STATUS_FIRMWARE : Fld := ⟨.hub, 0x04C, 0, 1, 1, 1, .ro, 0⟩
/-- HUB_BRINGUP_STATUS.BIST (R535) -/
def HUB_BRINGUP_STATUS_BIST : Fld := ⟨.hub, 0x04C, 0, 1, 2, 1, .ro, 0⟩
/-- HUB_BRINGUP_STATUS.HBM (R535) -/
def HUB_BRINGUP_STATUS_HBM : Fld := ⟨.hub, 0x04C, 0, 1, 3, 1, .ro, 0⟩
/-- HUB_BRINGUP_STATUS.EVKAI (R535) -/
def HUB_BRINGUP_STATUS_EVKAI : Fld := ⟨.hub, 0x04C, 0, 1, 4, 1, .ro, 0⟩
/-- HUB_BRINGUP_STATUS.TIME (R535) -/
def HUB_BRINGUP_STATUS_TIME : Fld := ⟨.hub, 0x04C, 0, 1, 5, 1, .ro, 0⟩
/-- HUB_BRINGUP_STATUS.DDR5 (R535) -/
def HUB_BRINGUP_STATUS_DDR5 : Fld := ⟨.hub, 0x04C, 0, 1, 6, 1, .ro, 0⟩
/-- HUB_BRINGUP_STATUS.ANCHOR_OK (R535) -/
def HUB_BRINGUP_STATUS_ANCHOR_OK : Fld := ⟨.hub, 0x04C, 0, 1, 7, 1, .ro, 0⟩
/-- HUB_BRINGUP_STATUS.SHORT (R535) -/
def HUB_BRINGUP_STATUS_SHORT : Fld := ⟨.hub, 0x04C, 0, 1, 8, 1, .ro, 0⟩
/-- HUB_BRINGUP_STATUS.FULL (R535) -/
def HUB_BRINGUP_STATUS_FULL : Fld := ⟨.hub, 0x04C, 0, 1, 9, 1, .ro, 0⟩
/-- HUB_BRINGUP_STATUS.DEGRADED (R535) -/
def HUB_BRINGUP_STATUS_DEGRADED : Fld := ⟨.hub, 0x04C, 0, 1, 10, 1, .ro, 0⟩
/-- HUB_BRINGUP_DIES.BIST_OK (R535) -/
def HUB_BRINGUP_DIES_BIST_OK : Fld := ⟨.hub, 0x050, 0, 1, 0, 16, .ro, 0⟩
/-- HUB_BRINGUP_DIES.HBM_OK (R535) -/
def HUB_BRINGUP_DIES_HBM_OK : Fld := ⟨.hub, 0x050, 0, 1, 16, 16, .ro, 0⟩
/-- HUB_BRINGUP_CFG.LINK_WAIT (R535) -/
def HUB_BRINGUP_CFG : Fld := ⟨.hub, 0x054, 0, 1, 0, 16, .nv, 0x1F4⟩
/-- HUB_RESET_CAUSE.CAUSE (R535) -/
def HUB_RESET_CAUSE_CAUSE : Fld := ⟨.hub, 0x058, 0, 1, 0, 2, .ro, 0⟩
/-- HUB_RESET_CAUSE.SAVED (R535) -/
def HUB_RESET_CAUSE_SAVED : Fld := ⟨.hub, 0x058, 0, 1, 2, 1, .ro, 0⟩
/-- HUB_RESET_CAUSE.TRIPPED (R535) -/
def HUB_RESET_CAUSE_TRIPPED : Fld := ⟨.hub, 0x058, 0, 1, 3, 1, .ro, 0⟩
/-- HUB_POWER_EVENT.SAG (R535) -/
def HUB_POWER_EVENT_SAG : Fld := ⟨.hub, 0x05C, 0, 1, 0, 1, .ro, 0⟩
/-- HUB_POWER_EVENT.SAVE_DONE (R535) -/
def HUB_POWER_EVENT_SAVE_DONE : Fld := ⟨.hub, 0x05C, 0, 1, 1, 1, .ro, 0⟩
/-- HUB_POWER_EVENT.AUX_LOW (R535) -/
def HUB_POWER_EVENT_AUX_LOW : Fld := ⟨.hub, 0x05C, 0, 1, 2, 1, .ro, 0⟩
/-- HUB_POWER_EVENT.PWR_FAIL (R535) -/
def HUB_POWER_EVENT_PWR_FAIL : Fld := ⟨.hub, 0x05C, 0, 1, 3, 1, .ro, 0⟩
/-- HUB_FW_ADDR_LO.ADDR (R535) -/
def HUB_FW_ADDR_LO : Fld := ⟨.hub, 0x0A0, 0, 1, 12, 20, .rw, 0⟩
/-- HUB_FW_ADDR_HI.ADDR (R535) -/
def HUB_FW_ADDR_HI : Fld := ⟨.hub, 0x0A4, 0, 1, 0, 32, .rw, 0⟩
/-- HUB_FW_LEN.BYTES (R535) -/
def HUB_FW_LEN : Fld := ⟨.hub, 0x0A8, 0, 1, 0, 23, .rw, 0⟩
/-- HUB_FW_CTRL.GO (R535) -/
def HUB_FW_CTRL : Fld := ⟨.hub, 0x0AC, 0, 1, 0, 1, .wo, 0⟩
/-- HUB_FW_STATUS.STATE (R535) -/
def HUB_FW_STATUS_STATE : Fld := ⟨.hub, 0x0B0, 0, 1, 0, 3, .ro, 0⟩
/-- HUB_FW_STATUS.REASON (R535) -/
def HUB_FW_STATUS_REASON : Fld := ⟨.hub, 0x0B0, 0, 1, 8, 4, .ro, 0⟩
/-- HUB_FW_VERSION.VERSION (R535) -/
def HUB_FW_VERSION : Fld := ⟨.hub, 0x0B4, 0, 1, 0, 32, .ro, 0⟩
/-- HUB_FW_SVN.SVN (R535) -/
def HUB_FW_SVN_SVN : Fld := ⟨.hub, 0x0B8, 0, 1, 0, 16, .ro, 0⟩
/-- HUB_FW_SVN.MIN_SVN (R535) -/
def HUB_FW_SVN_MIN_SVN : Fld := ⟨.hub, 0x0B8, 0, 1, 16, 16, .ro, 0⟩
/-- HUB_LAST_TIME_LO.TIME (R535) -/
def HUB_LAST_TIME_LO : Fld := ⟨.hub, 0x0C0, 0, 1, 0, 32, .ro, 0⟩
/-- HUB_LAST_TIME_HI.TIME (R535) -/
def HUB_LAST_TIME_HI : Fld := ⟨.hub, 0x0C4, 0, 1, 0, 32, .ro, 0⟩
/-- NVM_CNT_STORE.COUNT (R536) -/
def NVM_CNT_STORE : Fld := ⟨.nvm, 0x020, 0, 1, 0, 32, .w1c, 0⟩
/-- NVM_CNT_DIGEST_FAIL.COUNT (R536) -/
def NVM_CNT_DIGEST_FAIL : Fld := ⟨.nvm, 0x024, 0, 1, 0, 32, .w1c, 0⟩
/-- NVM_CNT_WRITE_ERR.COUNT (R536) -/
def NVM_CNT_WRITE_ERR : Fld := ⟨.nvm, 0x028, 0, 1, 0, 32, .w1c, 0⟩
/-- NVM_CMD.OP (R536) -/
def NVM_CMD_OP : Fld := ⟨.nvm, 0x040, 0, 1, 0, 4, .wo, 0⟩
/-- NVM_CMD.SECTION (R536) -/
def NVM_CMD_SECTION : Fld := ⟨.nvm, 0x040, 0, 1, 4, 4, .wo, 0⟩
/-- NVM_STATUS.STATE (R536) -/
def NVM_STATUS_STATE : Fld := ⟨.nvm, 0x044, 0, 1, 0, 2, .ro, 0⟩
/-- NVM_STATUS.REASON (R536) -/
def NVM_STATUS_REASON : Fld := ⟨.nvm, 0x044, 0, 1, 4, 4, .ro, 0⟩
/-- NVM_STATUS.SECTION (R536) -/
def NVM_STATUS_SECTION : Fld := ⟨.nvm, 0x044, 0, 1, 8, 4, .ro, 0⟩
/-- NVM_SECT.VALID (R536) -/
def NVM_SECT_VALID : Fld := ⟨.nvm, 0x080, 4, 10, 0, 1, .ro, 0⟩
/-- NVM_SECT.BANK (R536) -/
def NVM_SECT_BANK : Fld := ⟨.nvm, 0x080, 4, 10, 1, 1, .ro, 0⟩
/-- NVM_SECT.BLANK (R536) -/
def NVM_SECT_BLANK : Fld := ⟨.nvm, 0x080, 4, 10, 2, 1, .ro, 0⟩
/-- NVM_SECT.SEQ (R536) -/
def NVM_SECT_SEQ : Fld := ⟨.nvm, 0x080, 4, 10, 16, 16, .ro, 0⟩
/-- LCS_STATE.STATE (R537) -/
def LCS_STATE_STATE : Fld := ⟨.lcs, 0x040, 0, 1, 0, 3, .ro, 0⟩
/-- LCS_STATE.NEXT (R537) -/
def LCS_STATE_NEXT : Fld := ⟨.lcs, 0x040, 0, 1, 4, 3, .ro, 0⟩
/-- LCS_STATE.OWNED (R537) -/
def LCS_STATE_OWNED : Fld := ⟨.lcs, 0x040, 0, 1, 7, 1, .ro, 0⟩
/-- LCS_DEVICE_ID_LO.ID (R537) -/
def LCS_DEVICE_ID_LO : Fld := ⟨.lcs, 0x044, 0, 1, 0, 32, .ro, 0⟩
/-- LCS_DEVICE_ID_HI.ID (R537) -/
def LCS_DEVICE_ID_HI : Fld := ⟨.lcs, 0x048, 0, 1, 0, 32, .ro, 0⟩
/-- LCS_NONCE.NONCE (R537) -/
def LCS_NONCE : Fld := ⟨.lcs, 0x04C, 4, 4, 0, 32, .ro, 0⟩
/-- LCS_TOKEN_ADDR_LO.ADDR (R537) -/
def LCS_TOKEN_ADDR_LO : Fld := ⟨.lcs, 0x060, 0, 1, 6, 26, .rw, 0⟩
/-- LCS_TOKEN_ADDR_HI.ADDR (R537) -/
def LCS_TOKEN_ADDR_HI : Fld := ⟨.lcs, 0x064, 0, 1, 0, 32, .rw, 0⟩
/-- LCS_CTRL.SUBMIT (R537) -/
def LCS_CTRL_SUBMIT : Fld := ⟨.lcs, 0x068, 0, 1, 0, 1, .wo, 0⟩
/-- LCS_CTRL.EXIT_DEBUG (R537) -/
def LCS_CTRL_EXIT_DEBUG : Fld := ⟨.lcs, 0x068, 0, 1, 1, 1, .wo, 0⟩
/-- LCS_CTRL.CLAIM (R537) -/
def LCS_CTRL_CLAIM : Fld := ⟨.lcs, 0x068, 0, 1, 2, 1, .wo, 0⟩
/-- LCS_CTRL.CERT (R537) -/
def LCS_CTRL_CERT : Fld := ⟨.lcs, 0x068, 0, 1, 3, 1, .wo, 0⟩
/-- LCS_STATUS.STATE (R537) -/
def LCS_STATUS_STATE : Fld := ⟨.lcs, 0x06C, 0, 1, 0, 2, .ro, 0⟩
/-- LCS_STATUS.REASON (R537) -/
def LCS_STATUS_REASON : Fld := ⟨.lcs, 0x06C, 0, 1, 4, 4, .ro, 0⟩
/-- DDR_CNT_CORR.COUNT (R249) -/
def DDR_CNT_CORR : Fld := ⟨.ddr, 0x020, 0, 1, 0, 32, .w1c, 0⟩
/-- DDR_CNT_UNCORR_READ.COUNT (R249) -/
def DDR_CNT_UNCORR_READ : Fld := ⟨.ddr, 0x024, 0, 1, 0, 32, .w1c, 0⟩
/-- DDR_CNT_UNCORR_SCRUB.COUNT (R249) -/
def DDR_CNT_UNCORR_SCRUB : Fld := ⟨.ddr, 0x028, 0, 1, 0, 32, .w1c, 0⟩
/-- DDR_SCRUB.SCRUB_EN (R250) -/
def DDR_SCRUB_SCRUB_EN : Fld := ⟨.ddr, 0x044, 0, 1, 0, 1, .rw, 1⟩
/-- DDR_SCRUB.SCRUB_HOURS (R250) -/
def DDR_SCRUB_SCRUB_HOURS : Fld := ⟨.ddr, 0x044, 0, 1, 8, 8, .rw, 0x18⟩
/-- DDR_ECC_ADDR_LO.ADDR (R250) -/
def DDR_ECC_ADDR_LO : Fld := ⟨.ddr, 0x064, 0, 1, 0, 32, .ro, 0⟩
/-- DDR_ECC_ADDR_HI.ADDR (R250) -/
def DDR_ECC_ADDR_HI : Fld := ⟨.ddr, 0x068, 0, 1, 0, 32, .ro, 0⟩

end R

/-- The fields of the HUB block, from offset 0x020. -/
def Fld.ofHub : List Fld :=
  [R.HUB_GRADE_GRADE, R.HUB_GRADE_LCORES, R.HUB_GRADE_STEP_MINOR, R.HUB_GRADE_STEP_MAJOR, R.HUB_FUSE_ENGINES, 
   R.HUB_FUSE_PORTS, R.HUB_FUSE_CORE, R.HUB_JOKER_MAP_LO_L0, R.HUB_JOKER_MAP_LO_L1, R.HUB_JOKER_MAP_LO_L2, 
   R.HUB_JOKER_MAP_LO_L3, R.HUB_JOKER_MAP_LO_L4, R.HUB_JOKER_MAP_LO_L5, R.HUB_JOKER_MAP_LO_L6, 
   R.HUB_JOKER_MAP_LO_L7, R.HUB_JOKER_MAP_HI_L8, R.HUB_JOKER_MAP_HI_L9, R.HUB_JOKER_MAP_HI_RETIRED, 
   R.HUB_JOKER_MAP_HI_JOKERS, R.HUB_JOKER_MAP_HI_PENDING, R.HUB_BRINGUP_STATUS_AON_PCIE, 
   R.HUB_BRINGUP_STATUS_FIRMWARE, R.HUB_BRINGUP_STATUS_BIST, R.HUB_BRINGUP_STATUS_HBM, R.HUB_BRINGUP_STATUS_EVKAI, 
   R.HUB_BRINGUP_STATUS_TIME, R.HUB_BRINGUP_STATUS_DDR5, R.HUB_BRINGUP_STATUS_ANCHOR_OK, 
   R.HUB_BRINGUP_STATUS_SHORT, R.HUB_BRINGUP_STATUS_FULL, R.HUB_BRINGUP_STATUS_DEGRADED, 
   R.HUB_BRINGUP_DIES_BIST_OK, R.HUB_BRINGUP_DIES_HBM_OK, R.HUB_BRINGUP_CFG, R.HUB_RESET_CAUSE_CAUSE, 
   R.HUB_RESET_CAUSE_SAVED, R.HUB_RESET_CAUSE_TRIPPED, R.HUB_POWER_EVENT_SAG, R.HUB_POWER_EVENT_SAVE_DONE, 
   R.HUB_POWER_EVENT_AUX_LOW, R.HUB_POWER_EVENT_PWR_FAIL, R.HUB_FW_ADDR_LO, R.HUB_FW_ADDR_HI, R.HUB_FW_LEN, 
   R.HUB_FW_CTRL, R.HUB_FW_STATUS_STATE, R.HUB_FW_STATUS_REASON, R.HUB_FW_VERSION, R.HUB_FW_SVN_SVN, 
   R.HUB_FW_SVN_MIN_SVN, R.HUB_LAST_TIME_LO, R.HUB_LAST_TIME_HI]

/-- The fields of the AON block, from offset 0x020. -/
def Fld.ofAon : List Fld :=
  [R.AON_CNT_DOWN, R.AON_CNT_HUB_RESET, R.AON_STATUS_STATE, R.AON_STATUS_MISMATCH, R.AON_STATUS_WDOG, R.AON_CTRL, 
   R.AON_CFG_VECTOR, R.AON_CFG_WDOG_MS, R.AON_DOWN_TIME_LO, R.AON_DOWN_TIME_HI]

/-- The fields of the PLN block, from offset 0x020. -/
def Fld.ofPln : List Fld :=
  [R.PLN_LOAD_STATUS_STATE, R.PLN_LOAD_STATUS_REASON, R.PLN_LOAD_STATUS_CODE, R.PLN_LOAD_OFFSET_LO, 
   R.PLN_LOAD_OFFSET_HI, R.PLN_LOAD_WHERE_HAND, R.PLN_LOAD_WHERE_CORE, R.PLN_IMAGE_LO, R.PLN_IMAGE_HI, 
   R.PLN_CTRL_LOAD, R.PLN_CTRL_UNLOAD, R.PLN_IMAGE_STATE]

/-- The fields of the HIF block, from offset 0x020. -/
def Fld.ofHif : List Fld :=
  [R.HIF_CNT_BAD_ACCESS, R.HIF_CNT_NOMEM, R.HIF_CNT_CPL_TIMEOUT, R.HIF_CNT_CPL_ERROR, R.HIF_CNT_BAD_VECTOR, 
   R.HIF_LINK_SPEED, R.HIF_LINK_WIDTH, R.HIF_LINK_FLIT, R.HIF_APERTURE, R.HIF_AWAKE, R.HIF_SUBSYS_SVID, 
   R.HIF_SUBSYS_SSID, R.HIF_FUNC_PRESENT, R.HIF_FUNC_BME, R.HIF_FUNC_MSE, R.HIF_FUNC_D3HOT, R.HIF_FUNC_FLR_BUSY, 
   R.HIF_FUNC_MSIX_EN]

/-- The fields of the ATT block, from offset 0x020. -/
def Fld.ofAtt : List Fld :=
  [R.ATT_CTRL_REQUEST, R.ATT_CTRL_KIND, R.ATT_STATUS_STATE, R.ATT_STATUS_LENGTH, R.ATT_SEL, R.ATT_DATA, 
   R.ATT_NONCE]

/-- The fields of the NVM block, from offset 0x020. -/
def Fld.ofNvm : List Fld :=
  [R.NVM_CNT_STORE, R.NVM_CNT_DIGEST_FAIL, R.NVM_CNT_WRITE_ERR, R.NVM_CMD_OP, R.NVM_CMD_SECTION, 
   R.NVM_STATUS_STATE, R.NVM_STATUS_REASON, R.NVM_STATUS_SECTION, R.NVM_SECT_VALID, R.NVM_SECT_BANK, 
   R.NVM_SECT_BLANK, R.NVM_SECT_SEQ]

/-- The fields of the LCS block, from offset 0x020. -/
def Fld.ofLcs : List Fld :=
  [R.LCS_STATE_STATE, R.LCS_STATE_NEXT, R.LCS_STATE_OWNED, R.LCS_DEVICE_ID_LO, R.LCS_DEVICE_ID_HI, R.LCS_NONCE, 
   R.LCS_TOKEN_ADDR_LO, R.LCS_TOKEN_ADDR_HI, R.LCS_CTRL_SUBMIT, R.LCS_CTRL_EXIT_DEBUG, R.LCS_CTRL_CLAIM, 
   R.LCS_CTRL_CERT, R.LCS_STATUS_STATE, R.LCS_STATUS_REASON]

/-- The fields of the SRV block, from offset 0x020. -/
def Fld.ofSrv : List Fld :=
  [R.SRV_CNT_REFUSED, R.SRV_CNT_CANCEL, R.SRV_CNT_LATE_CANCEL, R.SRV_CNT_CPL_DROP, R.SRV_CNT_PAUSE, 
   R.SRV_BATCH_BASE_LO_VALID, R.SRV_BATCH_BASE_LO_ADDR, R.SRV_BATCH_BASE_HI, R.SRV_KV_CFG_PAGE_TILES, 
   R.SRV_KV_CFG_PAGE_TOKENS, R.SRV_KV_CFG_LIST_LINES, R.SRV_KV_PAGES, R.SRV_KV_FREE, R.SRV_LIVE, R.SRV_CLASS_PRIO, 
   R.SRV_GATE_HAND_HAND, R.SRV_GATE_HAND_VALID, R.SRV_GATE_COUNT, R.SRV_FUNC_EN, R.SRV_FUNC_DEVICE, 
   R.SRV_FUNC_DISABLING, R.SRV_STAKE_RATE, R.SRV_STAKE_BURST, R.SRV_STAKE_LEVEL, R.SRV_CPL_BASE_LO, 
   R.SRV_CPL_BASE_HI, R.SRV_CPL_CFG_SIZE, R.SRV_CPL_CFG_VECTOR, R.SRV_CPL_CFG_COUNT, R.SRV_CPL_CFG_TIMER, 
   R.SRV_CPL_WRITTEN, R.SRV_GROUP_ROWS, R.SRV_GROUP_REQS, R.SRV_GROUP_CHUNK]

/-- The fields of the WSL block, from offset 0x020. -/
def Fld.ofWsl : List Fld :=
  [R.WSL_CNT_CUT, R.WSL_CNT_STAGE, R.WSL_CNT_CONVERT, R.WSL_CMD_OP, R.WSL_CMD_PAIR, R.WSL_CMD_EPOCH, 
   R.WSL_CMD_STATUS_STATE, R.WSL_CMD_STATUS_REASON, R.WSL_RECORD_BASE_LO_VALID, R.WSL_RECORD_BASE_LO_ADDR, 
   R.WSL_RECORD_BASE_HI, R.WSL_CONVERT, R.WSL_PAIR_CFG, R.WSL_SLOT_EPOCH, R.WSL_SLOT_STATE_STATE, 
   R.WSL_SLOT_STATE_SEAT, R.WSL_SLOT_STATE_REFS]

/-- The fields of the DPL block, from offset 0x020. -/
def Fld.ofDpl : List Fld :=
  [R.DPL_CNT_ENLIST, R.DPL_CNT_FREED, R.DPL_CFG_SEATS, R.DPL_CFG_PAIR, R.DPL_SEAT_TILES, R.DPL_CMD_OP, 
   R.DPL_CMD_SEAT, R.DPL_CMD_ID, R.DPL_CMD_STATUS_STATE, R.DPL_CMD_STATUS_REASON, R.DPL_CMD_STATUS_VERSION, 
   R.DPL_SEAT_SEL, R.DPL_SEAT_INFO_STATE, R.DPL_SEAT_INFO_VERSION, R.DPL_SEAT_ID, R.DPL_SEAT_REFS, 
   R.DPL_PART_LO_VALID, R.DPL_PART_LO_ADDR, R.DPL_PART_HI]

/-- The fields of the PWR block, from offset 0x020. -/
def Fld.ofPwr : List Fld :=
  [R.PWR_CNT_DRIFT, R.PWR_CNT_DEFER, R.PWR_CNT_FSTEP, R.PWR_CNT_HOT, R.PWR_CNT_DROOP, R.PWR_CNT_MEAS_ERR, 
   R.PWR_LIMIT_CAP_W, R.PWR_LIMIT_WINDOW, R.PWR_CFG_MEAS_EN, R.PWR_CFG_BID_EN, R.PWR_CFG_GATE_EN, 
   R.PWR_CFG_HORIZON, R.PWR_CFG_STEP_PACE, R.PWR_RSV, R.PWR_FREQ, R.PWR_THERM_THROTTLE_C, R.PWR_THERM_TRIP_C, 
   R.PWR_DUMMY_FLOOR_PCT, R.PWR_GATE, R.PWR_HOLD_AWAKE, R.PWR_STATUS_DRIFT, R.PWR_STATUS_BID_FROZEN, 
   R.PWR_STATUS_MEAS_LOST, R.PWR_STATUS_HOT, R.PWR_STATUS_TRIPPED, R.PWR_STATUS_HOT_SEEN, R.PWR_CTRL_CLEAR_DRIFT, 
   R.PWR_CTRL_BID_RESET, R.PWR_USED_LO, R.PWR_USED_HI, R.PWR_SPEND_PS, R.PWR_SPEND_BC, R.PWR_POWER_EST, 
   R.PWR_POWER_MEAS, R.PWR_DRIFT_MS, R.PWR_BID_USED, R.PWR_BID_RESERVED_W, R.PWR_VR_ADDR, R.PWR_VR_VALID, 
   R.PWR_COEF, R.PWR_DIE_FLIMIT, R.PWR_DIE_PACE, R.PWR_DIE_HOT, R.PWR_DIE_GATED, R.PWR_DIE_TEMP]

/-- The fields of the FLT block, from offset 0x020. -/
def Fld.ofFlt : List Fld :=
  [R.FLT_CNT_FAULT, R.FLT_CNT_SWAP, R.FLT_CNT_CHECK, R.FLT_CNT_ASLEEP, R.FLT_CNT_RETURN, R.FLT_CFG_RETRY, 
   R.FLT_CFG_SWAP_EN, R.FLT_CFG_CHECK_EN, R.FLT_CFG_CHECK_GROUP, R.FLT_CFG_VECTOR, R.FLT_CHECK_PERIOD, 
   R.FLT_STATUS_PLAN_STOPPED, R.FLT_STATUS_SUSPECT, R.FLT_STATUS_MODE, R.FLT_STATUS_NO_JOKER, 
   R.FLT_STATUS_CHECK_PART, R.FLT_CTRL_RESUME, R.FLT_CTRL_RETIRE, R.FLT_CTRL_CHECK_NOW, R.FLT_CTRL_PART, 
   R.FLT_JRN_COUNT, R.FLT_JRN_SEL_ENTRY, R.FLT_JRN_SEL_WORD, R.FLT_JRN_DATA, R.FLT_HEALTH_CFG, R.FLT_HEALTH_WARN, 
   R.FLT_HEALTH_RETIRE, R.FLT_HEALTH_SEL, R.FLT_HEALTH_SCORE, R.FLT_STRAG_CFG_SLACK_US, R.FLT_STRAG_CFG_SHARE_PCT, 
   R.FLT_STRAG_CFG_WINDOW, R.FLT_STRAG_STAT_TRICKS, R.FLT_STRAG_STAT_NEAR]

/-- The fields of the TIM block, from offset 0x020. -/
def Fld.ofTim : List Fld :=
  [R.TIM_CNT_STEP, R.TIM_CNT_HOLDOVER, R.TIM_CNT_SWITCH, R.TIM_STATUS_STATE, R.TIM_STATUS_ALT, R.TIM_STATUS_PORT, 
   R.TIM_STATUS_STRATUM, R.TIM_STATUS_STEPPED, R.TIM_STATUS_HOLDOVER_SEEN, R.TIM_STATUS_PPS_LOST, 
   R.TIM_STATUS_STEP_PENDING, R.TIM_CFG_ROOT, R.TIM_CFG_EXT_EN, R.TIM_CFG_PARENT, R.TIM_CFG_PARENT_VALID, 
   R.TIM_CFG_ALT_PORT, R.TIM_CFG_ALT_VALID, R.TIM_CFG_INTERVAL, R.TIM_LIMITS_STEP_NS, R.TIM_LIMITS_SLEW_PPM, 
   R.TIM_LIMITS_LOCK_NS, R.TIM_NOW_LO, R.TIM_NOW_HI, R.TIM_SET_LO, R.TIM_SET_HI, R.TIM_CTRL_STEP, 
   R.TIM_CTRL_RELOCK, R.TIM_OFFSET, R.TIM_ASYM]

/-- The fields of the TRK block, from offset 0x020. -/
def Fld.ofTrk : List Fld :=
  [R.TRK_CNT_LATE, R.TRK_CNT_ABORT, R.TRK_CNT_BAD, R.TRK_DUMMY_STEP, R.TRK_DUMMY_MAX, R.TRK_DUMMY_EN, 
   R.TRK_TREE_PARENT, R.TRK_TREE_PARENT_VALID, R.TRK_TREE_MARGIN, R.TRK_TREE_CHILDREN, R.TRK_STATE_SERIAL, 
   R.TRK_STATE_TRICK, R.TRK_STATE_STATE, R.TRK_STATE_ROOT]

/-- The fields of the XPK block, from offset 0x020. -/
def Fld.ofXpk : List Fld :=
  [R.XPK_CNT_COMPARE, R.XPK_CNT_MISMATCH, R.XPK_CNT_BAD, R.XPK_CHIP, R.XPK_LOAD_STATE, R.XPK_LOAD_ABORT_HELD, 
   R.XPK_LOAD_ORIGIN, R.XPK_LOAD_CODE, R.XPK_VOTED_LO, R.XPK_VOTED_HI, R.XPK_CTRL_CLEAR, R.XPK_CTRL_SEARCH, 
   R.XPK_CTRL_RESUME, R.XPK_PCFG_EN, R.XPK_PCFG_PORT, R.XPK_PSTATUS_STATE, R.XPK_PSTATUS_GROUP, 
   R.XPK_DIV_WHERE_CORE, R.XPK_DIV_WHERE_ENGINE, R.XPK_DIV_WHERE_VALID, R.XPK_DIV_INDEX, R.XPK_DIV_PC, 
   R.XPK_DIV_HAND, R.XPK_DIV_DEAL, R.XPK_MINE_LO, R.XPK_MINE_HI, R.XPK_THEIRS_LO, R.XPK_THEIRS_HI]

/-- The fields of the SDG block, from offset 0x020. -/
def Fld.ofSdg : List Fld :=
  [R.SDG_DIGEST_LO, R.SDG_DIGEST_HI]

/-- The fields of the RTE block, from offset 0x020. -/
def Fld.ofRte : List Fld :=
  [R.RTE_ADDR, R.RTE_DATA_LO, R.RTE_DATA_HI, R.RTE_STATUS]

/-- The fields of the CLK block, from offset 0x020. -/
def Fld.ofClk : List Fld :=
  [R.CLK_STATUS_FREQ, R.CLK_STATUS_TARGET, R.CLK_STATUS_PLL, R.CLK_STATUS_RETUNING, R.CLK_STATUS_LOCAL, 
   R.CLK_SWITCHES, R.CLK_MAX_STOP]

/-- The fields of the HBM block, from offset 0x020. -/
def Fld.ofHbm : List Fld :=
  [R.HBM_CNT_CORR, R.HBM_CNT_UNCORR_READ, R.HBM_CNT_UNCORR_SCRUB, R.HBM_STATUS_TRAINED, R.HBM_STATUS_FAILED, 
   R.HBM_STATUS_SELF_REFRESH, R.HBM_CTRL_SCRUB_EN, R.HBM_CTRL_SCRUB_HOURS, R.HBM_ECC_INFO_UNIT, 
   R.HBM_ECC_INFO_SCRUB, R.HBM_ECC_INFO_VALID, R.HBM_ECC_ADDR_LO, R.HBM_ECC_ADDR_HI]

/-- The fields of the SEQ block, from offset 0x020. -/
def Fld.ofSeq : List Fld :=
  [R.SEQ_STATUS_STATE, R.SEQ_STATUS_HALTED, R.SEQ_STATUS_LOOPS, R.SEQ_STATUS_PRED, R.SEQ_PC, R.SEQ_HAND, 
   R.SEQ_FAULT_PC, R.SEQ_MARK_VALUE, R.SEQ_MARK_PC, R.SEQ_FAULT_CODE, R.SEQ_FAULT_ENGINE, 
   R.SEQ_FAULT_INFO_FLAG_VALUE, R.SEQ_FAULT_INFO_FLAG, R.SEQ_FAULT_INFO_AT_TRICK, R.SEQ_CTRL_RESUME, 
   R.SEQ_CTRL_MARK_EN, R.SEQ_MARK_TIME_LO, R.SEQ_MARK_TIME_HI]

/-- The fields of the SPM block, from offset 0x020. -/
def Fld.ofSpm : List Fld :=
  [R.SPM_CNT_COLLIDE, R.SPM_CNT_BOUNDS, R.SPM_CNT_ECC_CORR, R.SPM_CNT_ECC_UNCORR, R.SPM_CTRL_COLLIDE_FAULT, 
   R.SPM_CTRL_RETAIN, R.SPM_CTRL_AGE_LIMIT, R.SPM_STATUS_POWERED, R.SPM_STATUS_LOST, R.SPM_STATUS_CLEARING, 
   R.SPM_COLLIDE_INFO_TILE, R.SPM_COLLIDE_INFO_ROW, R.SPM_COLLIDE_INFO_READER, R.SPM_COLLIDE_INFO_WRITER, 
   R.SPM_COLLIDE_INFO_WW, R.SPM_COLLIDE_INFO_VALID, R.SPM_COLLIDE_PC, R.SPM_ECC_INFO_TILE, R.SPM_ECC_INFO_LINE, 
   R.SPM_ECC_INFO_VALID, R.SPM_WAIT_LO, R.SPM_WAIT_HI, R.SPM_PROMOTED, R.SPM_DBG_ADDR, R.SPM_DBG_DATA]

/-- The fields of the MXU block, from offset 0x020. -/
def Fld.ofMxu : List Fld :=
  [R.MXU_CNT_ABFT, R.MXU_CNT_OVERFLOW, R.MXU_CNT_STATE, R.MXU_CTRL_INJECT, R.MXU_CTRL_ABFT_DISABLE, 
   R.MXU_CTRL_BURN_DUTY, R.MXU_ABFT_INFO_BLOCK, R.MXU_ABFT_INFO_COLUMN, R.MXU_ABFT_INFO_MODE, 
   R.MXU_ABFT_INFO_VALID, R.MXU_ABFT_PC, R.MXU_ACTIVE_LO, R.MXU_ACTIVE_HI, R.MXU_BURN_LO, R.MXU_BURN_HI]

/-- The fields of the CMP block, from offset 0x020. -/
def Fld.ofCmp : List Fld :=
  [R.CMP_CNT_RED_OVERFLOW, R.CMP_CNT_DLT_OVERFLOW, R.CMP_BUSY_VXU, R.CMP_BUSY_XFN, R.CMP_BUSY_RED, R.CMP_BUSY_DLT, 
   R.CMP_BUSY_SMP, R.CMP_TOKENS]

/-- The fields of the SEA block, from offset 0x020. -/
def Fld.ofSea : List Fld :=
  [R.SEA_CNT_CRC, R.SEA_CNT_GEN, R.SEA_CNT_FMT, R.SEA_CNT_EPOCH, R.SEA_CNT_POISON, R.SEA_CNT_PROPAGATE, 
   R.SEA_CTRL, R.SEA_FAULT_INFO_ENGINE, R.SEA_FAULT_INFO_OPERAND, R.SEA_FAULT_INFO_SPACE, 
   R.SEA_FAULT_INFO_PARTIAL, R.SEA_FAULT_INFO_VALID, R.SEA_FAULT_ADDR_LO, R.SEA_FAULT_ADDR_HI, 
   R.SEA_FAULT_SEAL_LO, R.SEA_FAULT_SEAL_HI, R.SEA_FAULT_EXPECT_GEN, R.SEA_FAULT_EXPECT_FMT, 
   R.SEA_FAULT_EXPECT_SCALE, R.SEA_FAULT_EXPECT_EPOCH, R.SEA_FAULT_PC]

/-- The fields of the DMA block, from offset 0x020. -/
def Fld.ofDma : List Fld :=
  [R.DMA_CNT_HOST_DROP, R.DMA_CNT_HOST_ERR]

/-- The fields of the DDR block, from offset 0x020. -/
def Fld.ofDdr : List Fld :=
  [R.DDR_ECC_INFO_UNIT, R.DDR_ECC_INFO_SCRUB, R.DDR_ECC_INFO_VALID, R.DDR_STATUS_PRESENT, R.DDR_STATUS_TRAINED, 
   R.DDR_STATUS_FAILED, R.DDR_STATUS_MRDIMM, R.DDR_STATUS_TIER_READY, R.DDR_STATUS_RATE, R.DDR_STATUS_SIZE, 
   R.DDR_CFG_EIGHT, R.DDR_CFG_MAX_RATE, R.DDR_CTRL, R.DDR_CAPACITY_LO, R.DDR_CAPACITY_HI, R.DDR_CNT_CORR, 
   R.DDR_CNT_UNCORR_READ, R.DDR_CNT_UNCORR_SCRUB, R.DDR_SCRUB_SCRUB_EN, R.DDR_SCRUB_SCRUB_HOURS, 
   R.DDR_ECC_ADDR_LO, R.DDR_ECC_ADDR_HI]

/-- The fields of the LNK block, from offset 0x020. -/
def Fld.ofLnk : List Fld :=
  [R.LNK_CNT_FEC_CORR, R.LNK_CNT_FEC_UNCORR, R.LNK_CNT_CRC, R.LNK_CNT_REPLAY, R.LNK_CNT_OVERRUN, R.LNK_CNT_REDEAL, 
   R.LNK_CNT_DISCARD, R.LNK_CNT_STALE, R.LNK_STATUS_STATE, R.LNK_STATUS_LANES, R.LNK_STATUS_RATE, 
   R.LNK_STATUS_PEER_DDOWN, R.LNK_STATUS_NAK, R.LNK_CTRL_REDEAL, R.LNK_CTRL_TRAIN, R.LNK_CTRL_BIN_CLEAR, 
   R.LNK_CFG_MAX_RATE, R.LNK_CFG_LANE_MASK, R.LNK_CFG_ACK_TIMEOUT, R.LNK_CFG_OVR_BACKOFF, R.LNK_TRAIN_MAX_ERR, 
   R.LNK_RTT, R.LNK_PEER_CHIP_ID, R.LNK_PEER_PORT, R.LNK_PEER_VALID, R.LNK_SEQ_TX_NEXT, R.LNK_SEQ_RX_LAST, 
   R.LNK_REDEAL_INFO_CAUSE, R.LNK_REDEAL_INFO_FAILED, R.LNK_REDEAL_INFO_SEQ, R.LNK_LANE_CORR, 
   R.LNK_DISCARD_INFO_CORE, R.LNK_DISCARD_INFO_WINDOW, R.LNK_DISCARD_INFO_REASON, R.LNK_DISCARD_INFO_VALID, 
   R.LNK_BIN_STATUS_COUNT, R.LNK_BIN_STATUS_FULL, R.LNK_BIN_ADDR, R.LNK_BIN_DATA, R.LNK_WHEEL_FLOW, 
   R.LNK_WHEEL_VALID]

/-- The fields of the common header. -/
def Fld.header (b : Block) : List Fld :=
  [R.PAGE_CTRL_VECTOR b, R.PAGE_CTRL_MSG_EN b, R.EVT_STATUS b, R.EVT_ENABLE b, R.EVT_FIRST_CODE b]

/-- The fields of a block, header included. -/
def Fld.ofBlock (b : Block) : List Fld :=
  Fld.header b ++ match b with
  | .hub => Fld.ofHub
  | .aon => Fld.ofAon
  | .pln => Fld.ofPln
  | .hif => Fld.ofHif
  | .att => Fld.ofAtt
  | .nvm => Fld.ofNvm
  | .lcs => Fld.ofLcs
  | .srv => Fld.ofSrv
  | .wsl => Fld.ofWsl
  | .dpl => Fld.ofDpl
  | .pwr => Fld.ofPwr
  | .flt => Fld.ofFlt
  | .tim => Fld.ofTim
  | .trk => Fld.ofTrk
  | .xpk => Fld.ofXpk
  | .sdg => Fld.ofSdg
  | .rte => Fld.ofRte
  | .clk => Fld.ofClk
  | .hbm => Fld.ofHbm
  | .seq => Fld.ofSeq
  | .spm => Fld.ofSpm
  | .mxu => Fld.ofMxu
  | .cmp => Fld.ofCmp
  | .sea => Fld.ofSea
  | .dma => Fld.ofDma
  | .ddr => Fld.ofDdr
  | .lnk => Fld.ofLnk

end Sys2Proof.Machine
end

