-- ==== Sys2Proof/Machine/Wires.lean ====
section
/-! DEFINITION. The bridges and wires of the package (R11), and the paths through them that the spec fixes: those of DMA traffic (R230)
and of forwarded flits (R337).  Dies are numbered C0 to C15 as 0 to 15, P0 to P7 as 16 to 23, and the hub as 24 (R485). -/

namespace Sys2Proof.Machine

/-- The dies that each bridge joins, by bridge number (R11). -/
def bridges : List (Nat × Nat) :=
  (List.range 7).map (fun m => (m, m + 1)) ++ (List.range 7).map (fun m => (8 + m, 9 + m)) ++ (List.range 8).map (fun n => (n, n + 8)) ++
  [(16, 0), (17, 0), (24, 0), (24, 8), (18, 8), (19, 8), (16, 17), (17, 24), (24, 18), (18, 19), (20, 7), (21, 7), (22, 15), (23, 15),
   (20, 21), (21, 22), (22, 23)]

/-- The wire from one die to another (R11): twice the bridge's number, and 1 more for the direction from its second die to its first. -/
def wireOf (src dst : Nat) : Option Nat :=
  match bridges.findIdx? (fun b => b == (src, dst)) with
  | some i => some (2 * i)
  | none => (bridges.findIdx? (fun b => b == (dst, src))).map (fun i => 2 * i + 1)

/-- Whether a wire is one of a die's bridges. -/
def wireTouches (wire die : Nat) : Bool :=
  match bridges[wire / 2]? with
  | some b => b.1 == die || b.2 == die
  | none => false

/-- The C-dies from `a` along its row to a column (R230). -/
def rowTo (a col : Nat) : List Nat :=
  if a % 8 ≤ col then (List.range (col - a % 8 + 1)).map (fun i => a + i) else (List.range (a % 8 - col + 1)).map (fun i => a - i)

/-- The C-dies on the way from `a` to `b` (R230): along the row, then over the bridge between the rows. -/
def cPath (a b : Nat) : List Nat := rowTo a (b % 8) ++ (if a / 8 = b / 8 then [] else [b])

/-- The C-die that attaches a P-die (R230). -/
def attach (k : Nat) : Nat := [0, 0, 8, 8, 7, 7, 15, 15].getD k 0

/-- The dies on the path of DMA traffic from a core on C-die `a` to the die that serves the address (R230). -/
def dmaPath (a die : Nat) : List Nat :=
  if die < 16 then cPath a die
  else if die < 24 then cPath a (attach (die - 16)) ++ [die]
  else rowTo a 0 ++ [24]

/-- The dies of one end of the package, along its column (R337). -/
def endColumn (k : Nat) : List Nat := if k < 4 then [16, 17, 24, 18, 19] else [20, 21, 22, 23]

/-- The part of a list from one element to another, in their order. -/
def between (l : List Nat) (x y : Nat) : List Nat :=
  let i := l.findIdx (fun e => e == x)
  let j := l.findIdx (fun e => e == y)
  if i ≤ j then (l.drop i).take (j - i + 1) else ((l.drop j).take (i - j + 1)).reverse

/-- The dies on the transit path from P-die `pa` to P-die `pb` (R337). -/
def transitPath (pa pb : Nat) : List Nat :=
  if pa / 4 = pb / 4 then between (endColumn pa) (16 + pa) (16 + pb)
  else [16 + pa] ++ cPath (attach pa) (attach pb) ++ [16 + pb]

/-- The wires of a path. -/
def pathWires (dies : List Nat) : List (Option Nat) := (dies.zip (dies.drop 1)).map (fun x => wireOf x.1 x.2)

/-- The bridges that DMA traffic between a core's die and a serving die crosses. -/
def dmaHops (a die : Nat) : Nat := (dmaPath a die).length - 1

end Sys2Proof.Machine
end

