-- ==== Sys2Proof/Machine/Ops.lean ====
section
/-! DEFINITION. Named operations over the state: register fields, page events and messages, cores, memories and seals. -/

namespace Sys2Proof.Machine

/-! ## Register fields -/

/-- BAR0 offset of the page of instance `inst` of a block (R480, R485).  Instances: physical part `11 × die + core` for
core pages, C-die for CLK and HBM, P-die for DDR, port for LNK, 0 on the hub. -/
def Block.page (b : Block) (inst : Nat) : Nat :=
  let at' (die idx : Nat) : Nat := die * 0x800000 + idx * 0x1000
  let core (k : Nat) : Nat := at' (inst / 11) (0x100 + 0x10 * (inst % 11) + k)
  match b with
  | .hub => at' 24 0x000 | .aon => at' 24 0x001 | .pln => at' 24 0x002 | .hif => at' 24 0x003 | .att => at' 24 0x004
  | .nvm => at' 24 0x005 | .lcs => at' 24 0x006 | .srv => at' 24 0x007 | .wsl => at' 24 0x008 | .dpl => at' 24 0x009
  | .pwr => at' 24 0x00A | .flt => at' 24 0x00B | .tim => at' 24 0x00C | .trk => at' 24 0x00D | .xpk => at' 24 0x00E
  | .sdg => at' 24 0x00F | .rte => at' 24 0x010
  | .clk => at' inst 0x000 | .hbm => at' inst 0x001
  | .seq => core 0 | .spm => core 1 | .mxu => core 2 | .cmp => core 3 | .sea => core 4 | .dma => core 5
  | .ddr => at' (16 + inst) 0x000
  | .lnk => at' (16 + inst / 2) (1 + inst % 2)

/-- The key of a field: BAR0 offset of its register times 32, plus its least bit. -/
def Fld.key (f : Fld) (inst idx : Nat) : Nat := (f.blk.page inst + f.off + f.stride * idx) * 32 + f.lsb

/-- The value of a field as stored. -/
def State.rd (s : State) (f : Fld) (inst : Nat := 0) (idx : Nat := 0) : Nat := SMap.get f.reset s.regs (f.key inst idx)

/-- A field set to a value, cut to its width. -/
def State.wr (s : State) (f : Fld) (v : Nat) (inst : Nat := 0) (idx : Nat := 0) : State :=
  { s with regs := SMap.set f.reset s.regs (f.key inst idx) (v % 2 ^ f.width) }

/-- Whether a one-bit field is 1. -/
def State.on (s : State) (f : Fld) (inst : Nat := 0) (idx : Nat := 0) : Bool := s.rd f inst idx == 1

/-- A counter raised by `n`, saturating at all ones (R133 and the like). -/
def State.bumpBy (s : State) (f : Fld) (n : Nat) (inst : Nat := 0) (idx : Nat := 0) : State :=
  s.wr f (min (s.rd f inst idx + n) (2 ^ f.width - 1)) inst idx

/-- A counter raised by 1. -/
def State.bump (s : State) (f : Fld) (inst : Nat := 0) (idx : Nat := 0) : State := s.bumpBy f 1 inst idx

/-- A 64-bit counter in a LO/HI pair raised by `n`, modulo 2^64. -/
def State.bumpPair (s : State) (lo hi : Fld) (n : Nat) (inst : Nat := 0) : State :=
  let v := s.rd lo inst + 2 ^ 32 * s.rd hi inst + n
  (s.wr lo (v % 2 ^ 32) inst).wr hi (v / 2 ^ 32) inst

/-- A value put into a LO/HI pair. -/
def State.wrPair (s : State) (lo hi : Fld) (v : Nat) (inst : Nat := 0) (idx : Nat := 0) : State :=
  (s.wr lo (v % 2 ^ 32) inst idx).wr hi (v / 2 ^ 32) inst idx

/-- The value of a LO/HI pair. -/
def State.rdPair (s : State) (lo hi : Fld) (inst : Nat := 0) (idx : Nat := 0) : Nat :=
  s.rd lo inst idx * 2 ^ lo.lsb + 2 ^ 32 * s.rd hi inst idx

/-! ## Messages and page events (R484, R499) -/

/-- Something leaves the package. -/
def State.emit (s : State) (o : Out) : State := { s with outbox := s.outbox ++ [o] }

/-- Size of a function's MSI-X table (R478). -/
def msixSize (fn : Nat) : Nat := if fn = 0 then 2048 else 64

/-- The message of an MSI-X table entry: a write of its data to its address (R499). -/
def State.msixOut (s : State) (fn entry : Nat) : Out :=
  let w (i : Nat) : Nat := SMap.get 0 s.msixEntry (4 * (2048 * fn + entry) + i)
  .msix fn entry (w 0 + 2 ^ 32 * w 1) (w 2)

/-- An MSI-X message of function `fn` (R499): none while MSI-X Enable is 0; counted when the entry is outside the table;
held as a pending bit while the vector or the function is masked. -/
def State.msix (s : State) (fn entry : Nat) : State :=
  if s.rd R.HIF_FUNC_MSIX_EN 0 fn = 0 then s
  else if msixSize fn ≤ entry then s.bump R.HIF_CNT_BAD_VECTOR
  else if SMap.get true s.msixMask (2048 * fn + entry) || SMap.get false s.msixFnMask fn then
    { s with msixPend := SMap.set false s.msixPend (2048 * fn + entry) true }
  else s.emit (s.msixOut fn entry)

/-- The pending message of an entry, sent when nothing masks it and MSI-X Enable is set (R499). -/
def State.unmaskSend (s : State) (f entry : Nat) : State :=
  let k := 2048 * f + entry
  if !SMap.get false s.msixPend k || SMap.get true s.msixMask k || SMap.get false s.msixFnMask f || s.rd R.HIF_FUNC_MSIX_EN 0 f = 0 then s
  else ({ s with msixPend := SMap.set false s.msixPend k false }).emit (s.msixOut f entry)

/-- The pending messages of a function that nothing holds any longer are sent (R499). -/
def State.unmaskAll (s : State) (f : Nat) : State :=
  ((s.msixPend.filter (fun e => e.1 / 2048 == f)).map (fun e => e.1 % 2048)).foldl (fun s e => s.unmaskSend f e) s

/-- MSI-X Enable and the function mask of a function as software sets them (R499). -/
def State.msixControl (s : State) (f : Nat) (en masked : Bool) : State :=
  let s1 := s.wr R.HIF_FUNC_MSIX_EN (ofBool en) 0 f
  ({ s1 with msixFnMask := SMap.set false s1.msixFnMask f masked }).unmaskAll f

/-! ## Configuration spaces (R475, R498) -/

/-- The configuration space of a function. -/
def State.fnCfg (s : State) (f : Nat) : PcieFn := SMap.get PcieFn.reset s.pcie f

/-- The configuration space of a function changed. -/
def State.onFn (s : State) (f : Nat) (g : PcieFn → PcieFn) : State := { s with pcie := SMap.set PcieFn.reset s.pcie f (g (s.fnCfg f)) }

/-- An uncorrectable error logged in the AER capability of a function (R498), by its bit in the standard (PRESUMED, log entry 141). -/
def State.aerLog (s : State) (f bit : Nat) : State := s.onFn f (fun x => { x with aer := x.aer ||| 2 ^ bit })

/-- Ticks after which a read of a function times out at the latest, by its Completion Timeout Value (R498): 10 ms by default, the other values as the
standard has them (PRESUMED, log entry 141). -/
def PcieFn.timeoutTicks (x : PcieFn) : Nat :=
  match x.timeout with
  | 0x1 => 100000
  | 0x5 => 55000000
  | 0x6 => 210000000
  | 0x9 => 900000000
  | 0xA => 3500000000
  | 0xD => 13000000000
  | 0xE => 64000000000
  | _ => 10000000

/-- PENDING of a page (R483). -/
def State.pagePending (s : State) (b : Block) (inst : Nat) : Bool :=
  (s.rd (R.EVT_STATUS b) inst) &&& (s.rd (R.EVT_ENABLE b) inst) != 0

/-- The condition PENDING AND MSG_EN of a page (R484). -/
def State.pageCond (s : State) (b : Block) (inst : Nat) : Bool :=
  s.pagePending b inst && s.on (R.PAGE_CTRL_MSG_EN b) inst

/-- The page message, when the condition has become true between two states (R484). -/
def State.pageMsg (old new : State) (b : Block) (inst : Nat) : State :=
  if !old.pageCond b inst && new.pageCond b inst then new.msix 0 (new.rd (R.PAGE_CTRL_VECTOR b) inst) else new

/-- Page events `mask` set, with the code of the lowest of them for EVT_FIRST (R484). -/
def State.setEvents (s : State) (b : Block) (inst mask code : Nat) : State :=
  let s1 := s.wr (R.EVT_STATUS b) ((s.rd (R.EVT_STATUS b) inst) ||| mask) inst
  let s2 := if s1.rd (R.EVT_FIRST_CODE b) inst = 0 then s1.wr (R.EVT_FIRST_CODE b) code inst else s1
  State.pageMsg s s2 b inst

/-- One page event raised (R484). -/
def State.raiseEvt (s : State) (b : Block) (inst bit code : Nat) : State := s.setEvents b inst (2 ^ bit) code

/-- Whether an event bit of a page is set. -/
def State.evt (s : State) (b : Block) (inst bit : Nat) : Bool := bitOf (s.rd (R.EVT_STATUS b) inst) bit

/-! ## Free values -/

/-- A fresh free truth value and the state with the counter advanced. -/
def State.freshBool (s : State) : Bool × State := (Config.freeBool s.free, { s with free := s.free + 1 })

/-- A fresh free number and the state with the counter advanced. -/
def State.freshNat (s : State) : Nat × State := (Config.freeNat s.free, { s with free := s.free + 1 })

/-! ## Cores, flags and the hand of a core -/

/-- The core record of physical part `p`. -/
def State.core (s : State) (p : Nat) : Core := SMap.get Core.reset s.cores p

/-- The core record of part `p` replaced. -/
def State.setCore (s : State) (p : Nat) (c : Core) : State := { s with cores := SMap.set Core.reset s.cores p c }

/-- A change of the core record of part `p`. -/
def State.onCore (s : State) (p : Nat) (f : Core → Core) : State := s.setCore p (f (s.core p))

/-- An engine of a core (1 to 8). -/
def Core.engine (c : Core) (e : Nat) : Engine := SMap.get Engine.empty c.eng e

/-- An engine of a core replaced. -/
def Core.setEngine (c : Core) (e : Nat) (x : Engine) : Core := { c with eng := SMap.set Engine.empty c.eng e x }

/-- A flag of a core (R53). -/
def Core.flag (c : Core) (i : Nat) : Nat := SMap.get 0 c.flags i

/-- A signal to a flag: the increment added modulo 65,536 (R53). -/
def Core.signal (c : Core) (i inc : Nat) : Core := { c with flags := SMap.set 0 c.flags i ((c.flag i + inc) % 65536) }

/-- A region window of a core (R48: closed until opened). -/
def Core.window (c : Core) (w : Nat) : Window := SMap.get Window.closed c.windows w

/-- A window replaced. -/
def Core.setWindow (c : Core) (w : Nat) (x : Window) : Core := { c with windows := SMap.set Window.closed c.windows w x }

/-- An address-generator slot. -/
def Core.slot (c : Core) (i : Nat) : AdgSlot := SMap.get AdgSlot.zero c.adg i

/-- A stationary buffer. -/
def Core.buf (c : Core) (i : Nat) : StatBuf := SMap.get StatBuf.empty c.bufs i

/-- An accumulator block. -/
def Core.block (c : Core) (i : Nat) : AccBlock := SMap.get AccBlock.empty c.blocks i

/-- An accumulator block replaced. -/
def Core.setBlock (c : Core) (i : Nat) (b : AccBlock) : Core := { c with blocks := SMap.set AccBlock.empty c.blocks i b }

/-- The hand record that a core runs. -/
def State.handOf (s : State) (c : Core) : Option Hand :=
  match c.member, s.image with
  | some m, some im => im.hands[m.hand]?
  | _, _ => none

/-- The header of the hand that a core runs; zeros when there is none. -/
def State.hdrOf (s : State) (c : Core) : HandHdr := ((s.handOf c).map (·.hdr)).getD HandHdr.zero

/-- The stream entry of a core in its hand. -/
def State.streamOf (s : State) (c : Core) : Option StreamEnt :=
  match c.member, s.handOf c with
  | some m, some h => h.streams.find? (fun e => e.core == m.logical)
  | _, _ => none

/-- Whether a core region is gated, its wake not completed (R488). -/
def Core.gatedNow (c : Core) : Bool := c.region == .gated || c.region == .waking

/-- A core region power-gates (R129, R130): with retention when RETAIN is 1 or the core's last hand did not end at a checkpoint trick; else
its contents are lost from then on.  A region that is gated already stays as its gating left it. -/
def State.gateRegion (s : State) (p : Nat) : State :=
  if (s.core p).gatedNow then s.onCore p (fun c => { c with region := .gated, regionAt := s.tick })
  else
  let keep := s.on R.SPM_CTRL_RETAIN p || !(s.core p).ckptEnd
  ((s.onCore p (fun c => { c with region := .gated, regionAt := s.tick, retained := keep })).wr R.SPM_STATUS_POWERED 0 p).wr
    R.SPM_STATUS_LOST (ofBool !keep) p

/-- The declared epoch of a weight slot in the dealing of a core (R37). -/
def Core.epochOf (c : Core) (ws : Nat) : Nat := ((c.member).map (fun m => m.epochs.getD ws 0)).getD 0

/-- The epoch that a slot expects and writes, modulo 256 (R95, R99, R205). -/
def Core.slotEpoch (c : Core) (a : AdgSlot) : Nat :=
  match a.epochSrc with
  | 1 => c.epochOf a.wslot % 256
  | 2 => a.epochVal
  | _ => 0

/-! ## Logical and physical cores, dies and their time (R14, R16, R303) -/

/-- The joker map of a C-die. -/
def State.jmap (s : State) (die : Nat) : JokerMap := s.flt.maps.getD die ⟨[], [], 0, false⟩

/-- The physical part that holds package-wide logical index `i` (R14, R452); none when it is absent on the grade. -/
def State.partOf (s : State) (i : Nat) : Option Nat := ((s.jmap (i / 10)).phys[i % 10]?).map (fun c => 11 * (i / 10) + c)

/-- The package-wide logical index that a physical part holds; none for a joker or a retired core. -/
def State.logicalOf (s : State) (p : Nat) : Option Nat :=
  ((s.jmap (p / 11)).phys.findIdx? (fun c => c == p % 11)).map (fun l => 10 * (p / 11) + l)

/-- Whether a logical index exists on the grade (R14). -/
def State.hasLogical (s : State) (i : Nat) : Bool := decide (i < 160) && decide (i % 10 < s.fuses.lcores)

/-- A die record. -/
def State.die (s : State) (d : Nat) : Die := SMap.get Die.reset s.dies d

/-- A change of a die record. -/
def State.onDie (s : State) (d : Nat) (f : Die → Die) : State := { s with dies := SMap.set Die.reset s.dies d (f (s.die d)) }

/-- A 64-bit count of nanoseconds (R302). -/
def wrap64 (t : Int) : Nat := (t % 2 ^ 64).toNat

/-- TABLE_TIME as a die's copy shows it (R302, R303). -/
def State.dieTime (s : State) (d : Nat) : Nat := wrap64 ((s.time : Int) + (s.die d).offset - (s.die d).owed)

/-! ## Time passing (R302, R304, R308) -/

/-- TABLE_TIME, its sixteenths and the part of the rate correction carried over, `n` ticks later (R302, R308): one count for each
tick, more or less by the correction in force. -/
def State.advanceTime (s : State) (n : Nat) : State :=
  let a := s.timing.slewAcc + s.timing.slew * (n : Int)
  let r := a % 1000000
  { s with time := wrap64 ((s.time : Int) + (n : Int) + a / 1000000),
           timing := { s.timing with slewAcc := r, sub := r.toNat / 62500 } }

/-- `n` ticks pass.  TABLE_TIME stands still while the package is held in reset; while SYSREF is absent, from which its domain
derives (R542), it may miss any number of them, a free value (DESIGN CHOICE, log entry 25). -/
def State.elapse (s : State) (n : Nat) : State :=
  let s1 := { s with tick := s.tick + n }
  if s.pkg == .held then s1
  else if s.osc then ({ s1 with free := s1.free + 1 }).advanceTime (n - Config.freeNat s1.free)
  else s1.advanceTime n

/-- The clock runs up to tick `t`: a command that stands for the expiry of a timer comes no earlier than its limit (DESIGN CHOICE,
log entry 24). -/
def State.waitUntil (s : State) (t : Nat) : State := if s.tick < t then s.elapse (t - s.tick) else s

/-- The ticks after which TABLE_TIME has gone on by `k` or more, with the rate correction in force (R308). -/
def TimeSt.ticksFor (x : TimeSt) (k : Int) : Nat :=
  if k ≤ 0 then 0 else ((k * 1000000 - x.slewAcc + (999999 + x.slew)) / (1000000 + x.slew)).toNat

/-- The clock runs until the copy of a die shows `t` or more. -/
def State.waitDie (s : State) (d : Nat) (t : Int) : State :=
  let n := s.timing.ticksFor (t - (s.dieTime d : Int))
  if n = 0 then s else s.elapse n

/-- Whether the package runs: not held in reset, tripped, sagged or with its dealer down (R435, R467, R522). -/
def State.up (s : State) : Bool := s.pkg == .running

/-- Whether the links run: not held in reset, tripped or stopped by a sag (R435, R467, R468, R522). -/
def State.linkLive (s : State) : Bool := s.pkg == .running || s.pkg == .down || s.pkg == .hubReset

/-- Whether the dealer acts: the package runs and its firmware runs (R467, R514). -/
def State.dealerUp (s : State) : Bool := s.up && s.rd R.HUB_FW_STATUS_STATE == 3

/-- A trick group. -/
def State.group (s : State) (g : Nat) : Group := SMap.get Group.reset s.groups g

/-- A change of a trick group. -/
def State.onGroup (s : State) (g : Nat) (f : Group → Group) : State :=
  { s with groups := SMap.set Group.reset s.groups g (f (s.group g)) }

/-- An Evkai port. -/
def State.port (s : State) (p : Nat) : Port := SMap.get Port.reset s.ports p

/-- A change of an Evkai port. -/
def State.onPort (s : State) (p : Nat) (f : Port → Port) : State := { s with ports := SMap.set Port.reset s.ports p (f (s.port p)) }

/-- Whether the package follows a port: ACQUIRE, LOCKED or HOLDOVER (R305). -/
def State.follows (s : State) : Bool := s.rd R.TIM_STATUS_STATE == 1 || s.rd R.TIM_STATUS_STATE == 2 || s.rd R.TIM_STATUS_STATE == 3

/-- Whether a port is fused off (R18, R24). -/
def State.portAbsent (s : State) (p : Nat) : Bool := bitOf s.fuses.ports p

/-- Whether a port is ACTIVE (R298). -/
def State.portActive (s : State) (p : Nat) : Bool := s.rd R.LNK_STATUS_STATE p == 5

/-- Chip identifier of the package (R330). -/
def State.chipId (s : State) : Nat := s.rd R.XPK_CHIP

/-! ## What the port answers (R486, R487) -/

/-- Whether a die is awake; the hub always is (R487). -/
def State.awake (s : State) (d : Nat) : Bool := d == 24 || (s.die d).power == .awake

/-- The die of a block's instance (R485). -/
def Block.die (b : Block) (inst : Nat) : Nat := b.page inst / 0x800000

/-- Whether the PCI Express link is up and its port has not been switched off by a sag of the auxiliary input (R504, R508, R548): configuration
requests are answered (R486). -/
def State.pcieUp (s : State) : Bool :=
  s.pkg != .held && s.on R.HUB_BRINGUP_STATUS_AON_PCIE && !(s.pkg == .sagged && s.on R.HUB_POWER_EVENT_AUX_LOW) && s.rd R.HIF_LINK_SPEED != 0

/-- Whether a function is there (R475, R504). -/
def State.fnPresent (s : State) (f : Nat) : Bool := f == 0 || s.on R.HIF_FUNC_PRESENT 0 f

/-- Whether memory requests to a function reach it: it is there and not in D3hot (R476, R486). -/
def State.fnReached (s : State) (f : Nat) : Bool := s.pcieUp && s.fnPresent f && !s.on R.HIF_FUNC_D3HOT 0 f

/-- Whether requests of the physical function reach the package (R476, R486, R508). -/
def State.reached (s : State) : Bool := s.fnReached 0

/-- Whether BAR0 accesses to a block's pages are answered in the package's state, sleep apart (R486): the HUB and AON pages
once the link is up, the PWR page also when tripped or stopped by a sag (R524), every other page while the firmware runs. -/
def State.answers (s : State) (b : Block) : Bool :=
  s.reached &&
  match b with
  | .hub | .aon => true
  | .pwr => s.dealerUp || s.pkg == .tripped || s.pkg == .sagged
  | _ => s.dealerUp

/-- An access to an asleep die (R487). -/
def State.asleepAccess (s : State) : State := (s.bump R.FLT_CNT_ASLEEP).raiseEvt .flt 0 5 0x0B02

/-- A host write of a register with behaviour of its own: dropped where the page is not answered or its die sleeps, else
`act` (R486, R487). -/
def State.hostCmd (s : State) (b : Block) (inst : Nat) (act : State → State) : State :=
  if !s.answers b then s
  else if !s.awake (b.die inst) then s.asleepAccess
  else act s

/-- A host read of a page: 0xFFFF_FFFF where the page is not answered or its die sleeps, else what `act` answers (R486, R487). -/
def State.hostLoad (s : State) (b : Block) (inst : Nat) (act : State → Nat × State) : State :=
  if !s.reached then s
  else if !s.answers b then s.emit (.readData 0xFFFFFFFF)
  else if !s.awake (b.die inst) then s.asleepAccess.emit (.readData 0xFFFFFFFF)
  else (act s).2.emit (.readData (act s).1)

/-- Whether a plan image is loaded (R494). -/
def State.loaded (s : State) : Bool := s.rd R.PLN_IMAGE_STATE == 1 || s.rd R.PLN_IMAGE_STATE == 2

/-! ## Slot wheels (R11, R231, R337) -/

/-- The owner of a slot of a wheel: slots 60 to 63 of a wire belong to transit at all times (R337). -/
def State.slotOwner (s : State) (wheel slot : Nat) : SlotOwner :=
  if wheel < 78 ∧ 60 ≤ slot then .transit else SMap.get .free s.wheels (64 * wheel + slot)

/-- Whether a slot of a wheel can be given to a flow of a hand (R231): one of the 78 wires but for their transit slots, or of the eight
DDR5 channels. -/
def slotGivable (wheel slot : Nat) : Bool := decide (wheel < 86) && decide (slot < (if wheel < 78 then 60 else 64))

/-- The slots of the dealing of a group taken back (R51, R231). -/
def State.freeSlots (s : State) (g : Nat) : State :=
  { s with wheels := s.wheels.filter (fun e => match e.2 with | .flow h _ _ => h != g | _ => true) }

/-- The slots that the plan image directs for a hand given to its flows (R231); the image's layout has no field for them, so which they are
is open (log entry 105). -/
def State.giveSlots (s : State) (g serial handId : Nat) : State :=
  ((Config.wheelSlots handId).filter (fun x => slotGivable x.1 x.2.1)).foldl (fun s x =>
    { s with wheels := SMap.set .free s.wheels (64 * x.1 + x.2.1) (.flow g serial x.2.2) }) (s.freeSlots g)

/-! ## Energy events (R421) -/

/-- `n` events of an index counted for a unit. -/
def State.tally (s : State) (u i n : Nat) : State := { s with events := SMap.set 0 s.events (32 * u + i) (SMap.get 0 s.events (32 * u + i) + n) }

/-- The lines and bytes that an access of a core moves, and the bridges they cross on the path of R230 (R421 indices 6 to 9). -/
def State.tallyAccess (s : State) (p : Nat) (sp : Space) (a n : Nat) : State :=
  let lines := (a + n + 63) / 64 - a / 64
  match sp with
  | .spm => s.tally p 6 lines
  | .hbm => (s.tally p 7 n).tally p 9 (lines * dmaHops (p / 11) (a / 2 ^ 36))
  | .ddr =>
    let ch := a / 4096 % (if s.on R.DDR_STATUS_TRAINED 4 then 8 else 4)
    (s.tally p 8 n).tally p 9 (lines * dmaHops (p / 11) (16 + ch))
  | .host => s.tally p 9 (lines * dmaHops (p / 11) 24)

/-- The bytes that an access of the hub to a stack moves, and the bridges they cross (R421 indices 7 and 9; R230). -/
def State.tallyHub (s : State) (a n : Nat) : State :=
  (s.tally 184 7 n).tally 184 9 (((a + n + 63) / 64 - a / 64) * dmaHops (a / 2 ^ 36) 24)

/-! ## Seals (R203, R204) -/

/-- The poison seal (R204). -/
def poisonSeal : Seal := 0x8000000000000000#64

/-- A seal with VALID 0 and POISON 0 (R204). -/
def blankSeal : Seal := 0#64

/-- A valid seal from its fields (R203). -/
def mkSeal (crc gen fmt scale epoch : Nat) (poison : Bool) : Seal :=
  BitVec.ofNat 64 (crc + 2 ^ 32 * gen + 2 ^ 48 * fmt + 2 ^ 52 * scale + 2 ^ 54 * epoch + 2 ^ 62 +
    (if poison then 2 ^ 63 else 0))

def sealCrc (x : Seal) : Nat := bitsOf x.toNat 0 32
def sealGen (x : Seal) : Nat := bitsOf x.toNat 32 16
def sealFmt (x : Seal) : Nat := bitsOf x.toNat 48 4
def sealScale (x : Seal) : Nat := bitsOf x.toNat 52 2
def sealEpoch (x : Seal) : Nat := bitsOf x.toNat 54 8
def sealValid (x : Seal) : Bool := bitOf x.toNat 62
def sealPoison (x : Seal) : Bool := bitOf x.toNat 63

/-- A seal with POISON set and VALID as it was; bits [61:0] are 0 when VALID is 0 (R204, R219). -/
def sealSetPoison (x : Seal) : Seal := x ||| poisonSeal

/-- The seal of a tile written in part, or whole without WSEAL: VALID 0, with the POISON given (R206). -/
def unsealed (poison : Bool) : Seal := if poison then poisonSeal else blankSeal

/-- A host seal of a content (R210). -/
def hostSeal (content : List Byte) : Seal := mkSeal (crc32c content) 0 0 0 0 false

/-! ## Memories -/

/-- End of the data range of one stack (R227). -/
def stackEnd : Nat := 0xBFA000000

/-- Whether a device address holds memory (R227). -/
def hbmHolds (a : Nat) : Bool := decide (a < 2 ^ 40) && decide (a % 2 ^ 36 < stackEnd)

/-- The stack of a device address (R227). -/
def stackOf (a : Nat) : Nat := a / 2 ^ 36

/-- Keys of stored errors of one kind in a range of words. -/
def errsIn (m : SMap MemErr) (lo hi : Nat) (k : MemErr) : List Nat :=
  (m.filter (fun e => decide (lo ≤ e.1) && decide (e.1 < hi) && e.2 == k)).map (·.1)

/-- Stored errors of the words of a tier that a write covers cleared; a hard error stays (R232). -/
def clearErrs (m : SMap MemErr) (lo hi : Nat) : SMap MemErr :=
  m.filter (fun e => !(decide (lo ≤ e.1) && decide (e.1 < hi) && e.2 != .hard))

/-- The bytes of a range with the 64-byte lines that hold an uncorrectable word delivered as zeros (R218); `bad` holds
the line numbers. -/
def zeroLines (a : Nat) (bs : List Byte) (bad : List Nat) : List Byte :=
  (bs.zipIdx).map (fun x => if bad.contains ((a + x.2) / 64) then 0#8 else x.1)

/-- Bytes of a tier; an unlisted byte reads 0. -/
def Tier.read (t : Tier) (a n : Nat) : List Byte := SMap.getRun 0#8 t.bytes a n

/-- Bytes of a tier written; stored errors of the words that the write covers are cleared (R232). -/
def Tier.write (t : Tier) (a : Nat) (bs : List Byte) : Tier :=
  { t with bytes := SMap.setRun 0#8 t.bytes a bs, err := clearErrs t.err ((a + 31) / 32) ((a + bs.length) / 32) }

/-- Bytes of a tier as a read delivers them: the lines that hold an uncorrectable word as zeros (R218). -/
def Tier.delivered (t : Tier) (a n : Nat) : List Byte :=
  zeroLines a (t.read a n) ((errsIn t.err (a / 64 * 2) ((a + n + 63) / 64 * 2) .uncorr).map (fun w => w / 2))

/-- The seal of the tile at an address; an unlisted seal is the poison seal (R236, R241). -/
def Tier.sealAt (t : Tier) (a : Nat) : Seal := SMap.get poisonSeal t.seals (a / 4096)

/-- The seal of the tile at an address replaced. -/
def Tier.setSeal (t : Tier) (a : Nat) (x : Seal) : Tier := { t with seals := SMap.set poisonSeal t.seals (a / 4096) x }

/-- Bytes of a core's scratchpad; an unlisted byte is 0 (R130). -/
def Core.spmRead (c : Core) (a n : Nat) : List Byte := SMap.getRun 0#8 c.spm a n

/-- Bytes of a core's scratchpad written. -/
def Core.spmWrite (c : Core) (a : Nat) (bs : List Byte) : Core := { c with spm := SMap.setRun 0#8 c.spm a bs }

/-- The seal of the scratchpad tile at an address; an unlisted seal is the poison seal (R130). -/
def Core.sealAt (c : Core) (a : Nat) : Seal := SMap.get poisonSeal c.seals (a / 4096)

/-- The seal of the scratchpad tile at an address replaced. -/
def Core.setSeal (c : Core) (a : Nat) (x : Seal) : Core := { c with seals := SMap.set poisonSeal c.seals (a / 4096) x }

/-- The seal of a tile (R211); host memory holds none (R210). -/
def State.sealOf (s : State) (p : Nat) (t : TileAt) : Seal :=
  match t.space with
  | .spm => (s.core p).sealAt t.addr
  | .hbm => s.hbm.sealAt t.addr
  | .ddr => s.ddr.sealAt t.addr
  | .host => blankSeal

/-- The seal of a tile replaced; a write to host memory discards the seal (R210). -/
def State.setSealOf (s : State) (p : Nat) (t : TileAt) (x : Seal) : State :=
  match t.space with
  | .spm => s.onCore p (fun c => c.setSeal t.addr x)
  | .hbm => { s with hbm := s.hbm.setSeal t.addr x }
  | .ddr => { s with ddr := s.ddr.setSeal t.addr x }
  | .host => s

/-- A tile poisoned: the poison seal takes its place (R69, R181, R204). -/
def State.poisonTile (s : State) (p : Nat) (t : TileAt) : State := s.setSealOf p t poisonSeal

/-- Several tiles poisoned. -/
def State.poisonTiles (s : State) (p : Nat) : List TileAt → State
  | [] => s
  | t :: ts => (s.poisonTile p t).poisonTiles p ts

/-- The number of used DDR5 channels that DDR_CFG asks for at the next training (R239, R251). -/
def State.ddrAsked (s : State) : Nat := if s.on R.DDR_CFG_EIGHT then 8 else 4

/-- The number of used DDR5 channels (R239): those of the last training while the tier is ready, since a change of DDR_CFG takes effect
at the next (R251). -/
def State.ddrChannels (s : State) : Nat :=
  if s.on R.DDR_STATUS_TIER_READY 0 then (if s.on R.DDR_STATUS_TRAINED 4 then 8 else 4) else s.ddrAsked

/-- Capacity of the DDR5 tier (R240); 0 while the tier is not ready. -/
def State.ddrCapacity (s : State) : Nat := s.rdPair R.DDR_CAPACITY_LO R.DDR_CAPACITY_HI

end Sys2Proof.Machine
end

