-- ==== Sys2Proof/Machine/Nvm.lean ====
section
/-! DEFINITION. MRAM (R518 to R521): sections and their banks, what a store captures, requests that wait, and the values that
a package reset takes from the sections. -/

namespace Sys2Proof.Machine

/-! ## NV fields of a section (R518) -/

/-- Every NV field of a list of fields, with its instance and index. -/
def nvOf (fs : List Fld) (insts : Nat) : List (Fld × Nat × Nat) :=
  (fs.filter (fun f => f.acc = .nv)).flatMap (fun f =>
    (List.range insts).flatMap (fun i => (List.range f.count).map (fun k => (f, i, k))))

/-- The NV fields that a section holds (R518): 0x2 LINK, 0x3 ENERGY, 0x6 OWNER. -/
def nvFields (sect : Nat) : List (Fld × Nat × Nat) :=
  match sect with
  | 2 => nvOf Fld.ofLnk 16 ++ nvOf [R.TIM_ASYM] 1
  | 3 => nvOf [R.PWR_COEF] 1
  | 6 => nvOf (Fld.ofPwr.filter (fun f => decide (f ≠ R.PWR_COEF))) 1 ++ nvOf Fld.ofDdr 1 ++
      nvOf (Fld.ofTim.filter (fun f => decide (f ≠ R.TIM_ASYM))) 1 ++ nvOf Fld.ofFlt 1 ++ nvOf Fld.ofHif 1 ++ nvOf Fld.ofHub 1
  | _ => []

/-- The Reset value of an NV field (R7). -/
def nvReset (f : Fld) (i : Nat) : Nat := if f = R.PWR_COEF then coefDefault i else f.reset

/-! ## What a section holds -/

/-- HUB_JOKER_MAP_LO of a map (R466). -/
def JokerMap.lo (m : JokerMap) : Nat :=
  ((List.range 8).map (fun l => 2 ^ (4 * l) * (m.phys.getD l 0xF))).sum

/-- HUB_JOKER_MAP_HI of a map (R466). -/
def JokerMap.hi (m : JokerMap) : Nat :=
  m.phys.getD 8 0xF + 2 ^ 4 * m.phys.getD 9 0xF +
  2 ^ 8 * (((List.range 11).filter (fun c => m.retired.contains c)).map (fun c => 2 ^ c)).sum +
  2 ^ 19 * m.jokers + 2 ^ 23 * ofBool m.waits

/-- The map of the two words. -/
def JokerMap.ofWords (lo hi : Nat) : JokerMap where
  phys := (((List.range 8).map (fun l => bitsOf lo (4 * l) 4)) ++ [bitsOf hi 0 4, bitsOf hi 4 4]).filter (fun c => decide (c < 11))
  retired := (List.range 11).filter (fun c => bitOf hi (8 + c))
  jokers := bitsOf hi 19 4
  waits := bitOf hi 23

/-- A word of a journal entry as FLT_JRN_DATA shows it (R446). -/
def JrnEntry.word (e : JrnEntry) (i : Nat) : Nat :=
  bitsOf (leNat (leBytes 8 e.time ++ leBytes 2 e.code ++ leBytes 1 e.kind ++ leBytes 1 e.die ++ leBytes 1 e.core ++
    leBytes 1 e.part ++ leBytes 1 e.engine ++ leBytes 1 e.group ++ leBytes 4 e.handId ++ leBytes 4 e.serial ++
    leBytes 4 e.pc ++ leBytes 2 e.origin ++ leBytes 2 e.info)) (32 * i) 32

/-- The entry of eight words. -/
def JrnEntry.ofWords (w : Nat → Nat) : JrnEntry where
  time := w 0 + 2 ^ 32 * w 1
  code := bitsOf (w 2) 0 16
  kind := bitsOf (w 2) 16 8
  die := bitsOf (w 2) 24 8
  core := bitsOf (w 3) 0 8
  part := bitsOf (w 3) 8 8
  engine := bitsOf (w 3) 16 8
  group := bitsOf (w 3) 24 8
  handId := w 4
  serial := w 5
  pc := w 6
  origin := bitsOf (w 7) 0 16
  info := bitsOf (w 7) 16 16

/-- Bytes as section data: their number at index 0, then the bytes. -/
def bytesData (bs : List Byte) : SMap Nat := SMap.setRun 0 [] 0 (bs.length :: bs.map (·.toNat))

/-- The bytes of section data. -/
def dataBytes (d : SMap Nat) : List Byte := (SMap.getRun 0 d 1 (SMap.get 0 d 0)).map (BitVec.ofNat 8)

/-- Where section LINK holds the equaliser seeds of a port, behind every field's key (R518). -/
def seedKey (port : Nat) : Nat := 2 ^ 40 + port

/-- The live values of a section, as a store captures them at its start (R518, R520). -/
def State.capture (s : State) (sect : Nat) : SMap Nat :=
  match sect with
  | 1 => SMap.setRun 0 [] 0 (s.flt.maps.flatMap (fun m => [m.lo, m.hi]))
  | 4 => s.flt.health
  | 5 => (s.flt.jrn.foldl (fun d e => SMap.setRun 0 d (8 + 8 * e.1) ((List.range 8).map e.2.word))
      (SMap.set 0 [] 0 (s.rd R.FLT_JRN_COUNT)))
  | _ =>
    let d := (nvFields sect).foldl (fun d f => SMap.set 0 d (f.1.key f.2.1 f.2.2) (s.rd f.1 f.2.1 f.2.2)) []
    if sect = 2 then s.life.seeds.foldl (fun d e => SMap.set 0 d (seedKey e.1) e.2) d else d

/-! ## Banks -/

/-- A section. -/
def State.sect (s : State) (n : Nat) : Section := SMap.get Section.blank s.mram n

/-- A section replaced. -/
def State.setSect (s : State) (n : Nat) (x : Section) : State := { s with mram := SMap.set Section.blank s.mram n x }

/-- The bank that holds the stored value; none: blank. -/
def Section.value (x : Section) : Option Bank :=
  x.stored.map (fun b => if b then x.bank1 else x.bank0)

/-- The digest of a bank (R518): the first 32 bytes of SHAKE256 over the section number, SEQ and the data, whose bytes are its pairs of index
and value (DESIGN CHOICE, log entry 133). -/
def bankDigest (n seq : Nat) (data : SMap Nat) : List Byte :=
  shake256 32 (leBytes 1 n ++ leBytes 4 seq ++ data.flatMap (fun e => leBytes 8 e.1 ++ leBytes 8 e.2))

/-- Whether a bank of section `n` is valid: its digest matches (R519). -/
def Bank.valid (b : Bank) (n : Nat) : Bool := !b.erased && b.digest == bankDigest n b.seq b.data

/-- A bank of section `n` as a store leaves it: the digest is written last (R520). -/
def Bank.written (n seq : Nat) (data : SMap Nat) : Bank := ⟨bankDigest n seq data, false, seq, data⟩

/-- The bank that a store does not write into keeps its value; the other takes the data with SEQ one higher (R520). -/
def Section.put (x : Section) (n : Nat) (data : SMap Nat) : Section :=
  match x.stored with
  | some true => { x with bank0 := .written n ((x.bank1.seq + 1) % 2 ^ 32) data, stored := some false }
  | some false => { x with bank1 := .written n ((x.bank0.seq + 1) % 2 ^ 32) data, stored := some true }
  | none => { x with bank0 := .written n 1 data, stored := some false }

/-- A store cut short or failed: the bank it was writing is invalid, and the stored value stays (R520). -/
def Section.spoil (x : Section) : Section :=
  match x.stored with
  | some true => { x with bank0 := ⟨[], false, 0, []⟩ }
  | some false => { x with bank1 := ⟨[], false, 0, []⟩ }
  | none => { x with bank0 := ⟨[], false, 0, []⟩ }

/-- The section as stage 1 finds it: the stored value is that of the valid bank with the higher SEQ (R519). -/
def Section.sense (x : Section) (n : Nat) : Section :=
  { x with stored :=
      if x.bank0.valid n && x.bank1.valid n then some (decide ((x.bank1.seq + 2 ^ 32 - x.bank0.seq) % 2 ^ 32 < 2 ^ 31))
      else if x.bank0.valid n then some false
      else if x.bank1.valid n then some true
      else none }

/-- Whether a section is blank because its digests failed (R519). -/
def Section.failed (x : Section) : Bool := x.stored.isNone && !(x.bank0.erased && x.bank1.erased)

/-! ## Operations (R520, R521) -/

/-- Whether a new operation may start: none after a sag (R522). -/
def State.nvmFree (s : State) : Bool := s.life.nvmNow.isNone && s.pkg != .sagged

/-- The oldest waiting operation started, its values captured now (R520, R521). -/
def State.nvmNext (s : State) : State :=
  match s.life.nvmWait with
  | [] => s
  | o :: os =>
    if s.nvmFree then
      let d := if o.by' = .security ∨ o.sect = 7 then o.data else s.capture o.sect
      { s with life := { s.life with nvmNow := some { o with data := d }, nvmWait := os } }
    else s

/-- An operation asked for: it starts when none is in progress, else it waits (R521). -/
def State.nvmAsk (s : State) (o : NvmOp) : State :=
  ({ s with life := { s.life with nvmWait := s.life.nvmWait ++ [o] } }).nvmNext

/-- A store that the dealer asks for. -/
def State.nvmStore (s : State) (sect : Nat) : State := s.nvmAsk ⟨sect, true, .dealer, []⟩

/-- Whether an MRAM operation is in progress or waits (R521). -/
def State.mramBusy (s : State) : Bool := s.life.nvmNow.isSome || !s.life.nvmWait.isEmpty

/-- A store or erase of a section that failed in the array: counted (R520, R536). -/
def State.nvmFailed (s : State) (sect : Nat) : State := (s.setSect sect (s.sect sect).spoil).bump R.NVM_CNT_WRITE_ERR

/-- A section written with the data given; the store is counted. -/
def State.nvmPut (s : State) (sect : Nat) (data : SMap Nat) : State :=
  (s.setSect sect ((s.sect sect).put sect data)).bump R.NVM_CNT_STORE

/-- A store by the supervisor (R446, R467): made at once, or behind the operation in progress (R521). -/
def State.nvmSuper (s : State) (sect : Nat) (data : SMap Nat) : State :=
  if s.life.nvmNow.isNone && s.life.nvmWait.isEmpty then s.nvmPut sect data
  else { s with life := { s.life with nvmWait := s.life.nvmWait ++ [⟨sect, true, .supervisor, data⟩] } }

end Sys2Proof.Machine
end

