-- ==== Sys2Proof/Machine/Journal.lean ====
section
/-! DEFINITION. The fault journal (R446, R447), health scores and their thresholds (R457 to R459), and marking for retirement
(R462, R464). -/

namespace Sys2Proof.Machine

/-- An entry with nothing named: no die, core, part, group or instruction (R446). -/
def JrnEntry.blank (s : State) (code kind : Nat) : JrnEntry :=
  { time := s.time, code := code, kind := kind, die := 0xFF, core := 0xFF, part := 0xFF, engine := 0, group := 0xFF,
    handId := 0, serial := 0, pc := 0xFFFFFFFF, origin := s.chipId, info := 0 }

/-- An entry that names a physical core, its die and the logical core on it. -/
def JrnEntry.atPart (s : State) (code kind p : Nat) : JrnEntry :=
  { JrnEntry.blank s code kind with die := p / 11, core := (s.logicalOf p).getD 0xFF, part := p }

/-- An entry that names a P-die's port (R452). -/
def JrnEntry.atPort (s : State) (code kind port : Nat) : JrnEntry :=
  { JrnEntry.blank s code kind with die := 16 + port / 2, part := 200 + port }

/-- The die of a part (R9, R252, R452): a stack lies on its C-die, a DDR5 channel and a port on their P-die. -/
def partDie (part : Nat) : Nat :=
  if part < 176 then part / 11 else if part < 192 then part - 176 else if part < 200 then 16 + (part - 192) else 16 + (part - 200) / 2

/-- An entry that names a part that is no core. -/
def JrnEntry.atUnit (s : State) (code kind part : Nat) : JrnEntry :=
  { JrnEntry.blank s code kind with die := partDie part, part := part }

/-- The entry placed in the ring; entries of KIND 0x1 are counted (R446, R471). -/
def State.jrnPut (s : State) (e : JrnEntry) : State :=
  let n := s.rd R.FLT_JRN_COUNT
  let s1 := s.wr R.FLT_JRN_COUNT ((n + 1) % 2 ^ 32)
  let s2 := { s1 with flt := { s1.flt with jrn := SMap.set JrnEntry.zero s1.flt.jrn (n % 4096) e,
                                           dirtyAt := some (s1.flt.dirtyAt.getD s1.tick) } }
  if e.kind = 1 then s2.bump R.FLT_CNT_FAULT else s2

/-- An entry appended by the dealer, with its message (R447). -/
def State.journal (s : State) (e : JrnEntry) : State :=
  let s1 := s.jrnPut e
  if s1.on R.HIF_FUNC_BME 0 0 then s1.msix 0 (s1.rd R.FLT_CFG_VECTOR) else s1

/-- Health mode (R457): no image, or at most 1,024 packages; otherwise straggler mode. -/
def State.healthMode (s : State) : Bool :=
  match s.image with
  | none => true
  | some im => decide (im.packages ≤ 1024)

/-- Whether a physical core is retired (R466). -/
def State.retired (s : State) (p : Nat) : Bool := (s.jmap (p / 11)).retired.contains (p % 11)

/-- Whether a physical core is disabled by fuse (R25). -/
def State.fusedOff (s : State) (p : Nat) : Bool := bitOf (s.fuses.cores.getD (p / 11) 0) (p % 11)

/-- A joker map changed. -/
def State.onMap (s : State) (die : Nat) (f : JokerMap → JokerMap) : State :=
  { s with flt := { s.flt with maps := s.flt.maps.set die (f (s.jmap die)) } }

/-- NO_JOKER, once for a die: PENDING set, event and journal entry (R464, R444). -/
def State.noJoker (s : State) (die : Nat) : State :=
  if (s.jmap die).waits then s
  else
    let s1 := s.onMap die (fun m => { m with waits := true })
    (s1.raiseEvt .flt 0 3 0x0C04).journal { JrnEntry.blank s1 0x0C04 3 with die := die }

/-- Whether a core of a die that holds a logical core is marked for retirement (R462). -/
def State.markedWait (s : State) (die : Nat) : Bool :=
  (List.range 11).any (fun c => SMap.get 0 s.flt.marked (11 * die + c) != 0 && (s.logicalOf (11 * die + c)).isSome)

/-- A die whose last joker has gone while a marked core of it still waits (R464). -/
def State.lastJoker (s : State) (die : Nat) : State :=
  if (s.jmap die).jokers == 0 && s.markedWait die then s.noJoker die else s

/-- The health score of a part (R458). -/
def State.score (s : State) (part : Nat) : Nat := SMap.get 0 s.flt.health part

/-- A score set. -/
def State.setScore (s : State) (part v : Nat) : State := { s with flt := { s.flt with health := SMap.set 0 s.flt.health part v } }

/-- A marked joker retired at once: its bit set, one joker less, the mark as its score, an entry of KIND 0x4 (R463).  The map
is stored, as R464 needs (DEDUCED, log entry 21); a marked core that now has no joker waits. -/
def State.retireJoker (s : State) (p code : Nat) : State :=
  let s1 := (s.onMap (p / 11) (fun m => { m with retired := m.retired ++ [p % 11], jokers := m.jokers - 1 })).setScore p 0xFFFFFFFF
  (((s1.journal { JrnEntry.atPart s1 code 4 p with info := 0xFFFF }).bump R.FLT_CNT_SWAP).nvmStore 1).lastJoker (p / 11)

/-- A physical core marked for retirement by the code given (R462, R463): a joker is retired at once; another core is kept
until a swap, with NO_JOKER when its die has no joker (R464). -/
def State.markCore (s : State) (p code : Nat) : State :=
  if 176 ≤ p || s.retired p || s.fusedOff p || SMap.get 0 s.flt.marked p ≠ 0 then s
  else if (s.logicalOf p).isNone then s.retireJoker p code
  else
    let s1 := { s with flt := { s.flt with marked := SMap.set 0 s.flt.marked p (code + 1) } }
    if (s1.jmap (p / 11)).jokers == 0 then s1.noJoker (p / 11) else s1

/-- A weight added to a part's score, saturating; in health mode the thresholds act: HEALTH_WARN once when the score rises to
the warning level, a core at or above the retirement level is marked (R458, R459). -/
def State.addScore (s : State) (part w : Nat) : State :=
  if w = 0 then s
  else
    let old := s.score part
    let new := min (old + w) 0xFFFFFFFF
    let s1 := s.setScore part new
    if !s.healthMode then s1
    else
      let s2 := if old < s.rd R.FLT_HEALTH_WARN ∧ s.rd R.FLT_HEALTH_WARN ≤ new then
          (s1.raiseEvt .flt 0 1 0x0C02).journal
            (if part < 176 then JrnEntry.atPart s1 0x0C02 3 part else JrnEntry.atUnit s1 0x0C02 3 part)
        else s1
      if part < 176 ∧ s.rd R.FLT_HEALTH_RETIRE ≤ new then s2.markCore part 0x0C02 else s2

/-- The part and weight that a journaled hand fault adds (R458): ABFT on its core; SEAL_CRC on the reading core, the stack of
the address or the channel of the tile. -/
def State.faultWeight (s : State) (p code : Nat) : Nat × Nat :=
  if code = 0x0201 then (p, 4096)
  else if code = 0x0101 then
    let a := s.rd R.SEA_FAULT_ADDR_LO p * 2 ^ R.SEA_FAULT_ADDR_LO.lsb + 2 ^ 32 * s.rd R.SEA_FAULT_ADDR_HI p
    match s.rd R.SEA_FAULT_INFO_SPACE p with
    | 0 => (p, 256)
    | 1 => (176 + stackOf a, 256)
    | 2 => (192 + (a / 4096) % s.ddrChannels, 256)
    | _ => (p, 0)
  else (p, 0)

/-- Every core whose score is at or above FLT_HEALTH_RETIRE marked (R459, R465). -/
def State.markWorn (s : State) : State :=
  (List.range 176).foldl (fun s p => if s.rd R.FLT_HEALTH_RETIRE ≤ s.score p then s.markCore p 0x0C02 else s) s

/-- The retirement threshold acts on every score as it stands, in health mode and while the dealer runs (R459): after the threshold was
written, and when health mode begins. -/
def State.rescore (s : State) : State := if s.dealerUp && s.healthMode then s.markWorn else s

/-- The next core to check: the first from CHECK_PART on, with wrap, that is neither fuse-disabled nor retired (R453). -/
def State.nextCheck (s : State) : Option Nat :=
  ((List.range 176).map (fun i => (s.rd R.FLT_STATUS_CHECK_PART + i) % 176)).find? (fun p => !s.fusedOff p && !s.retired p)

/-- CHECK_MISMATCH of the check with a serial on a group: event, journal entry and the core marked (R446, R456). -/
def State.checkMismatch (s : State) (p g serial : Nat) : State :=
  ((s.raiseEvt .flt 0 0 0x0C01).journal
    { JrnEntry.atPart s 0x0C01 1 p with group := g, serial := serial, info := (s.group g).returns }).markCore p 0x0C01

end Sys2Proof.Machine
end

