-- ==== Sys2Proof/Machine/Weights.lean ====
section
/-! DEFINITION. Weight slots and delta seats (R353 to R374): references, staging, cuts, pending commands and pool commands. -/

namespace Sys2Proof.Machine

/-- A weight slot. -/
def State.wslot (s : State) (i : Nat) : WSlot := s.wslots.getD i (WSlot.reset i)

/-- A weight slot replaced. -/
def State.setWslot (s : State) (i : Nat) (w : WSlot) : State := { s with wslots := s.wslots.set i w }

/-- The dealings in progress on this package, with their groups. -/
def State.dealings (s : State) : List (Nat × Dealing) :=
  s.groups.filterMap (fun e => e.2.dealing.map (fun d => (e.1, d)))

/-- The hand of a dealing. -/
def State.handAt (s : State) (h : Nat) : Option Hand := (s.image).bind (fun im => im.hands[h]?)

/-- The header of a dealing's hand; zeros for the built-in check. -/
def State.dealHdr (s : State) (d : Dealing) : HandHdr := ((s.handAt d.hand).map (·.hdr)).getD HandHdr.zero

/-- Whether a dealing names slot `i` in its WSLOTS. -/
def State.namesSlot (s : State) (d : Dealing) (i : Nat) : Bool := bitOf (s.dealHdr d).wslots i

/-- PAIR of a request (R382). -/
def Entry.pair (e : Entry) : Nat := bitsOf e.flags 16 5

/-- Whether a request holds the epoch of slot `i` as pinned (R362, R367). -/
def Req.pins (r : Req) (i epoch : Nat) : Bool :=
  r.admitted && r.pinned && !r.detached && r.entry.pair == i / 2 && r.epoch == epoch

/-- REFS of a slot (R362): pinned requests held to its epoch, and dealings in progress that declared its epoch through the pair. -/
def State.refs (s : State) (i : Nat) : Nat :=
  let w := s.wslot i
  let m := i / 2
  match w.st with
  | .empty | .free => 0
  | _ =>
    (if w.st = .staged then 0 else (s.reqs.filter (fun r => r.pins i w.epoch)).length) +
    ((s.dealings.filter (fun d =>
      (s.namesSlot d.2 (2 * m) && d.2.epochs.getD (2 * m) 0 == w.epoch) ||
      (s.namesSlot d.2 (2 * m + 1) && d.2.epochs.getD (2 * m + 1) 0 == w.epoch))).length)

/-- Every RETIRING slot with no references becomes FREE (R362).  A FREE slot holds no epoch: 0 (DEDUCED, log entry 20). -/
def State.settle (s : State) : State :=
  { s with wslots := s.wslots.mapIdx (fun i w =>
      if w.st = .retiring ∧ s.refs i = 0 then { w with st := .free, epoch := 0 } else w) }

/-- Whether R357 allows epoch `e` on the pair with front slot `f`. -/
def epochOk (f : WSlot) (e : Nat) : Bool :=
  let d := (e + 2 ^ 32 - f.epoch) % 2 ^ 32
  if f.st = .empty then decide (1 ≤ e) else decide (f.epoch < e) && decide (1 ≤ d) && decide (d ≤ 255)

/-- The back slot of pair `m` staged (R360). -/
def State.doStage (s : State) (m e : Nat) : State :=
  (s.setWslot (2 * m + 1) { s.wslot (2 * m + 1) with st := .staged, epoch := e, ended := false, atCkpt := false }).bump
    R.WSL_CNT_STAGE

/-- Whether a group stands between an abort and its repeated dealing (R361 condition 4). -/
def Group.unsettled (g : Group) : Bool := g.abort.isSome || g.owed

/-- The conditions of a cut of pair `m` (R361). -/
def State.cutOk (s : State) (m : Nat) : Bool :=
  let b := s.wslot (2 * m + 1)
  b.st == .staged && !(s.dealings.any (fun d => s.namesSlot d.2 (2 * m + 1))) && b.ended && b.atCkpt &&
    !(s.groups.any (fun g => g.2.unsettled))

/-- The exchange of a cut (R361). -/
def State.doCut (s : State) (m : Nat) : State :=
  let f := s.wslot (2 * m)
  let b := s.wslot (2 * m + 1)
  let nb : WSlot := if f.st = .empty then ⟨.free, 0, f.seat, false, false⟩ else ⟨.retiring, f.epoch, f.seat, false, false⟩
  (((s.setWslot (2 * m) ⟨.ready, b.epoch, b.seat, false, false⟩).setWslot (2 * m + 1) nb).bump R.WSL_CNT_CUT).settle

/-- AUTO of a pair (R365). -/
def State.auto (s : State) (m : Nat) : Bool := s.on R.WSL_PAIR_CFG 0 m

/-- AUTO staging of every pair whose back slot is FREE (R365); an epoch past the last one is not staged (R357). -/
def State.autoStage (s : State) : State :=
  (List.range 32).foldl (fun s m =>
    let f := s.wslot (2 * m)
    if s.auto m && (s.wslot (2 * m + 1)).st == .free && decide (f.epoch + 1 < 2 ^ 32) then s.doStage m (f.epoch + 1) else s) s

/-- AUTO cuts of every pair for which R361 holds after a dealing of class LOAD or PUBLISH that named the back slot has ended
at a checkpoint trick (R355: only those classes name a STAGED slot), then AUTO staging (R365). -/
def State.autoStep (s : State) : State :=
  ((List.range 32).foldl (fun s m => if s.auto m && s.cutOk m then s.doCut m else s) s.settle).autoStage

/-- Requests that hold a RETIRING slot converted to follow, when every one belongs to a function that permits it (R369). -/
def State.convert (s : State) (m : Nat) : State :=
  let i := 2 * m + 1
  let w := s.wslot i
  let holders := s.reqs.filter (fun r => r.pins i w.epoch)
  if w.st = .retiring ∧ holders ≠ [] ∧ holders.all (fun r => bitOf (s.rd R.WSL_CONVERT) (r.key / 512)) then
    ({ s with reqs := s.reqs.map (fun (r : Req) => if Req.pins r i w.epoch then { r with pinned := false } else r) }).bumpBy
      R.WSL_CNT_CONVERT holders.length
  else s

/-- The requests that hold the slot for which a STAGE waits, converted as soon as they all may be (R369). -/
def State.convertWaiting (s : State) : State :=
  match s.wcmd with
  | some (.stage _, m) => s.convert m
  | _ => s

/-- Slots after a reference fell, a dealing ended or a group was settled: RETIRING slots without references become FREE (R362), and while
the dealer runs it converts the holders of a slot that a STAGE waits for (R369) and cuts and stages the AUTO pairs as soon as it may (R365). -/
def State.autos (s : State) : State := if s.dealerUp then s.convertWaiting.autoStep else s.settle

/-- Whether a trick group has a tree (R316). -/
def State.multi (s : State) (g : Nat) : Bool := s.on R.TRK_TREE_PARENT_VALID 0 g || s.rd R.TRK_TREE_CHILDREN 0 g != 0

/-- Whether a multi-package hand of the loaded image names a slot of pair `m` (R366). -/
def State.multiPair (s : State) (m : Nat) : Bool :=
  match s.image with
  | none => false
  | some im => im.hands.any (fun h => s.multi h.hdr.group && bitsOf h.hdr.wslots (2 * m) 2 != 0)

/-- WSL_CMD_STATUS written (R379). -/
def State.wslStatus (s : State) (st reason : Nat) : State :=
  (s.wr R.WSL_CMD_STATUS_STATE st).wr R.WSL_CMD_STATUS_REASON reason

/-- A weight-slot command accepted by the dealer: one at a time (R379). -/
def State.wslCmd (s : State) (act : State → State) : State :=
  s.hostCmd .wsl 0 (fun s => if s.rd R.WSL_CMD_STATUS_STATE = 1 then s else act s)

/-- A pending weight-slot command performed when its conditions hold (R360, R361, R363, R369). -/
def State.wslPending (s : State) : State :=
  match s.wcmd with
  | none => s
  | some (op, m) =>
    let s0 := match op with | .stage _ => (s.convert m).settle | _ => s.settle
    let b := s0.wslot (2 * m + 1)
    match op with
    | .stage e =>
      if b.st = .free then ({ s0.doStage m e with wcmd := none }).wslStatus 2 0 else s0
    | .cut => if s0.cutOk m then ({ s0.doCut m with wcmd := none }).wslStatus 2 0 else s0
    | .drop =>
      if s0.dealings.any (fun d => s0.namesSlot d.2 (2 * m + 1)) then s0
      else ({ s0.setWslot (2 * m + 1) { b with st := .free, epoch := 0 } with wcmd := none }).wslStatus 2 0

/-- STAGE of the epoch in WSL_CMD_EPOCH on a pair (R357, R360, R365, R366, R379). -/
def execStage (pair : Fin 32) (s : State) : Host.Outcome State Fault Refusal :=
  .next (s.wslCmd (fun s =>
    let e := s.rd R.WSL_CMD_EPOCH
    let b := s.wslot (2 * pair + 1)
    if s.auto pair || s.multiPair pair then s.wslStatus 3 3
    else if b.st ≠ .free ∧ b.st ≠ .retiring then s.wslStatus 3 1
    else if !epochOk (s.wslot (2 * pair)) e then s.wslStatus 3 2
    else (({ s with wcmd := some (.stage e, pair.val) }).wslStatus 1 0).wslPending))

/-- CUT of a pair (R361, R365, R366, R379). -/
def execCut (pair : Fin 32) (s : State) : Host.Outcome State Fault Refusal :=
  .next (s.wslCmd (fun s =>
    if s.auto pair || s.multiPair pair then s.wslStatus 3 3
    else if (s.wslot (2 * pair + 1)).st ≠ .staged then s.wslStatus 3 1
    else (({ s with wcmd := some (.cut, pair.val) }).wslStatus 1 0).wslPending))

/-- DROP of a pair's STAGED back slot (R363, R365, R379). -/
def execDrop (pair : Fin 32) (s : State) : Host.Outcome State Fault Refusal :=
  .next (s.wslCmd (fun s =>
    if s.auto pair then s.wslStatus 3 3
    else if (s.wslot (2 * pair + 1)).st ≠ .staged then s.wslStatus 3 1
    else (({ s with wcmd := some (.drop, pair.val) }).wslStatus 1 0).wslPending))

/-- CANCEL of the pending command (R379). -/
def execCancel (s : State) : Host.Outcome State Fault Refusal :=
  .next (s.hostCmd .wsl 0 (fun s => if s.wcmd.isSome then ({ s with wcmd := none }).wslStatus 3 4 else s))

/-- A pending command finds its conditions met (R360, R361, R363). -/
def execWslPendingDone (s : State) : Host.Outcome State Fault Refusal :=
  .next (if s.dealerUp then s.wslPending else s)

/-! ## The delta pool (R371 to R374, R380) -/

/-- A delta seat. -/
def State.seat (s : State) (d : Nat) : Seat := SMap.get Seat.free s.seats d

/-- A delta seat replaced. -/
def State.setSeat (s : State) (d : Nat) (x : Seat) : State := { s with seats := SMap.set Seat.free s.seats d x }

/-- Requests that hold a delta seat (R374). -/
def State.seatRefs (s : State) (d : Nat) : Nat := (s.reqs.filter (fun r => r.admitted && r.seat == some d)).length

/-- RETIRED seats with no references become FREE, and are counted (R372, R380). -/
def State.settleSeats (s : State) : State :=
  s.seats.foldl (fun t e =>
    if e.2.st = .retired ∧ s.seatRefs e.1 = 0 then (t.setSeat e.1 Seat.free).bump R.DPL_CNT_FREED else t) s

/-- The LIVE seat of a delta set. -/
def State.liveSeat (s : State) (id : Nat) : Option Nat :=
  (s.seats.find? (fun e => e.2.st == .live && e.2.id == id)).map (·.1)

/-- DPL_CMD_STATUS written. -/
def State.dplStatus (s : State) (st reason : Nat) : State :=
  (s.wr R.DPL_CMD_STATUS_STATE st).wr R.DPL_CMD_STATUS_REASON reason

/-- A pool command: refused without the delta-merge engine or on a seat that is not below SEATS (R379, R380). -/
def State.dplCmd (s : State) (seat : Nat) (needSeat : Bool) (act : State → State) : State :=
  s.hostCmd .dpl 0 (fun s =>
    if bitOf s.fuses.engines 7 then s.dplStatus 3 3
    else if needSeat && decide (s.rd R.DPL_CFG_SEATS ≤ seat) then s.dplStatus 3 2
    else act s)

/-- The version that follows the last one of a delta set (R372): versions count modulo 65,536 and skip 0. -/
def nextVersion (v : Nat) : Nat := if (v + 1) % 65536 = 0 then 1 else (v + 1) % 65536

/-- The last version given to a delta set; 0 when no seat of it is outside FREE (R372). -/
def State.lastVersion (s : State) (id : Nat) : Nat :=
  if s.seats.any (fun e => e.2.id == id && (e.2.st == .live || e.2.st == .retired)) then SMap.get 0 s.versions id else 0

/-- CLAIM (R372). -/
def execClaim (seat : Fin 4096) (s : State) : Host.Outcome State Fault Refusal :=
  .next (s.dplCmd seat true (fun s =>
    if (s.seat seat).st = .free then (s.setSeat seat ⟨.loading, 0, 0⟩).dplStatus 2 0 else s.dplStatus 3 1))

/-- ENLIST of the set in DPL_CMD_ID (R372). -/
def execEnlist (seat : Fin 4096) (s : State) : Host.Outcome State Fault Refusal :=
  .next (s.dplCmd seat true (fun s =>
    let id := s.rd R.DPL_CMD_ID
    if (s.seat seat).st ≠ .loading then s.dplStatus 3 1
    else
      let v := nextVersion (s.lastVersion id)
      let s0 := { s with versions := SMap.set 0 s.versions id v }
      let s1 := match s0.liveSeat id with
        | some d => s0.setSeat d { s0.seat d with st := .retired }
        | none => s0
      ((((s1.setSeat seat ⟨.live, id, v⟩).bump R.DPL_CNT_ENLIST).wr R.DPL_CMD_STATUS_VERSION v).dplStatus 2 0).settleSeats))

/-- RELEASE (R372). -/
def execRelease (seat : Fin 4096) (s : State) : Host.Outcome State Fault Refusal :=
  .next (s.dplCmd seat true (fun s =>
    if (s.seat seat).st = .loading then (s.setSeat seat Seat.free).dplStatus 2 0 else s.dplStatus 3 1))

/-- WITHDRAW of the set in DPL_CMD_ID; the command's SEAT field is not used (R372). -/
def execWithdraw (seat : Fin 4096) (s : State) : Host.Outcome State Fault Refusal :=
  .next (s.dplCmd seat false (fun s =>
    match s.liveSeat (s.rd R.DPL_CMD_ID) with
    | some d => ((s.setSeat d { s.seat d with st := .retired }).dplStatus 2 0).settleSeats
    | none => s.dplStatus 3 1))

end Sys2Proof.Machine
end

