-- ==== Sys2Proof/Machine/Bids.lean ====
section
/-! DEFINITION. The energy of a power tick from the events counted (R421), planned power of dealings (R429), and the bid table (R430,
R431). -/

namespace Sys2Proof.Machine

/-! ## Energy since the last power tick (R421) -/

/-- A coefficient (R421, R442). -/
def State.coef (s : State) (i : Nat) : Nat := s.rd R.PWR_COEF 0 i

/-- Events of an index counted for a unit since the last power tick. -/
def State.eventsOf (s : State) (u i : Nat) : Nat := SMap.get 0 s.events (32 * u + i)

/-- The power ticks of 10 µs that have passed since the last one was taken: 1 when it comes on time. -/
def State.elapsed (s : State) : Rat := ((s.tick - s.marks.powerAt : Nat) : Rat) / 10000

/-- A static term [fJ] of an index with its coefficient in nJ a tick. -/
def State.staticE (s : State) (i : Nat) : Rat := ((1000000 * s.coef i : Nat) : Rat) * s.elapsed

/-- Whether a core region is awake, and its die. -/
def State.regionAwake (s : State) (p : Nat) : Bool :=
  s.awake (p / 11) && (s.core p).region != .gated && (s.core p).region != .waking

/-- Static term of a core region [fJ], scaled by its die's frequency (R421 index 11). -/
def State.regionE (s : State) (p : Nat) : Rat :=
  if s.regionAwake p then s.staticE 11 * (s.rd R.CLK_STATUS_FREQ (p / 11) : Rat) / 28 else 0

/-- Energy of a core's dummy load (R426): array cycles of index 4 [fJ]. -/
def State.dummyOf (s : State) (p : Nat) : Nat := s.eventsOf p 16 * s.coef 4

/-- Compute energy of one core in the tick [fJ]: its events of indices 0 to 6 and 9, its dummy load and its static term. -/
def State.coreE (s : State) (p : Nat) : Rat :=
  ((([0, 1, 2, 3, 4, 5, 6, 9].map (fun i => s.eventsOf p i * s.coef i)).sum + s.dummyOf p : Nat) : Rat) + s.regionE p

/-- Compute energy of several cores. -/
def State.coresE (s : State) (ps : List Nat) : Rat := (ps.map s.coreE).sum

/-- The key of a phase (R430). -/
def bidKey (handId trick : Nat) : Nat := handId * 65536 + trick

/-- The bid of a phase (R431): its learned power, when the controller runs, is not frozen and holds an entry. -/
def State.bid (s : State) (handId trick : Nat) : Option Nat :=
  if s.on R.PWR_STATUS_BID_FROZEN || !s.on R.PWR_CFG_BID_EN then none
  else (s.power.bids.find? (fun e => e.1 == bidKey handId trick)).map (fun e => e.2.power)

/-- Planned power of a phase of a hand [W] (R429). -/
def State.planned (s : State) (h : HandHdr) (trick : Nat) : Rat :=
  match (if h.priv then s.bid h.handId trick else none) with
  | some w => (w : Rat)
  | none => (h.energyEst : Rat) * 1000 / (max 10 h.durationEst : Nat)

/-- Planned power of the dealings in progress. -/
def State.plannedBusy (s : State) : Rat :=
  (s.dealings.map (fun d => s.planned (s.dealHdr d.2) d.2.trick)).sum

/-- Whether the energy account admits a candidate (R429), some dealing being in progress. -/
def State.admits (s : State) (h : HandHdr) : Bool :=
  s.on R.PWR_STATUS_DRIFT || decide (s.planned h 0 + s.plannedBusy ≤ s.power.bc)

/-- A phase entry written; a full table gives up the entry used least recently (R430). -/
def PowerSt.learn (p : PowerSt) (key power : Nat) : PowerSt :=
  let kept := p.bids.filter (fun e => e.1 != key)
  let room := if kept.length < 1024 then kept else
    let oldest := kept.foldl (fun m e => min m e.2.used) (p.bidUse + 1)
    kept.filter (fun e => e.2.used != oldest)
  { p with bids := SMap.set ⟨0, 0⟩ room key ⟨power, p.bidUse + 1⟩, bidUse := p.bidUse + 1 }

/-- The learned power after an observation of `e` femtojoules in `t` nanoseconds (R430): e / (t × 10^6) watts, the later ones
moving the old value by an eighth of the difference, rounded down to a whole watt. -/
def learned (old : Option Nat) (e : Rat) (t : Nat) : Nat :=
  let p : Rat := e / (t * 1000000 : Nat)
  match old with
  | none => p.floor.toNat
  | some q => ((q : Rat) + (p - q) / 8).floor.toNat

/-- Compute energy of a dealing's cores since its present phase began (R430): that of the power ticks taken, and of the tick in
progress from the phase's start on. -/
def State.phaseEnergy (s : State) (d : Dealing) : Rat := d.energy + s.coresE d.parts - d.base

/-- A dealing whose present phase begins (R430). -/
def State.startPhase (s : State) (d : Dealing) : Dealing := { d with phaseAt := s.tick, energy := 0, base := s.coresE d.parts }

/-- The present phase of a privileged dealing ends (R430). -/
def State.phaseEnd (s : State) (d : Dealing) : State :=
  let h := s.dealHdr d
  if h.priv && s.on R.PWR_CFG_BID_EN && !s.on R.PWR_STATUS_BID_FROZEN && decide (d.phaseAt < s.tick) then
    let k := bidKey h.handId d.trick
    { s with power := s.power.learn k (learned ((s.power.bids.find? (fun e => e.1 == k)).map (fun e => e.2.power))
        (s.phaseEnergy d) (s.tick - d.phaseAt)) }
  else s

/-- The bid of a phase comes into use (R431). -/
def State.useBid (s : State) (handId trick : Nat) : State :=
  match s.power.bids.find? (fun e => e.1 == bidKey handId trick) with
  | some e => { s with power := { s.power with
      bids := SMap.set ⟨0, 0⟩ s.power.bids e.1 ⟨e.2.power, s.power.bidUse + 1⟩, bidUse := s.power.bidUse + 1 } }
  | none => s

end Sys2Proof.Machine
end

