-- ==== Sys2Proof/Machine/Operands.lean ====
section
/-! DEFINITION. Operand access of engine instructions: addresses of a slot (R97, R98), region bounds (R57, R125), reads and
writes of units in every space (R226, R243, R247), array and word errors (R127, R232, R242), the same-cycle rule (R121 to
R123), seals written (R205 to R208, R219, R220) and checked (R212 to R216).  An instruction's body makes its reads, then
its checks, then its writes. -/

namespace Sys2Proof.Machine

/-- A fault of an engine instruction: its code (R444), engine, byte offset and the SEQ_FAULT_INFO value. -/
structure EFault where
  code   : Nat
  engine : Nat
  pc     : Nat
  info   : Nat
  deriving DecidableEq, Repr

/-- A tile read: where, the operand position whose slot it is checked against, whether only line units have read it, for each line read its
number and content as last read, and its seal in the cycle of the last read (R212, R213).  A tile read through two operands is checked
against the one that read it last, a tile or row unit before a line unit (DESIGN CHOICE, log entry 94). -/
structure ReadTile where
  at_   : TileAt
  pos   : Nat
  line  : Bool
  lines : SMap (List Byte)
  sl    : Seal
  deriving DecidableEq, Repr

/-- A tile written through one operand: where, the operand position, the lines written with their content (R205), its seal before, how many
requests the instruction had made after its last line, and whether another writer's last line of it is served later (R207, R235). -/
structure WroteTile where
  at_    : TileAt
  pos    : Nat
  lines  : SMap (List Byte)
  before : Seal
  at'    : Nat
  later  : Bool
  deriving DecidableEq, Repr

/-- What a request found of a rival in the present cycle: the rival's stamp, whether they met, whether the rival's write is the later
grant, and whether the collision has been counted. -/
structure Decision where
  stamp   : Nat
  same    : Bool
  later   : Bool
  counted : Bool
  deriving DecidableEq, Repr

/-- How far the requests of each rival have been served, by its stamp, as the requests of this requester have found it, what the open
request has found (R113, R122: once for each pair of requests), and whether it is a gathered request (R115). -/
structure Order where
  seen : SMap Nat
  now  : List Decision
  wide : Bool
  deriving DecidableEq, Repr

/-- What an instruction's body carries: the state, the core and the instruction, what it has read and written, its requests, the operand
and direction of the last, the order it has found, the queue tiles it has used, whether a seal it writes is poisoned (R219), whether that
has been counted (R223), whether a host read has failed (R247), and the digest terms of the seals that it sends (R348). -/
structure ECtx where
  s        : State
  p        : Nat
  word     : Slot
  pc       : Nat
  slots    : List AdgSlot
  loop0    : Option Nat
  reads    : List ReadTile
  wrote    : List WroteTile
  reqs     : List MemReq
  group    : Option (Nat × Bool)
  order    : Order
  seals    : List SealUpd
  uses     : List QueueUse
  poison   : Bool
  marked   : Bool
  hostBad  : Bool
  term     : Nat
  deriving DecidableEq, Repr

/-- The context in which a body starts. -/
def ECtx.start (s : State) (p : Nat) (q : QEntry) : ECtx :=
  ⟨s, p, q.word, q.pc, q.slots, q.loop0, [], [], [], none, ⟨[], [], false⟩, [], [], false, false, false, 0⟩

/-- The body of an engine instruction: a fault keeps what was done before it (R125). -/
abbrev Eng := EStateM EFault ECtx

/-- A fault of the running instruction. -/
def Eng.fail (code : Nat) {α : Type} : Eng α := do
  let c ← get
  throw ⟨code, c.word.engine, c.pc, 0⟩

/-- The state changed. -/
def Eng.onState (f : State → State) : Eng Unit := modify (fun c => { c with s := f c.s })

/-- The core record changed. -/
def Eng.onCore (f : Core → Core) : Eng Unit := modify (fun c => { c with s := c.s.onCore c.p f })

/-- The core record. -/
def Eng.core : Eng Core := do
  let c ← get
  return c.s.core c.p

/-- The copied slot of an operand position. -/
def Eng.slot (pos : Nat) : Eng AdgSlot := do
  let c ← get
  return c.slots.getD pos AdgSlot.zero

/-- An information-only count raised by an amount that the spec leaves to timing (R64): a free number. -/
def Eng.freeCount (f : State → Nat → State) : Eng Unit := do
  let c ← get
  let (n, s') := c.s.freshNat
  set { c with s := f s' n }

/-- The cycles for which an engine of CMP was busy (R202, R421), a matter of timing. -/
def Eng.busy (reg : Fld) : Eng Unit := do
  let c ← get
  Eng.freeCount (fun s n => (s.bumpBy reg (n % 65536) c.p).tally c.p 5 (n % 65536))

/-! ## Addresses (R97) -/

/-- The number of addresses a slot emits in one period (R97); 1 for a queue operand. -/
def AdgSlot.period (a : AdgSlot) : Nat := a.loops.foldl (fun t l => t * l.1) 1

/-- The offset that the loop levels add for the `n`-th address (R97). -/
def loopOffset : List (Nat × Int) → Nat → Int
  | [], _ => 0
  | (cnt, str) :: ls, rem => ((rem % cnt : Nat) : Int) * str + loopOffset ls (rem / cnt)

/-- The `n`-th address a slot emits, for an operand of `unit` bytes (R97): 64-bit, low bits cleared. -/
def AdgSlot.addr (a : AdgSlot) (unit n : Nat) : Nat :=
  let v := (((a.base : Int) + loopOffset a.loops (n % max 1 a.period)) % ((2 ^ 64 : Nat) : Int)).toNat
  v / unit * unit

/-- Bytes of a UNIT code (R100): tile, row or line. -/
def unitBytes : Nat → Nat
  | 0 => 4096
  | 1 => 512
  | _ => 64

/-! ## Region bounds (R57, R125, R228) -/

/-- Whether an access of a core lies in one of its bounds and in memory (R57, R125, R228). -/
def accessOk (s : State) (c : Core) (sp : Space) (write : Bool) (a n : Nat) : Bool :=
  boundCovers c.bounds sp write a n &&
  match sp with
  | .spm => decide (a + n ≤ 0x800000)
  | .hbm => hbmHolds a && hbmHolds (a + n - 1)
  | .ddr => decide (a + n ≤ s.ddrCapacity)
  | .host => decide (a + n ≤ 2 ^ 64)

/-- The bounds check of one unit (R57, R125): a scratchpad access that fails is counted on the SPM page.  The reduction engine accesses
its core's scratchpad only (R198); REGION_BOUNDS for its other accesses, and the access of the slot's SPACE for the other engines, are
DESIGN CHOICE, log entry 112. -/
def Eng.checkBounds (sp : Space) (write : Bool) (a n : Nat) : Eng Unit := do
  let c ← get
  if accessOk c.s (c.s.core c.p) sp write a n ∧ (sp = .spm ∨ c.word.engine ≠ 6) then return ()
  else
    if sp = .spm then
      Eng.onState (fun s => (s.bump R.SPM_CNT_BOUNDS c.p).raiseEvt .spm c.p 1 0x0401)
    Eng.fail 0x0401

/-! ## Requests in flight (R113 to R116, R121 to R123, R207, R235) -/

/-- The bytes in which a space serves requests: a scratchpad row (R121), a line of device memory (R235). -/
def Space.grain : Space → Nat
  | .spm => 512
  | _ => 64

/-- Whether a request touches a row, or a line, of a range. -/
def MemReq.meets (r : MemReq) (sp : Space) (a n : Nat) : Bool :=
  r.space == sp && r.segs.any (fun g => decide (g.1 / sp.grain ≤ (a + n - 1) / sp.grain) && decide (a / sp.grain ≤ (g.1 + g.2 - 1) / sp.grain))

/-- A requester that no flag has ordered against the present one: an instruction of another engine that has started and not completed, or
an access of the present cycle that has been served (`past`): its requester code (R134), instruction, stamp, requests, seals and queue
tiles. -/
structure Rival where
  code  : Nat
  pc    : Nat
  stamp : Nat
  past  : Bool
  reqs  : List MemReq
  seals : List SealUpd
  uses  : List QueueUse
  deriving DecidableEq, Repr

/-- A started instruction as a rival. -/
def ExecEntry.rival (x : ExecEntry) (e : Nat) : Rival := ⟨e, x.pc, x.stamp, false, x.reqs, x.seals, x.uses⟩

/-- The started instructions of a core's engines but `skip`; an LPUT that has signaled has made its reads (R77, R78). -/
def Core.started (c : Core) (skip : Nat) : List Rival :=
  ((List.range 9).filter (fun e => e != skip)).flatMap (fun e =>
    ((c.engine e).exec.filter (fun x => !x.signaled)).map (fun x => x.rival e))

/-- The rivals of requester `code` of a core in a space: in the scratchpad those of its own core, in device memory those of every core
(R235).  What the sequencer has read is ordered before what it issues, and a fetch return that has landed before what the link-send engine
starts (R77). -/
def State.rivals (s : State) (p code : Nat) (sp : Space) : List Rival :=
  match sp with
  | .spm => (s.core p).started code ++
      (s.recent.filter (fun r => r.part == p && r.tick == s.tick && r.flags == (s.core p).flags && r.code != code && r.skip != code &&
        !(r.code == 0 && decide (code < 9)))).zipIdx.map (fun r => ⟨r.1.code, r.1.pc, 2 ^ 64 + r.2, true, [r.1.req], r.1.seals, []⟩)
  | .hbm | .ddr => s.cores.flatMap (fun x => x.2.started (if x.1 = p then code else 16))
  | .host => []

/-- Whether a request is a single line unit (R113); requests that the class of R115 calls narrow. -/
def MemReq.isLine (r : MemReq) : Bool := decide (r.segs.length ≤ 1) && r.segs.all (fun g => decide (g.2 ≤ 64))

/-- Rank of a requester in trump order at the bank ports (R115); `line` for a single line unit. -/
def rankOf (code : Nat) (line : Bool) : Nat :=
  match code with
  | 15 => 0
  | 4 => 1
  | 1 => 2
  | 0 => 15
  | 14 => 16
  | _ => (if line then 9 else 3) + [2, 3, 6, 7, 8, 5].findIdx (fun e => e == code)

/-- Whether request `i` of a rival touches a range, one of the two being a write. -/
def Rival.hits (x : Rival) (write : Bool) (sp : Space) (a n i : Nat) : Bool :=
  match x.reqs[i]? with
  | some r => (write || r.write) && r.meets sp a n
  | none => false

/-- Whether request `i` of a rival writes. -/
def Rival.writes (x : Rival) (i : Nat) : Bool := ((x.reqs[i]?).map (fun r => r.write)).getD false

/-- Whether an access to a range may find something of a rival: a request that touches it, or a seal of its tile. -/
def Rival.concerns (x : Rival) (write : Bool) (sp : Space) (a n : Nat) : Bool :=
  (List.range x.reqs.length).any (fun i => x.hits write sp a n i) || x.seals.any (fun u => u.tile == ⟨sp, a / 4096 * 4096⟩)

/-- What an access found of a rival: `k` of its requests were served before; `same`: the next is granted or presented in the same cycle
(R121, R122); `later`: of two writes the rival's is then the later grant. -/
structure Meet where
  x     : Rival
  k     : Nat
  same  : Bool
  later : Bool
  deriving DecidableEq, Repr

/-- A record register that holds the first of its kind since its event bits were last clear takes `put` (R134, R224, R250, R299);
a forced event is no record (R484). -/
def State.record1 (s : State) (valid : Fld) (inst : Nat) (put : State → State) : State :=
  let k := valid.key inst 0
  if SMap.get false s.recs k then s else put ({ s with recs := SMap.set false s.recs k true }.wr valid 1 inst)

/-- A collision counted and recorded on the SPM page (R121, R122, R134).  `reader` and `writer` are requester codes, `pc` the instruction
that `reader` names. -/
def State.collide (s : State) (p row reader writer : Nat) (ww : Bool) (pc : Nat) : State :=
  let s1 := (s.bump R.SPM_CNT_COLLIDE p).record1 R.SPM_COLLIDE_INFO_VALID p (fun s =>
    (((((s.wr R.SPM_COLLIDE_INFO_TILE (row / 8) p).wr R.SPM_COLLIDE_INFO_ROW (row % 8) p).wr
      R.SPM_COLLIDE_INFO_READER reader p).wr R.SPM_COLLIDE_INFO_WRITER writer p).wr
      R.SPM_COLLIDE_INFO_WW (ofBool ww) p).wr R.SPM_COLLIDE_PC (if reader ≥ 14 then 0xFFFFFFFF else pc) p)
  s1.raiseEvt .spm p 0 0x0601

/-- Scratchpad rows of 512 bytes that a range touches. -/
def rowsOf (a n : Nat) : List Nat := (List.range ((a + n - 1) / 512 + 1 - a / 512)).map (fun i => a / 512 + i)

/-- The collision of an access with the request it met: counted, and who faults with COLLIDE_FAULT 1 (R123): the engine and instruction
of the reader, or of the later writer; no instruction for link receive and debug access. -/
def State.met (s : State) (p code pc : Nat) (write : Bool) (a n : Nat) (m : Meet) : State × (Nat × Nat) :=
  let row := ((rowsOf a n).find? (fun r => m.x.hits write .spm (512 * r) 512 m.k)).getD (a / 512)
  let ww := write && m.x.writes m.k
  let first := if ww then m.later else write
  let (c1, pc1, c2) := if first then (m.x.code, m.x.pc, code) else (code, pc, m.x.code)
  (s.collide p row c1 c2 ww pc1, if c1 < 14 then (c1, pc1) else (0, 0xFFFFFFFF))

/-- An access served against one rival.  How far the rival has come is free, but never back and never behind a read of it that the
access would overtake (log entry 64); whether the two meet in one cycle is free (R121); the order of two writes that meet is that of R116:
link receive first, the others by rank unless one has been promoted, which is free (R117).  A seal that a port access wrote in the cycle of
a read is not yet seen, whatever rows the two touch (R207). -/
def State.meetOne (s : State) (p code pc : Nat) (write : Bool) (sp : Space) (a n : Nat) (o : Order) (x : Rival) :
    (Meet × Order × Option (Nat × Nat)) × State :=
  let lo := if write then
      ((List.range x.reqs.length).filter (fun i => x.hits true sp a n i && !x.writes i)).foldl max (SMap.get 0 o.seen x.stamp)
    else SMap.get 0 o.seen x.stamp
  let known := o.now.find? (fun d => d.stamp == x.stamp)
  let r : Decision × Nat × State := match known with
    | some d => (d, lo, s)
    | none =>
      let (v, t) := s.freshNat
      let (b, t1) := t.freshBool
      let (pr, t2) := t1.freshBool
      let k := if x.past then 0 else lo + v % (x.reqs.length + 1 - lo)
      let theirs := ((x.reqs[k]?).map MemReq.isLine).getD true
      let mine := decide (rankOf code (decide (n ≤ 64) && !o.wide) < rankOf x.code theirs)
      (⟨x.stamp, b && (sp == .spm), if code = 15 then true else if x.code = 15 then false else (mine != pr), false⟩,
        k, t2)
  let (d, k, s1) := r
  let m : Meet := ⟨x, k, d.same && x.hits write sp a n k, d.later⟩
  let m' := if x.past && !m.same && !(d.same && (!write || d.later)) then { m with k := 1 } else m
  let (s2, fault) := if m.same && !d.counted then
      let r := s1.met p code pc write a n m
      (r.1, if r.1.on R.SPM_CTRL_COLLIDE_FAULT p then some r.2 else none)
    else (s1, none)
  ((m', ⟨SMap.set 0 o.seen x.stamp k, ⟨d.stamp, d.same, d.later, d.counted || m.same⟩ :: o.now.filter (fun e => e.stamp != x.stamp), o.wide⟩, fault), s2)

/-- An access served against each rival that it concerns: what it finds, the order then known, and the first fault. -/
def State.serve (s : State) (p code pc : Nat) (write : Bool) (sp : Space) (a n : Nat) (o : Order) :
    List Rival → (List Meet × Order × Option (Nat × Nat)) × State
  | [] => (([], o, none), s)
  | x :: xs =>
    if x.concerns write sp a n then
      let ((m, o1, f), s1) := s.meetOne p code pc write sp a n o x
      let ((ms, o2, f'), s2) := s1.serve p code pc write sp a n o1 xs
      ((m :: ms, o2, f <|> f'), s2)
    else s.serve p code pc write sp a n o xs

/-- Bytes laid over a range. -/
def overlay (a : Nat) (bs : List Byte) (o : Nat × List Byte) : List Byte :=
  (bs.zipIdx).map (fun x => if o.1 ≤ a + x.2 ∧ a + x.2 < o.1 + o.2.length then o.2.getD (a + x.2 - o.1) 0#8 else x.1)

/-- What a read returns of stored bytes: without the writes of each rival that are not yet served, or are served in the same cycle
(R121, R235). -/
def unserved (ms : List Meet) (sp : Space) (a : Nat) (bs : List Byte) : List Byte :=
  ms.foldl (fun bs m => (m.x.reqs.drop m.k).reverse.foldl (fun bs r => if r.space == sp then r.old.foldl (overlay a) bs else bs) bs) bs

/-- What a read returns of a tile's seal: the previous one until a writer's last line of the tile has been served (R207). -/
def unservedSeal (ms : List Meet) (t : TileAt) (x : Seal) : Seal :=
  ms.foldl (fun x m => match m.x.seals.find? (fun u => u.tile == t && decide (m.k < u.at')) with | some u => u.before | none => x) x

/-- Whether the write of a rival with number `i` is served after the present write. -/
def Meet.after (m : Meet) (i : Nat) : Bool := decide (m.k < i) || (i == m.k && (!m.same || m.later))

/-- Whether some rival writes a part of the `w` bytes around an address after the present write (R122, R235). -/
def wordLost (ms : List Meet) (sp : Space) (w a : Nat) : Bool :=
  ms.any (fun m => (m.x.reqs.zipIdx).any (fun r => r.1.write && m.after r.2 && r.1.space == sp &&
    r.1.segs.any (fun g => decide (g.1 < a / w * w + w) && decide (a / w * w < g.1 + g.2))))

/-- The same for the line around an address. -/
def lineLost (ms : List Meet) (sp : Space) (a : Nat) : Bool := wordLost ms sp 64 a

/-- Whether a rival's last line of a tile is served after the present write (R207, R235). -/
def sealLost (ms : List Meet) (t : TileAt) : Bool :=
  ms.any (fun m => m.x.seals.any (fun u => u.tile == t && decide (0 < u.at') && m.after (u.at' - 1)))

/-- The parts of a range that lie in one aligned piece of `w` bytes each: address and length. -/
def partsOf (w a n : Nat) : List (Nat × Nat) :=
  (List.range ((a + n + w - 1) / w - a / w)).map (fun k =>
    let lo := max a (w * (a / w + k))
    (lo, min (a + n) (w * (a / w + k + 1)) - lo))

/-- The pieces of a written range that no rival writes later: lines, and of a line of which a rival writes some words later the other words
(a debug write is of one word, R114, R122). -/
def keptPieces (ms : List Meet) (sp : Space) (a : Nat) (bs : List Byte) : List (Nat × List Byte) :=
  let piece (x : Nat × Nat) : Nat × List Byte := (x.1, (bs.drop (x.1 - a)).take x.2)
  (partsOf 64 a bs.length).flatMap (fun l =>
    if !lineLost ms sp l.1 then [piece l]
    else ((partsOf 4 l.1 l.2).filter (fun x => !wordLost ms sp 4 x.1)).map piece)

/-- What the bytes of a write replace: the whole range when no rival writes a part of it later. -/
def writtenPieces (ms : List Meet) (sp : Space) (a : Nat) (bs : List Byte) : List (Nat × List Byte) :=
  if ms.isEmpty then [(a, bs)] else keptPieces ms sp a bs

/-- Stored errors as a read finds them: also those that the write of a rival not yet served has cleared (R127, R232). -/
def unservedErrs (ms : List Meet) (sp : Space) (es : SMap MemErr) : SMap MemErr :=
  es ++ ms.flatMap (fun m => (m.x.reqs.drop m.k).flatMap (fun r => if r.space == sp then r.errs else []))

/-- A part of a unit and what it finds of each rival. -/
structure Served where
  a  : Nat
  n  : Nat
  ms : List Meet
  deriving DecidableEq, Repr

/-- Parts of a unit served one after another. -/
def State.serveParts (s : State) (p code pc : Nat) (write : Bool) (sp : Space) (rs : List Rival) (o : Order) :
    List (Nat × Nat) → (List Served × Order × Option (Nat × Nat)) × State
  | [] => (([], o, none), s)
  | x :: xs =>
    let ((ms, o1, f), s1) := s.serve p code pc write sp x.1 x.2 o rs
    let ((vs, o2, f'), s2) := s1.serveParts p code pc write sp rs o1 xs
    ((⟨x.1, x.2, ms⟩ :: vs, o2, f <|> f'), s2)

/-- A unit served: whole in a scratchpad (R113), and in device memory one line at a time when an instruction in progress touches it
(R235). -/
def State.serveUnit (s : State) (p code pc : Nat) (write : Bool) (sp : Space) (a n : Nat) (o : Order) (rs : List Rival) :
    (List Served × Order × Option (Nat × Nat)) × State :=
  if sp = .spm ∨ rs.all (fun x => !x.concerns write sp a n) then s.serveParts p code pc write sp rs o [(a, n)]
  else s.serveParts p code pc write sp rs o (partsOf 64 a n)

/-- What the last part of a unit has found: that decides its tile's seal (R207). -/
def lastMeets (vs : List Served) : List Meet := ((vs.getLast?).map (·.ms)).getD []

/-- What a read returns of the stored bytes of a unit at `a`. -/
def servedBytes (vs : List Served) (sp : Space) (a : Nat) (stored : List Byte) : List Byte :=
  vs.flatMap (fun v => unserved v.ms sp v.a ((stored.drop (v.a - a)).take v.n))

/-- The stored errors that a read of a unit finds, for each part those of its lines; a word has `g` bytes. -/
def servedErrs (vs : List Served) (sp : Space) (g : Nat) (es : SMap MemErr) : SMap MemErr :=
  vs.flatMap (fun v => (unservedErrs v.ms sp es).filter (fun e =>
    decide (v.a / 64 * (64 / g) ≤ e.1) && decide (e.1 < (v.a + v.n + 63) / 64 * (64 / g))))

/-- The pieces of the bytes of a unit at `a` that stay once every rival has been served. -/
def servedPieces (vs : List Served) (sp : Space) (a : Nat) (bs : List Byte) : List (Nat × List Byte) :=
  vs.flatMap (fun v => writtenPieces v.ms sp v.a ((bs.drop (v.a - a)).take v.n))

/-- Stored errors of words of `g` bytes that a write of a piece touches. -/
def coveredErrs (g : Nat) (es : SMap MemErr) (x : Nat × List Byte) : SMap MemErr :=
  es.filter (fun e => decide (x.1 / g ≤ e.1) && decide (e.1 < (x.1 + x.2.length + g - 1) / g))

/-! ## Accesses of requesters that are no engine (R112, R118, R131) -/

/-- Such an access kept for the rest of the cycle. -/
def State.noteRecent (s : State) (p code skip pc : Nat) (r : MemReq) : State :=
  { s with recent := s.recent.filter (fun x => x.tick == s.tick) ++ [⟨p, code, pc, s.tick, (s.core p).flags, skip, r, []⟩] }

/-- The seal that the last such access writes, kept with it (R207). -/
def State.portSeal (s : State) (p tile : Nat) (x : Seal) : State :=
  let upd : SealUpd := ⟨⟨.spm, tile⟩, (s.core p).sealAt tile, 1⟩
  { s.onCore p (fun c => c.setSeal tile x) with
    recent := s.recent.dropLast ++ (s.recent.getLast?.map (fun r => { r with seals := r.seals ++ [upd] })).toList }

/-- Bytes that such a requester reads from a scratchpad, with the seal of their tile, who faults when COLLIDE_FAULT is 1 (R121, R123), and the
stored errors that the read finds (R127). -/
def State.portRead (s : State) (p code pc a n : Nat) : (List Byte × Seal × Option (Nat × Nat) × SMap MemErr) × State :=
  let ((ms, _, f), s1) := s.serve p code pc false .spm a n ⟨[], [], false⟩ (s.rivals p code .spm)
  ((unserved ms .spm a ((s1.core p).spmRead a n), unservedSeal ms ⟨.spm, a / 4096 * 4096⟩ ((s1.core p).sealAt a), f,
      unservedErrs ms .spm (s1.core p).spmErr),
    (s1.noteRecent p code 16 pc ⟨.spm, false, [(a, n)], [], []⟩).tallyAccess p .spm a n)

/-- Stored errors of the scratchpad words of a range cleared by a write (R127). -/
def Core.clearSpmErr (c : Core) (a n : Nat) : Core :=
  { c with spmErr := c.spmErr.filter (fun e => decide (e.1 < a / 8) || decide ((a + n + 7) / 8 ≤ e.1)) }

/-- Bytes stored in a scratchpad. -/
def State.spmStore (s : State) (p : Nat) (x : Nat × List Byte) : State :=
  s.onCore p (fun c => (c.spmWrite x.1 x.2).clearSpmErr x.1 x.2.length)

/-- Bytes that such a requester writes: whether another writer's seal of the tile stands after it, and who faults (R122, R123).  The
instructions of engine `skip` come before it and after it in their own order (R77: a fetch return follows the link-send engine's earlier
reads and precedes what that engine starts; 16: no engine). -/
def State.portWrite (s : State) (p code skip a : Nat) (bs : List Byte) : (Bool × Option (Nat × Nat)) × State :=
  let ((ms, _, f), s1) := s.serve p code 0xFFFFFFFF true .spm a bs.length ⟨[], [], false⟩
    ((s.rivals p code .spm).filter (fun x => x.past || x.code != skip))
  let ps := writtenPieces ms .spm a bs
  let old := ps.map (fun x => (x.1, (s1.core p).spmRead x.1 x.2.length))
  let es := ps.flatMap (coveredErrs 8 (s1.core p).spmErr)
  ((sealLost ms ⟨.spm, a / 4096 * 4096⟩, f),
    ((ps.foldl (fun s x => s.spmStore p x) s1).noteRecent p code skip 0xFFFFFFFF ⟨.spm, true, [(a, bs.length)], old, es⟩).tallyAccess p .spm a
      bs.length)

/-- Bytes stored at a place of a space other than host memory. -/
def State.store (s : State) (p : Nat) (sp : Space) (x : Nat × List Byte) : State :=
  match sp with
  | .spm => s.spmStore p x
  | .hbm => { s with hbm := s.hbm.write x.1 x.2 }
  | .ddr => { s with ddr := s.ddr.write x.1 x.2 }
  | .host => s

/-- Bytes held at a place of a space. -/
def State.bytesAt (s : State) (p : Nat) (sp : Space) (a n : Nat) : List Byte :=
  match sp with
  | .spm => (s.core p).spmRead a n
  | .hbm => s.hbm.read a n
  | .ddr => s.ddr.read a n
  | .host => []

/-! ## Requests of the running instruction -/

/-- Whether a line joins the open request (R113, R114): up to eight consecutive lines of one operand in distinct banks. -/
def ECtx.joins (c : ECtx) (pos : Nat) (write : Bool) (sp : Space) (a n : Nat) : Bool :=
  sp == .spm && n == 64 && c.group == some (pos, write) &&
  match c.reqs.getLast? with
  | some r => r.space == sp && r.write == write && decide (r.segs.length < 8) && r.segs.all (fun g => g.2 == 64 && g.1 / 64 % 64 != a / 64 % 64)
  | none => false

/-- Whether the line unit after one of an operand lies in another bank, so that the two are gathered (R113, R114). -/
def AdgSlot.gathers (a : AdgSlot) (addr : Nat) : Bool :=
  !a.queue && (List.range (a.period - 1)).any (fun n => a.addr 64 n == addr && a.addr 64 (n + 1) / 64 % 64 != addr / 64 % 64)

/-- A unit requested: what each part of it finds of its rivals, and the fault that the collision raises. -/
def Eng.request (pos : Nat) (write : Bool) (sp : Space) (a n : Nat) : Eng (List Served × Option EFault) := do
  let c ← get
  let rs := c.s.rivals c.p c.word.engine sp
  let joins := c.joins pos write sp a n
  let wide := joins || (!rs.isEmpty && n == 64 && (c.slots.getD pos AdgSlot.zero).gathers a)
  let o : Order := ⟨c.order.seen, if joins then c.order.now else [], wide⟩
  let ((vs, o', f), s') := c.s.serveUnit c.p c.word.engine c.pc write sp a n o rs
  set { c with s := s', order := o' }
  return (vs, f.map (fun x => ⟨0x0601, x.1, x.2, 0⟩))

/-- The requests that a unit makes: one in a scratchpad, one for each line in device memory (R235), each with what it replaces. -/
def unitReqs (write : Bool) (sp : Space) (a n : Nat) (old : List (Nat × List Byte)) (es : SMap MemErr) : List MemReq :=
  if sp = .spm then [⟨sp, write, [(a, n)], old, es⟩]
  else (partsOf 64 a n).map (fun l =>
    ⟨sp, write, [l], old.filter (fun x => l.1 ≤ x.1 ∧ x.1 < l.1 + l.2), es.filter (fun e => e.1 * 32 / 64 = l.1 / 64)⟩)

/-- The requests of a unit entered in the instruction's list. -/
def ECtx.noteReq (c : ECtx) (pos : Nat) (write : Bool) (sp : Space) (a n : Nat) (old : List (Nat × List Byte)) (es : SMap MemErr) : ECtx :=
  let rs := match c.joins pos write sp a n, c.reqs.getLast? with
    | true, some r => c.reqs.dropLast ++ [{ r with segs := r.segs ++ [(a, n)], old := r.old ++ old, errs := r.errs ++ es }]
    | _, _ => c.reqs ++ unitReqs write sp a n old es
  { c with reqs := rs, group := some (pos, write) }

/-- The fault of a collision, raised once the access has been made. -/
def Eng.raise (f : Option EFault) : Eng Unit :=
  match f with
  | some x => throw x
  | none => pure ()

/-! ## Hardware queues (R55, R98) -/

/-- Whether a push or pop of a queue tile by a started instruction of another engine than `skip` has not completed: how far that
instruction has come is free (R55, R66). -/
def State.pendingUse (s : State) (p skip : Nat) (seen : SMap Nat) (q pos : Nat) (push : Bool) : (Bool × SMap Nat) × State :=
  let hit (x : Rival) : Option QueueUse := x.uses.find? (fun u => u.queue == q && u.pos == pos && u.push == push)
  match ((s.core p).started skip).find? (fun x => (hit x).isSome) with
  | none => ((false, seen), s)
  | some x =>
    let lo := SMap.get 0 seen x.stamp
    let (v, t) := s.freshNat
    let k := lo + v % (x.reqs.length + 1 - lo)
    ((((hit x).map (fun u => decide (k < u.at'))).getD false, SMap.set 0 seen x.stamp k), t)

/-- The same for the running instruction. -/
def Eng.pendingUse (q pos : Nat) (push : Bool) : Eng Bool := do
  let c ← get
  let ((b, seen), s') := c.s.pendingUse c.p c.word.engine c.order.seen q pos push
  set { c with s := s', order := { c.order with seen := seen } }
  return b

/-- The use of a queue tile noted; its unit's request comes next. -/
def Eng.noteUse (q pos : Nat) (push : Bool) : Eng Unit :=
  modify (fun c => { c with uses := c.uses ++ [⟨q, pos, push, c.reqs.length + 1⟩] })

/-- A pop: the byte address of the queue's next tile; QUEUE_UNDERFLOW when its push has not completed. -/
def Eng.pop (q : Nat) : Eng Nat := do
  let c ← Eng.core
  match c.queues[q]? with
  | none => Eng.fail 0x0303
  | some x =>
    if x.head = x.tail || x.owed.contains x.head then Eng.fail 0x0303
    else
      let early ← Eng.pendingUse q x.head true
      if early then Eng.fail 0x0303
      else
        Eng.onCore (fun c => { c with queues := c.queues.set q { x with head := x.head + 1 } })
        Eng.noteUse q x.head false
        return 4096 * (x.base + x.head % x.depth)

/-- A push: the byte address of the queue's next tile; QUEUE_OVERFLOW when its previous pop has not completed. -/
def Eng.push (q : Nat) : Eng Nat := do
  let c ← Eng.core
  match c.queues[q]? with
  | none => Eng.fail 0x0302
  | some x =>
    if x.head + x.depth ≤ x.tail then Eng.fail 0x0302
    else
      let early ← if x.depth ≤ x.tail then Eng.pendingUse q (x.tail - x.depth) false else pure false
      if early then Eng.fail 0x0302
      else
        Eng.onCore (fun c => { c with queues := c.queues.set q { x with tail := x.tail + 1 } })
        Eng.noteUse q x.tail true
        return 4096 * (x.base + x.tail % x.depth)

/-- The address of the `n`-th unit of an operand (R97, R98).  A queue operand whose unit is not a tile is refused as
ILLEGAL_OPCODE (DESIGN CHOICE, assumption 12: R98 only says it must be a tile). -/
def Eng.unitAddr (pos unit n : Nat) (write : Bool) : Eng TileAt := do
  let a ← Eng.slot pos
  if a.queue then
    if unit ≠ 4096 then Eng.fail 0x0502
    else
      let t ← if write then Eng.push a.qnum else Eng.pop a.qnum
      return ⟨.spm, t⟩
  else return ⟨a.space, a.addr unit n⟩

/-! ## Stored errors (R127, R217, R218, R232, R242) -/

/-- The record of the first uncorrectable word of a stack or channel since its event bits were last clear (R250). -/
def State.eccRecord (s : State) (sp : Space) (inst word tile : Nat) (scrub : Bool) : State :=
  if sp = .hbm then s.record1 R.HBM_ECC_INFO_VALID inst (fun s =>
    ((s.wr R.HBM_ECC_INFO_UNIT (tile / 4096 % 64) inst).wr R.HBM_ECC_INFO_SCRUB (ofBool scrub) inst).wrPair
      R.HBM_ECC_ADDR_LO R.HBM_ECC_ADDR_HI tile inst)
  else s.record1 R.DDR_ECC_INFO_VALID inst (fun s =>
    ((s.wr R.DDR_ECC_INFO_UNIT (word / 2 % 2) inst).wr R.DDR_ECC_INFO_SCRUB (ofBool scrub) inst).wrPair
      R.DDR_ECC_ADDR_LO R.DDR_ECC_ADDR_HI tile inst)

/-- Number of a word of a unit in its tier: word `w` of stack `u`, or of channel `u` (R227, R240). -/
def State.unitWord (s : State) (ddr : Bool) (u w : Nat) : Nat :=
  if ddr then (w / 128 * s.ddrChannels + u) * 128 + w % 128 else u * 2 ^ 31 + w

/-- The 32-byte data words of a stack, or of a used channel. -/
def State.unitWords (s : State) (ddr : Bool) : Nat := if ddr then s.ddrCapacity / s.ddrChannels / 32 else stackEnd / 32

/-- The error of a word of a tier set. -/
def Tier.mark (t : Tier) (w : Nat) (e : MemErr) : Tier := { t with err := SMap.set MemErr.none t.err w e }

/-- A soft error strikes (R127, R232): unit 0 to 175 is a core's scratchpad, 176 to 191 a stack, 192 to 199 a DDR5 channel; its word then
holds an error that can be corrected, or one that cannot. -/
def State.strike (s : State) (u w : Nat) (corr : Bool) : State :=
  let e : MemErr := if corr then .corrected else .uncorr
  if u < 176 then s.onCore u (fun c => { c with spmErr := SMap.set MemErr.none c.spmErr (w % 2 ^ 20) e })
  else if u < 192 then { s with hbm := s.hbm.mark (s.unitWord false (u - 176) (w % s.unitWords false)) e }
  else if u < 192 + s.ddrChannels ∧ s.ddrCapacity ≠ 0 then { s with ddr := s.ddr.mark (s.unitWord true (u - 192) (w % s.unitWords true)) e }
  else s

/-- The soft error of one tick, if one strikes: which and where is free (DESIGN CHOICE, log entry 80). -/
def State.softError (s : State) : State :=
  match Config.upset s.free with
  | some (u, w, corr) => ({ s with free := s.free + 1 }).strike u w corr
  | none => { s with free := s.free + 1 }

/-- The stored errors of a tier. -/
def State.tierErrs (s : State) (sp : Space) : SMap MemErr := if sp = .hbm then s.hbm.err else s.ddr.err

/-- Word errors `es` of a tier met by a read of the 32-byte words from `lo` up to (not including) `hi`, of one stack or channel: counts,
write-back, record, poison of the tiles that still hold them, and the words that are uncorrectable (R232, R242, R250). -/
def State.wordErrors (s : State) (sp : Space) (lo hi : Nat) (es : SMap MemErr) : State × List Nat :=
  let t := if sp = .hbm then s.hbm else s.ddr
  let a := lo * 32
  let corr := (errsIn es lo hi .corrected).length + (errsIn es lo hi .hard).length
  let unc := errsIn es lo hi .uncorr
  let t' : Tier := { t with err := t.err.filter (fun e => !(decide (lo ≤ e.1) && decide (e.1 < hi) && e.2 == .corrected)) }
  let inst := if sp = .hbm then stackOf a else (a / 4096) % s.ddrChannels
  let s1 := if sp = .hbm then { s with hbm := t' } else { s with ddr := t' }
  let s2 := s1.bumpBy (if sp = .hbm then R.HBM_CNT_CORR else R.DDR_CNT_CORR) corr inst
  match unc with
  | [] => (s2, [])
  | w :: _ =>
    let tile := w * 32 / 4096 * 4096
    let s3 := s2.bumpBy (if sp = .hbm then R.HBM_CNT_UNCORR_READ else R.DDR_CNT_UNCORR_READ) unc.length inst
    let blk : Block := if sp = .hbm then .hbm else .ddr
    let s4 := s3.eccRecord sp inst w tile false
    let s5 := s4.raiseEvt blk inst 0 0x0105
    let tiles := ((errsIn t.err lo hi .uncorr).map (fun w => w * 32 / 4096 * 4096)).eraseDups
    (tiles.foldl (fun s t => if sp = .hbm then { s with hbm := s.hbm.setSeal t (sealSetPoison (s.hbm.sealAt t)) }
      else { s with ddr := s.ddr.setSeal t (sealSetPoison (s.ddr.sealAt t)) }) s5, unc)

/-- The same for the errors that the tier holds. -/
def State.tierWords (s : State) (sp : Space) (lo hi : Nat) : State × List Nat := s.wordErrors sp lo hi (s.tierErrs sp)

/-- Word errors met by a read of the lines around a range, and the lines that are uncorrectable (R232, R242). -/
def State.lineErrors (s : State) (sp : Space) (a n : Nat) (es : SMap MemErr) : State × List Nat :=
  let r := s.wordErrors sp (a / 64 * 2) ((a + n + 63) / 64 * 2) es
  (r.1, r.2.map (fun w => w / 2))

/-- The same for the errors that the tier holds. -/
def State.tierErrors (s : State) (sp : Space) (a n : Nat) : State × List Nat := s.lineErrors sp a n (s.tierErrs sp)

/-- Bytes of device memory that the dealer reads, the lines that hold an uncorrectable word as zeros, with what the read does to their words
and seals (R217, R218, R232); the dealer is no core and takes no fault (DESIGN CHOICE, log entry 107). -/
def State.dealerRead (s : State) (a n : Nat) : List Byte × State :=
  (s.hbm.delivered a n, (s.tierErrors .hbm a n).1.tallyHub a n)

/-- Array errors `es` of a scratchpad met by a read of the lines around a range: counts, record, poison of the tiles that still hold them, and
the lines that are uncorrectable (R127, R134). -/
def State.spmErrors (s : State) (p a n : Nat) (es : SMap MemErr) : State × List Nat :=
  let c := s.core p
  let lo := a / 64 * 8
  let hi := (a + n + 63) / 64 * 8
  let corr := (errsIn es lo hi .corrected).length + (errsIn es lo hi .hard).length
  let unc := errsIn es lo hi .uncorr
  let s1 := s.bumpBy R.SPM_CNT_ECC_CORR corr p
  match unc with
  | [] => (s1, [])
  | w :: _ =>
    let s2 := s1.bumpBy R.SPM_CNT_ECC_UNCORR unc.length p
    let s3 := s2.record1 R.SPM_ECC_INFO_VALID p (fun s =>
      (s.wr R.SPM_ECC_INFO_TILE (w * 8 / 4096) p).wr R.SPM_ECC_INFO_LINE (w / 8 % 64) p)
    let s4 := s3.raiseEvt .spm p 2 0x0105
    let tiles := ((errsIn c.spmErr lo hi .uncorr).map (fun w => w * 8 / 4096 * 4096)).eraseDups
    (tiles.foldl (fun s t => s.onCore p (fun c => c.setSeal t (sealSetPoison (c.sealAt t)))) s4,
      unc.map (fun w => w / 8))

/-! ## Units read -/

/-- A read tile recorded for the seal check (R213): one record for each tile. -/
def addRead (l : List ReadTile) (t : TileAt) (pos : Nat) (line : Bool) (a : Nat) (bs : List Byte) (x : Seal) : List ReadTile :=
  let ls := (List.range (bs.length / 64)).map (fun i => (a % 4096 / 64 + i, (bs.drop (64 * i)).take 64))
  let put (m : SMap (List Byte)) : SMap (List Byte) := ls.foldl (fun m x => SMap.set [] m x.1 x.2) m
  match l.find? (fun r => r.at_ == t) with
  | some _ => l.map (fun r => if r.at_ == t then
      { r with lines := put r.lines, sl := x, pos := if line && !r.line then r.pos else pos, line := r.line && line } else r)
  | none => l ++ [⟨t, pos, line, put [], x⟩]

/-- The record register of a seal fault (R224). -/
def State.sealFault (s : State) (p bit code cnt engine pos : Nat) (t : TileAt) (x : Seal) (part : Bool) (ex : Nat) (pc : Nat) :
    State :=
  let s1 := s.record1 R.SEA_FAULT_INFO_VALID p (fun s =>
      (((((((s.wr R.SEA_FAULT_INFO_ENGINE engine p).wr R.SEA_FAULT_INFO_OPERAND pos p).wr
        R.SEA_FAULT_INFO_SPACE t.space.code p).wr R.SEA_FAULT_INFO_PARTIAL (ofBool part) p).wrPair
        R.SEA_FAULT_ADDR_LO R.SEA_FAULT_ADDR_HI t.addr p).wrPair
        R.SEA_FAULT_SEAL_LO R.SEA_FAULT_SEAL_HI x.toNat p).wr R.SEA_FAULT_PC pc p)
        |> (fun s => (((s.wr R.SEA_FAULT_EXPECT_GEN (bitsOf ex 0 16) p).wr R.SEA_FAULT_EXPECT_FMT (bitsOf ex 16 4) p).wr
          R.SEA_FAULT_EXPECT_SCALE (bitsOf ex 20 2) p).wr R.SEA_FAULT_EXPECT_EPOCH (bitsOf ex 22 8) p))
  let s2 := match cnt with
    | 0 => s1.bump R.SEA_CNT_CRC p
    | 1 => s1.bump R.SEA_CNT_GEN p
    | 2 => s1.bump R.SEA_CNT_FMT p
    | 3 => s1.bump R.SEA_CNT_EPOCH p
    | _ => s1.bump R.SEA_CNT_POISON p
  s2.raiseEvt .sea p bit code

/-- The SEA record and the fault of a failed check (R216). -/
def Eng.sealFail (k : Nat) (t : TileAt) (pos : Nat) (x : Seal) (part : Bool) (expect : Nat) : Eng Unit := do
  let c ← get
  let code := match k with | 0 => 0x0101 | 1 => 0x0102 | 2 => 0x0103 | 3 => 0x0104 | _ => 0x0105
  Eng.onState (fun s => s.sealFault c.p k code k c.word.engine pos t x part expect c.pc)
  Eng.fail code

/-- Host memory bytes read by a function as free values (R247, R498); `none` when Bus Master Enable is 0, and when the read returns
a completion error other than a timeout: whether it does, and whether that is a poisoned completion, which AER logs, are free values (log
entries 32 and 141). -/
def State.hostRead (s : State) (fn a n : Nat) : Option (List Byte) × State :=
  if s.rd R.HIF_FUNC_BME 0 fn = 0 then (none, s)
  else if Config.freeBool s.free then
    let s1 := ({ s with free := s.free + 2 }).bump R.HIF_CNT_CPL_ERROR
    (none, if Config.freeBool (s.free + 1) then s1.aerLog fn 12 else s1)
  else (some ((List.range n).map (fun i => Config.hostByte s.free (a + i))), { s with free := s.free + 1 })

/-- A host write by a function; dropped when Bus Master Enable is 0. -/
def State.hostWrite (s : State) (fn a : Nat) (bs : List Byte) : State :=
  if s.rd R.HIF_FUNC_BME 0 fn = 0 then s else s.emit (.hostWrite fn a bs)

/-- The format and scale mode of a typed operand (R214); `none` for an operand that is not typed. -/
def Slot.typed (w : Slot) (pos : Nat) : Option (Nat × Nat) :=
  match w.op with
  | some .mload | some .mmul | some .spmm => if pos = 0 then some (w.sfmt, w.scale) else none
  | some .vop | some .vred | some .fexp | some .flog | some .frsq | some .fact => some (w.sfmt, 0)
  | some .vcvt =>
    if pos = 0 then some (w.sfmt, if (vcvtSides w.sfmt w.dfmt).1 then w.scale else 0) else none
  | some .ranchor | some .rcvt => if w.acc && decide (pos = 0) then some (w.sfmt, 0) else none
  | some .sample | some .slogp => if pos = 0 then some (w.sfmt, 0) else none
  | some .radd => if w.redMode = 0 then some (0, 0) else none
  | _ => none

/-- What the check of a tile read through operand `pos` expects, as SEA_FAULT_EXPECT lays it out (R224). -/
def Eng.sealExpect (pos : Nat) : Eng Nat := do
  let c ← get
  let a ← Eng.slot pos
  let core ← Eng.core
  let fs := (c.word.typed pos).getD (0, 0)
  return a.gen + 2 ^ 16 * fs.1 + 2 ^ 20 * fs.2 + 2 ^ 22 * (core.slotEpoch a % 256)

/-- TILE_POISON of a read that met an uncorrectable error or failed (R127, R217, R247): the record of the tile as read so far. -/
def Eng.readFail (pos : Nat) (t : TileAt) (x : Seal) : Eng Unit := do
  let c ← get
  let part := match c.reads.find? (fun r => r.at_ == t) with
    | some r => r.lines.length != 64
    | none => true
  let ex ← Eng.sealExpect pos
  Eng.sealFail 4 t pos x part ex

/-- One unit read through operand `pos` (R97, R121, R127, R207, R217, R235): its bytes, and the seal of its tile as of that cycle.  A host
read that is not sent or fails delivers zeros with the poison seal; the instruction goes on, and the fault is raised when it ends
(R247). -/
def Eng.readSealed (pos : Nat) (u : TileAt) (unit : Nat) : Eng (List Byte × Seal) := do
  Eng.checkBounds u.space false u.addr unit
  let tile : TileAt := ⟨u.space, u.addr / 4096 * 4096⟩
  match u.space with
  | .host =>
    let c ← get
    match c.s.hostRead 0 u.addr unit with
    | (some bs, s') =>
      set { c with s := s'.tallyAccess c.p .host u.addr unit, reads := addRead c.reads tile pos (unit == 64) u.addr bs blankSeal }
      return (bs, hostSeal bs)
    | (none, s') =>
      let x := addRead c.reads tile pos (unit == 64) u.addr (List.replicate unit 0#8) poisonSeal
      let part := ((x.find? (fun r => r.at_ == tile)).map (fun r => r.lines.length != 64)).getD true
      let ex ← Eng.sealExpect pos
      set { c with
        s := ((s'.bump R.DMA_CNT_HOST_ERR c.p).sealFault c.p 4 0x0105 4 c.word.engine pos tile poisonSeal part ex c.pc),
        poison := true, hostBad := true }
      return (List.replicate unit 0#8, poisonSeal)
  | sp =>
    let (vs, f) ← Eng.request pos false sp u.addr unit
    let c ← get
    let (s', bad) := if sp = .spm then c.s.spmErrors c.p u.addr unit (servedErrs vs sp 8 (c.s.core c.p).spmErr)
      else c.s.lineErrors sp u.addr unit (servedErrs vs sp 32 (c.s.tierErrs sp))
    let bs := zeroLines u.addr (servedBytes vs sp u.addr (s'.bytesAt c.p sp u.addr unit)) bad
    let x := unservedSeal (lastMeets vs) tile (s'.sealOf c.p tile)
    set { (c.noteReq pos false sp u.addr unit [] []) with s := s'.tallyAccess c.p sp u.addr unit, reads := addRead c.reads tile pos (unit == 64) u.addr bs x }
    Eng.raise f
    if bad ≠ [] then Eng.readFail pos tile (s'.sealOf c.p tile)
    return (bs, x)

/-- One unit read through operand `pos`: its bytes. -/
def Eng.readAt (pos : Nat) (u : TileAt) (unit : Nat) : Eng (List Byte) := do
  let r ← Eng.readSealed pos u unit
  return r.1

/-- The `n`-th unit of an operand read. -/
def Eng.readUnit (pos unit n : Nat) : Eng (List Byte) := do
  let u ← Eng.unitAddr pos unit n false
  Eng.readAt pos u unit

/-- The first `k` units of an operand read, as one byte string (R137, R168). -/
def Eng.readUnits (pos unit k : Nat) : Eng (List Byte) := do
  let mut bs : List Byte := []
  for n in List.range k do
    let b ← Eng.readUnit pos unit n
    bs := bs ++ b
  return bs

/-- The first `cnt` elements of width `w` of an operand (R168: exactly the units they need are read). -/
def Eng.readElems (pos unit w cnt : Nat) : Eng (List Nat) := do
  let bs ← Eng.readUnits pos unit ((w * cnt + 8 * unit - 1) / (8 * unit))
  return elems w 0 cnt bs

/-! ## Seal checks (R212 to R214, R219) -/

/-- The full check of R214 of one tile: the first fault it finds (0 CRC, 1 GEN, 2 FMT, 3 EPOCH, 4 POISON). -/
def sealCheck (x : Seal) (content : Option (List Byte)) (gen : Nat) (typed : Option (Nat × Nat)) (epoch : Nat) :
    Option Nat :=
  if sealPoison x then some 4
  else if !sealValid x then some 1
  else if sealGen x ≠ gen then some 1
  else if (match content with | some bs => decide (sealCrc x ≠ crc32c bs) | none => false) then some 0
  else if (match typed with | some (f, sc) => decide (sealFmt x ≠ f ∨ sealScale x ≠ sc) | none => false) then some 2
  else if sealEpoch x ≠ epoch % 256 then some 3
  else none

/-- The content of a tile all of whose 64 lines were read. -/
def ReadTile.content (r : ReadTile) : Option (List Byte) :=
  if r.lines.length = 64 then some (r.lines.flatMap (·.2)) else none

/-- The seal delivered with a read tile: its own, or the host seal of a whole tile of host memory (R210); a host tile read in part has
none, and the model takes one of zeros for it (DESIGN CHOICE, log entry 95). -/
def ReadTile.sealRead (r : ReadTile) : Seal :=
  if r.at_.space = .host then (r.content.map hostSeal).getD blankSeal else r.sl

/-- The checks of every tile read so far (R212, R213): a line operand is checked for POISON only. With VERIFY 0 nothing is
checked and a poisoned tile marks the seals written later (R219).  The fault of a failed host read comes at the end (R247). -/
def Eng.checkReads : Eng Unit := do
  let c ← get
  for r in c.reads do
    let x := r.sealRead
    if r.at_.space = .host ∧ r.sl = poisonSeal then pure ()
    else if c.word.verify then
      let a ← Eng.slot r.pos
      let core ← Eng.core
      let found := if r.line then (if sealPoison x then some 4 else none)
        else sealCheck x r.content a.gen (c.word.typed r.pos) (core.slotEpoch a)
      match found with
      | some k =>
        let ex ← Eng.sealExpect r.pos
        Eng.sealFail k r.at_ r.pos x (r.content.isNone) ex
      | none => pure ()
    else if sealPoison x then modify (fun c => { c with poison := true })
  modify (fun c => { c with reads := [] })

/-! ## Units written -/

/-- A written tile recorded (R205, R206) with the content of its lines, the number of requests made and whether another writer follows. -/
def addWrote (l : List WroteTile) (t : TileAt) (pos a : Nat) (bs : List Byte) (before : Seal) (at' : Nat) (later : Bool) : List WroteTile :=
  let ls := (List.range (bs.length / 64)).map (fun i => (a % 4096 / 64 + i, (bs.drop (64 * i)).take 64))
  let put (m : SMap (List Byte)) : SMap (List Byte) := ls.foldl (fun m x => SMap.set [] m x.1 x.2) m
  match l.find? (fun r => r.at_ == t && r.pos == pos) with
  | some _ => l.map (fun x => if x.at_ == t && x.pos == pos then { x with lines := put x.lines, at' := at', later := later } else x)
  | none => l ++ [⟨t, pos, put [], before, at', later⟩]

/-- One unit written through operand `pos` at a place (R57, R121, R122, R235, R247): of each line the data of the write served last stays.
A collision's fault is raised once the write has been made (R121: it is not lost). -/
def Eng.writeAt (pos : Nat) (u : TileAt) (bs : List Byte) : Eng Unit := do
  let n := bs.length
  Eng.checkBounds u.space true u.addr n
  let tile : TileAt := ⟨u.space, u.addr / 4096 * 4096⟩
  match u.space with
  | .host =>
    let c ← get
    if c.s.rd R.HIF_FUNC_BME 0 0 = 0 then set { c with s := c.s.bump R.DMA_CNT_HOST_DROP c.p }
    else set { c with s := (c.s.hostWrite 0 u.addr bs).tallyAccess c.p .host u.addr n }
  | sp =>
    let (vs, f) ← Eng.request pos true sp u.addr n
    let c ← get
    let ps := servedPieces vs sp u.addr bs
    let es := ps.flatMap (if sp = .spm then coveredErrs 8 (c.s.core c.p).spmErr else
      fun x => (coveredErrs 32 (c.s.tierErrs sp) x).filter (fun e => e.2 != .hard))
    let old := (ps.flatMap (fun x => if sp = .spm then [(x.1, x.2.length)] else partsOf 64 x.1 x.2.length)).map
      (fun x => (x.1, c.s.bytesAt c.p sp x.1 x.2))
    let c1 := c.noteReq pos true sp u.addr n old es
    set { c1 with s := ps.foldl (fun s x => s.store c.p sp x) (c.s.tallyAccess c.p sp u.addr n),
                  wrote := addWrote c.wrote tile pos u.addr bs (c.s.sealOf c.p tile) c1.reqs.length (sealLost (lastMeets vs) tile) }
    Eng.raise f

/-- The `n`-th unit of an operand written. -/
def Eng.writeUnit (pos unit n : Nat) (bs : List Byte) : Eng Unit := do
  let u ← Eng.unitAddr pos unit n true
  Eng.writeAt pos u bs

/-- A byte string written to the units of an operand from its first on; the last unit is filled with zeros (R168). -/
def Eng.writeUnits (pos unit : Nat) (bs : List Byte) : Eng Unit := do
  let k := (bs.length + unit - 1) / unit
  let padded := bs ++ List.replicate (k * unit - bs.length) 0#8
  for n in List.range k do
    Eng.writeUnit pos unit n ((padded.drop (n * unit)).take unit)

/-- Codes written to an operand, packed as one stream (R137, R168). -/
def Eng.writeElems (pos unit w : Nat) (cs : List Nat) : Eng Unit :=
  Eng.writeUnits pos unit (packBytes w ((w * cs.length + 7) / 8) cs)

/-! ## Seals written (R205, R206, R208, R219, R220) -/

/-- One term of the seal digest (R220). -/
def digestTerm (logical space addr : Nat) (x : Seal) : Nat :=
  leNat (shake128 8 (ascii "JLN-DIG1" ++ leBytes 2 logical ++ leBytes 1 space ++ [0#8] ++ leBytes 8 addr ++
    leBytes 8 x.toNat))

/-- A term added to the digest of the trick group of a core's hand (R220). -/
def State.addDigest (s : State) (p space addr : Nat) (x : Seal) : State :=
  match (s.core p).member with
  | none => s
  | some m =>
    let v := (SMap.get 0 s.digests m.group + digestTerm m.logical space addr x) % 2 ^ 64
    { s with digests := SMap.set 0 s.digests m.group v }

/-- A seal written by the running instruction, with its digest term when DIGEST is 1 (R207, R220); that of a writer whose last line is
served later stays (R235). -/
def Eng.putSeal (t : TileAt) (x : Seal) : Eng Unit := do
  let c ← get
  let ws := c.wrote.filter (fun w => w.at_ == t)
  if !ws.any (fun w => w.later) then
    let upd : SealUpd := ⟨t, c.s.sealOf c.p t, ws.foldl (fun m w => max m w.at') 0⟩
    set { c with s := c.s.setSealOf c.p t x, seals := c.seals ++ [upd] }
  if c.word.digest && t.space != .host then Eng.onState (fun s => s.addDigest c.p t.space.code t.addr x)

/-- The first seal of an instruction that R219 poisons counts the instruction (R223). -/
def Eng.markPropagate : Eng Unit := do
  let c ← get
  if c.poison && !c.marked && !c.word.verify then
    set { c with s := c.s.bump R.SEA_CNT_PROPAGATE c.p, marked := true }

/-- The tiles written that `sel` picks, each once (R207), as the record of the operand that wrote all its lines, else its first (R205; between two that
did, and that a tile of which each operand wrote only some lines is one written in part, DESIGN CHOICE, log entry 127). -/
def ECtx.sealed (c : ECtx) (sel : WroteTile → Bool) : List WroteTile :=
  let ws := c.wrote.filter (fun w => w.at_.space != .host && sel w)
  ((ws.map (·.at_)).eraseDups).filterMap (fun t =>
    let mine := ws.filter (fun w => w.at_ == t)
    mine.find? (fun w => w.lines.length == 64) <|> mine.head?)

/-- The seals of the written tiles that `sel` picks (R205, R206, R219): `fmt pos` gives FMT and SCALE of the operand.  The CRC is
that of the content written, whatever another writer has left of it (R205). -/
def Eng.writeSealsOf (sel : WroteTile → Bool) (fmt : Nat → Nat × Nat) : Eng Unit := do
  let c ← get
  if c.sealed sel ≠ [] then Eng.markPropagate
  for w in c.sealed sel do
    let a ← Eng.slot w.pos
    let core ← Eng.core
    let whole := w.lines.length == 64
    if whole && c.word.wseal then
      let crc := crc32c (w.lines.flatMap (·.2))
      let crc' := if core.seaInject then crc ^^^ 1 else crc
      Eng.onCore (fun k => { k with seaInject := false })
      Eng.putSeal w.at_ (mkSeal crc' a.gen (fmt w.pos).1 (fmt w.pos).2 (core.slotEpoch a) c.poison)
    else
      Eng.putSeal w.at_ (unsealed (c.poison || (!whole && sealPoison w.before)))

/-- The seals of every tile written. -/
def Eng.writeSeals (fmt : Nat → Nat × Nat) : Eng Unit := Eng.writeSealsOf (fun _ => true) fmt

/-- The tiles an instruction has written. -/
def ECtx.tiles (c : ECtx) : List TileAt := (c.wrote.map (·.at_)).eraseDups

end Sys2Proof.Machine
end

