-- ==== Sys2Proof/Machine/Mxu.lean ====
section
/-! DEFINITION. Bodies of the matrix-engine instructions MLOAD, MMUL, MDRAIN and MBURN (R171 to R182), with the sums of
R152 and R156 to R158 and the checksum comparison of R179 to R181. -/

namespace Sys2Proof.Machine

/-- A state fault of R173 counted and announced on the MXU page (R199, R200). -/
def State.mxuState (s : State) (p : Nat) : State := (s.bump R.MXU_CNT_STATE p).raiseEvt .mxu p 2 0x0502

/-- A state fault of R173: recorded on the MXU page, ILLEGAL_OPCODE, no effect. -/
def Eng.mxuState {α : Type} : Eng α := do
  let c ← get
  Eng.onState (fun s => s.mxuState c.p)
  Eng.fail 0x0502

/-- Number of E8M0 blocks of a K-vector (R146, R171). -/
def kBlocks (krows : Nat) : Nat := (krows + 31) / 32

/-- The scale codes of `rows` K-vectors: bytes for E8M0, words for FP32 (R171, R172). -/
def Eng.readScales (mode rows nb : Nat) : Eng (List Nat) :=
  match mode with
  | 1 => Eng.readElems 1 64 8 (rows * nb)
  | 2 => Eng.readElems 1 64 32 rows
  | _ => return []

/-- The scale of K-vector `i`, block `b`, as a value (R145, R146). -/
def scaleVal (mode : Nat) (scales : List Nat) (nb i b : Nat) : Val :=
  match mode with
  | 1 => e8m0 (scales.getD (i * nb + b) 0)
  | 2 => Fmt.decode .fp32 (scales.getD i 0)
  | _ => Val.ofRat 1

/-- The body of MLOAD (R171). -/
def bodyMload : Eng Unit := do
  let c ← get
  let w := c.word
  let k := w.krows
  let n := w.ncols
  let str ← Eng.readElems 0 4096 (fmtWidth w.sfmt) (k * n)
  let scales ← Eng.readScales w.scale n (kBlocks k)
  Eng.checkReads
  let codes := if w.mlTrans then
      (List.range (k * n)).map (fun i => str.getD (i % n * k + i / n) 0)
    else str
  Eng.onCore (fun c => { c with
    bufs := SMap.set StatBuf.empty c.bufs w.mlBuf ⟨true, w.sfmt, w.scale, k, n, codes, scales⟩ })

/-- Accumulator blocks that an instruction touches (R172). -/
def touched (ablk mrows : Nat) : List Nat := (List.range ((mrows + 63) / 64)).map (fun i => ablk + i)

/-- Whether an MMUL starts a new sum (R75, R100). -/
def startsSum (first : Nat) (loop0 : Option Nat) : Bool :=
  match first with
  | 0 => false
  | 1 => true
  | _ => match loop0 with
    | none => true
    | some i => i == 0

/-- The largest E8M0 code other than 0xFF, or 127 when there is none (R155). -/
def e8m0Max (l : List Nat) : Nat :=
  let l' := l.filter (fun x => x != 255)
  if l'.isEmpty then 127 else l'.foldl max 0

/-- The anchor that a new sum takes (R155). -/
def newAnchor (w : Slot) (f : Fmt) (rowScales bufScales : List Nat) : Int :=
  match w.anchSrc with
  | 0 => 2 * f.anchorQ + 5 + ((e8m0Max rowScales : Int) - 127) + ((e8m0Max bufScales : Int) - 127)
  | 1 => 2 * f.anchorQ + 5 + ceilLog2 (qabs (Fmt.decode .fp32 w.tscale).rat)
  | _ => w.anchor

/-- Sum of values as a block sum: its class joined over the products, its exact sum when finite (R156, R158). -/
def blockSum (ps : List Val) : Val :=
  match ps.foldl (fun c v => c.join v.cls) Cls.finite with
  | .nan => .nan
  | .posInf => .inf false
  | .negInf => .inf true
  | .finite => Val.ofRat (ps.foldl (fun a v => a + v.rat) 0)

/-- One addend into an anchored element (R156, R158, R179). -/
def AccEl.addBlock (e : AccEl) (anchor : Int) (s : Val) : AccEl :=
  match s with
  | .fin _ q =>
    let x := q * pow2 (95 - anchor)
    { e with t := e.t + x.floor, trunc := e.trunc || decide ((x.floor : Rat) ≠ x) }
  | v => { e with cls := e.cls.join v.cls }

/-- The range check after an instruction (R157): the element and whether it raises ACC_OVERFLOW. -/
def AccEl.check (e : AccEl) : AccEl × Bool :=
  if windowMax < e.t then ({ e with sat := if e.sat = 0 then 1 else e.sat }, true)
  else if e.t < -windowMax then ({ e with sat := if e.sat = 0 then -1 else e.sat }, true)
  else (e, false)

/-- The window of an element (R157). -/
def AccEl.window (e : AccEl) : Int := if e.sat = 0 then e.t else e.sat * windowMax

/-- The products of one element: block number, code product, product of decoded values, and scale (R143, R146, R152, R179). -/
structure Prod where
  blk   : Nat
  val   : Val
  dec   : Val
  scale : Val
  deriving DecidableEq, Repr

/-- Product of two codes: in the matrix engine an L8 product follows R143. -/
def codeProd (f : Fmt) (a b : Nat) : Val := if f = .l8 then l8Prod a b else (f.decode a).mul (f.decode b)

/-- An element of an ordered sum after adding products in order (R152). -/
def orderedAdd (e : AccEl) (ps : List Prod) : AccEl :=
  { e with f32 := ps.foldl (fun c p => ieeeFp32 ((Fmt.decode .fp32 c).add (p.val.mul p.scale))) e.f32 }

/-- An element of an anchored sum after adding the block sums of its products (R156). -/
def anchoredAdd (anchor : Int) (e : AccEl) (ps : List Prod) (nblocks : Nat) : AccEl :=
  (List.range nblocks).foldl (fun e b =>
    let bs := ps.filter (fun p => p.blk == b)
    match bs with
    | [] => e
    | p :: _ => e.addBlock anchor ((blockSum (bs.map (·.val))).mul p.scale)) e

/-- The checksum quantities of a column after adding the products of one element (R179). -/
def AccCol.addProds (col : AccCol) (grid : Rat) (ps : List Prod) : AccCol :=
  ps.foldl (fun col p =>
    match p.dec.mul p.scale with
    | .fin _ q => { col with c := col.c + q * grid, m := col.m + qabs q * grid }
    | _ => { col with fin := false }) col

/-- One element `(r, j)` of a block updated by its products (R152, R156, R157, R179), and whether it overflowed.  A block that holds an
anchored sum adds FP32 products anchored too (R153; DESIGN CHOICE, log entry 115). -/
def AccBlock.addEl (b : AccBlock) (r j : Nat) (ps : List Prod) (nblocks : Nat) : AccBlock × Bool :=
  let e := SMap.get AccEl.zero b.els (r * 256 + j)
  let grid : Rat := if b.anchored then pow2 (95 - b.anchor) else 1
  let (e', o) := if b.anchored then (anchoredAdd b.anchor e ps nblocks).check else (orderedAdd e ps, false)
  let col := (SMap.get AccCol.zero b.cols j).addProds grid ps
  ({ b with els := SMap.set AccEl.zero b.els (r * 256 + j) e', cols := SMap.set AccCol.zero b.cols j col }, o)

/-- Whether an MMUL finds its buffer loaded in its format and, when it adds, its blocks holding sums of the buffer's width (R173). -/
def Core.mmulReady (core : Core) (w : Slot) (loop0 : Option Nat) : Bool :=
  let buf := core.buf w.mmBuf
  buf.full && buf.sfmt == w.sfmt && buf.scale == w.scale &&
    (startsSum w.first loop0 ||
      (touched w.ablk w.mrows).all (fun t => (core.block t).held && (core.block t).width == buf.ncols))

/-- The index of R421 for a multiply-accumulate of a format. -/
def Fmt.macIndex (f : Fmt) : Nat := if f.width = 8 then 0 else if f.width < 8 then 1 else if f.width = 16 then 2 else 3

/-- The body of MMUL (R172 to R174). -/
def bodyMmul : Eng Unit := do
  let c ← get
  let w := c.word
  let core ← Eng.core
  let buf := core.buf w.mmBuf
  let new := startsSum w.first c.loop0
  let ts := touched w.ablk w.mrows
  if !core.mmulReady w c.loop0 then Eng.mxuState
  let f := (Fmt.ofCode w.sfmt).getD .fp32
  let nb := kBlocks buf.krows
  let a ← Eng.readElems 0 4096 f.width (w.mrows * buf.krows)
  let sc ← Eng.readScales w.scale w.mrows nb
  Eng.checkReads
  let mut ovf := false
  for t in ts do
    let rows := (List.range w.mrows).filter (fun i => i / 64 + w.ablk == t)
    let rowSc := rows.flatMap (fun i => (List.range nb).map (fun b => sc.getD (i * nb + b) 255))
    let start : AccBlock := if new then
        ⟨true, w.acc, if w.acc then newAnchor w f rowSc buf.scales else 0, buf.ncols, [], [], 0, false⟩
      else core.block t
    let start' := { start with nb := start.nb + nb, l8 := start.l8 || f == .l8 }
    let prods (i j : Nat) : List Prod := (List.range buf.krows).map (fun k =>
      let x := a.getD (i * buf.krows + k) 0
      let y := buf.codes.getD (k * buf.ncols + j) 0
      ⟨k / 32, codeProd f x y, (f.decode x).mul (f.decode y),
        (scaleVal w.scale sc nb i (k / 32)).mul (scaleVal w.scale buf.scales nb j (k / 32))⟩)
    let done := rows.foldl (fun acc i => (List.range buf.ncols).foldl (fun (acc : AccBlock × Bool) j =>
      let r := acc.1.addEl (i % 64) j (prods i j) nb
      (r.1, acc.2 || r.2)) acc) (start', false)
    Eng.onCore (fun k => k.setBlock t done.1)
    ovf := ovf || done.2
  Eng.onState (fun s => s.tally c.p f.macIndex (w.mrows * buf.krows * buf.ncols))
  Eng.freeCount (fun s n => s.bumpPair R.MXU_ACTIVE_LO R.MXU_ACTIVE_HI n c.p)
  if ovf then
    Eng.onState (fun s => (s.bump R.MXU_CNT_OVERFLOW c.p).raiseEvt .mxu c.p 1 0x0202)
    Eng.fail 0x0202

/-! ## The drain (R176 to R181) -/

/-- The value of a drained element (R159, R176). -/
def AccBlock.elVal (b : AccBlock) (r j : Nat) : Val :=
  let e := SMap.get AccEl.zero b.els (r * 256 + j)
  if b.anchored then
    match e.cls with
    | .finite => Val.ofRat ((e.window : Rat) * pow2 (b.anchor - 95))
    | .posInf => .inf false
    | .negInf => .inf true
    | .nan => .nan
  else Fmt.decode .fp32 e.f32

/-- The anchored code of a drained element (R161). -/
def AccBlock.elAnch (b : AccBlock) (f : Anch) (r j : Nat) : Nat :=
  let e := SMap.get AccEl.zero b.els (r * 256 + j)
  if e.cls = .finite then
    match f with
    | .a128 => f.encode (some e.window)
    | .a64 => f.encode (some (max (e.window / 2 ^ 64) (-a64Max)))
  else f.encode none

/-- Whether column `j` of a block passes the comparison (R180); `extra` is what MXU_CTRL.INJECT adds to C. -/
def AccBlock.colPasses (b : AccBlock) (j tol : Nat) (extra : Rat) : Bool :=
  let es := (List.range 64).map (fun r => SMap.get AccEl.zero b.els (r * 256 + j))
  let col := SMap.get AccCol.zero b.cols j
  let cj := col.c + extra
  if b.anchored then
    if !col.fin || es.any (fun e => e.cls != .finite || e.sat != 0) then true
    else
      let d : Rat := cj - ((es.foldl (fun a e => a + e.t) 0 : Int) : Rat)
      let ej : Rat := ((es.filter (fun e => e.trunc)).length : Nat)
      if b.l8 then
        let δ := pow2 (-14) * col.m
        decide (-δ ≤ d) && decide (d ≤ ej * (b.nb : Rat) + δ)
      else if ej = 0 then decide (d = 0)
      else decide (0 < d) && decide (d < ej * (b.nb : Rat))
  else
    let vs := es.map (fun e => Fmt.decode .fp32 e.f32)
    if !col.fin || vs.any (fun v => !v.isFin) then true
    else
      let sj := vs.foldl (fun a v => a + v.rat) 0
      let δ := pow2 (-(if tol = 0 then 16 else tol : Int)) + (if b.l8 then pow2 (-14) else 0)
      decide (qabs (cj - sj) ≤ δ * col.m)

/-- The first failing block and column among drained blocks (R181). -/
def firstMismatch (core : Core) (ts : List Nat) (tol : Nat) (inject : Bool) : Option (Nat × Nat) :=
  (ts.zipIdx).findSome? (fun x =>
    let b := core.block x.1
    ((List.range b.width).find? (fun j => !b.colPasses j tol (if inject && x.2 == 0 && j == 0 then 1 else 0))).map
      (fun j => (x.1, j)))

/-- The destination codes and scale codes of a drain with OUT 0b00 (R151, R159, R176). -/
def drainRow (f : Fmt) (scale : Nat) (vs : List Val) : List Nat × List Nat :=
  match scale with
  | 1 =>
    (List.range (kBlocks vs.length)).foldl (fun acc b =>
      let r := scaleE8m0 f .nearest ((vs.drop (32 * b)).take 32)
      (acc.1 ++ r.2, acc.2 ++ [r.1])) ([], [])
  | 2 => let r := scaleFp32 f .nearest vs; (r.2, [r.1])
  | _ => (vs.map (f.encode .nearest), [])

/-- The places that `k` units of a destination operand would be written to (R97, R98), none for one that a full queue or the region
bounds refuse (R55, R57). -/
def Eng.destUnits (pos k unit : Nat) : Eng (List (Option TileAt)) := do
  let a ← Eng.slot pos
  let core ← Eng.core
  let c ← get
  let bounded (u : TileAt) : Option TileAt := if accessOk c.s core u.space true u.addr unit then some u else none
  return (List.range k).map (fun n =>
    if a.queue then
      match core.queues[a.qnum]? with
      | some x => if unit = 4096 ∧ x.tail + n < x.head + x.depth then bounded ⟨.spm, 4096 * (x.base + (x.tail + n) % x.depth)⟩ else none
      | none => none
    else bounded ⟨a.space, a.addr unit n⟩)

/-- The tiles of destination units poisoned, up to the first that could not have been written (R181). -/
def Eng.poisonDest (us : List (Option TileAt)) : Eng Unit := do
  let tiles : List TileAt := ((us.takeWhile (·.isSome)).filterMap id).map (fun u => ⟨u.space, u.addr / 4096 * 4096⟩)
  modify (fun c => { c with s := c.s.poisonTiles c.p tiles })

/-- The body of MDRAIN (R176 to R181). -/
def bodyMdrain : Eng Unit := do
  let c ← get
  let w := c.word
  let core ← Eng.core
  let ts := touched w.ablk w.mrows
  let step := if w.out = 2 then 4 else 8
  if ts.any (fun t => !(core.block t).held ||
      (w.out != 0 && (!(core.block t).anchored || (core.block t).width % step != 0))) then
    Eng.mxuState
  let rows := (List.range w.mrows).map (fun i => (core.block (w.ablk + i / 64), i % 64))
  let f := (Fmt.ofCode w.dfmt).getD .fp32
  let drained := rows.map (fun x => drainRow f w.scale ((List.range x.1.width).map (fun j => x.1.elVal x.2 j)))
  let anch : Anch := if w.out = 1 then .a64 else .a128
  let codes := if w.out = 0 then drained.flatMap (·.1)
    else rows.flatMap (fun x => (List.range x.1.width).map (fun j => x.1.elAnch anch x.2 j))
  let wd := if w.out = 0 then f.width else 8 * anch.size
  let tiles := (codes.length * wd + 32767) / 32768
  let perTile := 4096 / anch.size
  let owner := rows.flatMap (fun x => List.replicate x.1.width x.1.anchor)
  let second := if w.out = 0 then drained.flatMap (·.2)
    else (List.range tiles).map (fun t => codeOf 16 (owner.getD (t * perTile) 0))
  let wd2 := if w.out ≠ 0 then 16 else if w.scale = 1 then 8 else 32
  if w.abft && !c.s.on R.MXU_CTRL_ABFT_DISABLE c.p then
    Eng.onCore (fun k => { k with mxuInject := false })
    match firstMismatch core ts w.tol core.mxuInject with
    | some (blk, col) =>
      let first ← Eng.destUnits 0 tiles 4096
      let rest ← Eng.destUnits 1 ((second.length * wd2 + 511) / 512) 64
      Eng.poisonDest (first ++ rest)
      Eng.onState (fun s => ((s.record1 R.MXU_ABFT_INFO_VALID c.p (fun s =>
        (((s.wr R.MXU_ABFT_INFO_BLOCK blk c.p).wr R.MXU_ABFT_INFO_COLUMN col c.p).wr R.MXU_ABFT_INFO_MODE
          (ofBool (core.block blk).anchored) c.p).wr R.MXU_ABFT_PC c.pc c.p)).bump R.MXU_CNT_ABFT c.p).raiseEvt .mxu c.p 0 0x0201)
      Eng.fail 0x0201
    | none => pure ()
  Eng.writeElems 0 4096 wd codes
  if second.length ≠ 0 then Eng.writeElems 1 64 wd2 second
  Eng.writeSeals (fun pos => if pos = 0 ∧ w.out = 0 then (w.dfmt, w.scale) else (0, 0))
  if !w.keep then
    Eng.onCore (fun k => ts.foldl (fun k t => k.setBlock t AccBlock.empty) k)

/-- The body of MBURN (R182): the array runs for 256 cycles a pass, active in BURN_DUTY + 1 of each 16 (R201), and nothing else changes. -/
def bodyMburn : Eng Unit := do
  let c ← get
  Eng.onState (fun s => (s.bumpPair R.MXU_BURN_LO R.MXU_BURN_HI (256 * c.word.passes) c.p).tally c.p 4
    (16 * c.word.passes * (s.rd R.MXU_CTRL_BURN_DUTY c.p + 1)))

end Sys2Proof.Machine
end

