-- ==== Sys2Proof/Machine/Dlt.lean ====
section
/-! DEFINITION. Body of the delta-merge instruction SPMM (R184, R375 to R378). -/

namespace Sys2Proof.Machine

/-- A panel header (R375). -/
structure Panel where
  addr  : Nat
  nnz   : Nat
  klen  : Nat
  vfmt  : Nat
  dscale : Nat
  deriving DecidableEq, Repr

/-- An entry of a panel record (R375). -/
structure PanelEnt where
  value  : Nat
  column : Nat
  k      : Nat
  deriving DecidableEq, Repr

/-- The panel header at an address (R375). -/
def Panel.ofLine (addr : Nat) (bs : List Byte) : Panel :=
  let f (o n : Nat) : Nat := leNat ((bs.drop o).take n)
  ⟨addr, f 0 4, f 4 2, f 6 1, f 8 4⟩

/-- The empty record of R375 and R376: no entry and KLEN 0.  A row that names it receives nothing (R378): the faults that R378 gives to a
named record are for a record with a K length (DEDUCED, log entry 96). -/
def Panel.isEmpty (p : Panel) : Bool := p.nnz == 0 && p.klen == 0

/-- Whether a named record has another K length than the first or a value format that is none of R375 (R378). -/
def Panel.illegal (p : Panel) (klen : Nat) : Bool :=
  !p.isEmpty && (p.klen != klen || !(p.vfmt == 1 || p.vfmt == 2 || (decide (3 ≤ p.vfmt) && decide (p.vfmt ≤ 9))))

/-- A panel entry from its 64 bits (R375). -/
def PanelEnt.ofNat (v : Nat) : PanelEnt := ⟨bitsOf v 0 16, bitsOf v 16 8, bitsOf v 24 16⟩

/-- The address of table entry `x` (R377); ILLEGAL_OPCODE when the slot has more than one level or `x` is not below
COUNT0 (DESIGN CHOICE, assumption 12: R377 only says that they must not). -/
def Eng.tableAddr (x : Nat) : Eng TileAt := do
  let a ← Eng.slot 1
  if a.queue then Eng.fail 0x0502
  else
    match a.loops with
    | [] => return ⟨a.space, (a.base + 64 * x) % 2 ^ 64⟩
    | [(cnt, str)] =>
      if x < cnt then return ⟨a.space, (((a.base : Int) + x * str) % ((2 ^ 64 : Nat) : Int)).toNat / 64 * 64⟩
      else Eng.fail 0x0502
    | _ => Eng.fail 0x0502

/-- A table entry's panel header read (R377). -/
def Eng.readPanel (x : Nat) : Eng Panel := do
  let t ← Eng.tableAddr x
  let bs ← Eng.readAt 1 t 64
  return Panel.ofLine t.addr bs

/-- The entries of a panel read from the lines after its header (R375, R377). -/
def Eng.readEntries (p : Panel) : Eng (List PanelEnt) := do
  let a ← Eng.slot 1
  let mut bs : List Byte := []
  for i in List.range ((p.nnz + 7) / 8) do
    let b ← Eng.readAt 1 ⟨a.space, p.addr + 64 * (i + 1)⟩ 64
    bs := bs ++ b
  return (elems 64 0 p.nnz bs).map PanelEnt.ofNat

/-- Bytes per activation row with SCALE 0b01 (R377). -/
def spmmPitch (klen wd : Nat) : Nat := (klen * wd + 511) / 512 * 64 + ((klen + 31) / 32 + 63) / 64 * 64

/-- The body of SPMM (R184, R377, R378): all reads, the checks of every tile once (R213), then the faults of what the records hold, then the
sums.  A K-block all of whose stored entries are 0 is left out; in a K-block that has a non-zero entry
every entry contributes its product (DEDUCED, log entry 96). -/
def bodySpmm : Eng Unit := do
  let c ← get
  let w := c.word
  let core ← Eng.core
  let ts := touched w.ablk w.mrows
  if ts.any (fun t => !(core.block t).held || !(core.block t).anchored) then Eng.mxuState
  let f := (Fmt.ofCode w.sfmt).getD .bf16
  let maps ← Eng.readElems 2 64 32 w.mrows
  let first ← Eng.readPanel 0
  let klen := first.klen
  let pitch := spmmPitch klen f.width
  let acts ← if w.scale = 0 then Eng.readElems 0 512 f.width (w.mrows * klen) else pure []
  let raw ← if w.scale = 0 then pure [] else Eng.readUnits 0 512 ((w.mrows * pitch + 511) / 512)
  let act (i k : Nat) : Nat :=
    if w.scale = 0 then acts.getD (i * klen + k) 0 else (elems f.width k 1 (raw.drop (i * pitch))).getD 0 0
  let actScale (i b : Nat) : Val :=
    if w.scale = 0 then Val.ofRat 1
    else e8m0 ((raw.getD (i * pitch + (klen * f.width + 511) / 512 * 64 + b) 0).toNat)
  let mut panels : List (Nat × Panel × List PanelEnt) := []
  let mut bad := false
  for m in maps.zipIdx do
    if !bitOf m.1 31 then
      let p ← Eng.readPanel (bitsOf m.1 0 12)
      if p.illegal klen then bad := true
      else
        let es ← Eng.readEntries p
        panels := panels ++ [(m.2, p, es)]
        if es.any (fun e => decide (klen ≤ e.k) || decide ((core.block (w.ablk + m.2 / 64)).width ≤ e.column)) then bad := true
  Eng.checkReads
  if bad then Eng.fail 0x0502
  let mut ovf := false
  let mut received : List (Nat × Nat) := []
  for x in panels do
      let i := x.1
      let p := x.2.1
      let es := x.2.2
      let t := w.ablk + i / 64
      let cur ← Eng.core
      let blk := cur.block t
      let vf := (Fmt.ofCode p.vfmt).getD .bf16
      let val (e : PanelEnt) : Val := vf.decode (bitsOf e.value 0 vf.width)
      let prod (e : PanelEnt) : Prod :=
        let v := (f.decode (act i e.k)).mul (val e)
        ⟨e.k / 32, v, v, (actScale i (e.k / 32)).mul (Fmt.decode .fp32 p.dscale)⟩
      let kept := es.filter (fun e => es.any (fun x => x.column == e.column && x.k / 32 == e.k / 32 && !((val x).isFin && (val x).rat == 0)))
      if kept ≠ [] then
        let cols := (kept.map (·.column)).eraseDups
        let done := cols.foldl (fun (acc : AccBlock × Bool) j =>
          let r := acc.1.addEl (i % 64) j ((kept.filter (fun e => e.column == j)).map prod) (kBlocks klen)
          (r.1, acc.2 || r.2)) (blk, false)
        Eng.onCore (fun k => k.setBlock t done.1)
        Eng.onState (fun s => s.tally c.p f.macIndex kept.length)
        received := (t, ((kept.map (fun e => e.k / 32)).eraseDups).length) :: received
        ovf := ovf || done.2
  let got := received
  Eng.onCore (fun k => ts.foldl (fun k t =>
    let b := k.block t
    k.setBlock t { b with nb := b.nb + ((got.filter (fun x => x.1 == t)).map (·.2)).foldl max 0 }) k)
  Eng.busy R.CMP_BUSY_DLT
  Eng.freeCount (fun s n => s.bumpPair R.MXU_ACTIVE_LO R.MXU_ACTIVE_HI n c.p)
  if ovf then
    Eng.onState (fun s => (s.bump R.CMP_CNT_DLT_OVERFLOW c.p).raiseEvt .cmp c.p 1 0x0202)
    Eng.fail 0x0202

end Sys2Proof.Machine
end

