-- ==== Sys2Proof/Machine/Dma.lean ====
section
/-! DEFINITION. Bodies of the DMA instructions DCOPY, DFILL and DGATHER (R243 to R247), and of the reduction-engine
instructions RADD, RANCHOR and RCVT (R195 to R197). -/

namespace Sys2Proof.Machine

/-- A seal copied unchanged (R208); the instruction counts once when a poisoned one is carried (R219, R223). -/
def Eng.putCopy (u : TileAt) (x : Seal) : Eng Unit := do
  if sealPoison x then
    let c ← get
    if !c.marked && !c.word.verify then set { c with s := c.s.bump R.SEA_CNT_PROPAGATE c.p, marked := true }
  Eng.putSeal u x

/-- The seals of the tiles that DCOPY or DGATHER has written whole, each once (R207): `l` holds for each unit written the seal carried to it,
or none where zeros were written.  A tile that was written more than once gets the seal of its last unit (DESIGN CHOICE, log entry 116). -/
def Eng.putCopies (l : List (TileAt × Option Seal)) : Eng Unit := do
  let last (t : TileAt) : Option Seal := ((l.reverse.find? (fun x => x.1 == t)).map (·.2)).getD none
  for t in ((l.map (·.1)).filter (fun t => t.space != .host)).eraseDups do
    match last t with
    | some x => Eng.putCopy t x
    | none => Eng.writeSealsOf (fun w => w.at_ == t) (fun _ => (0, 0))

/-- The body of DCOPY (R208, R243, R246): every source unit read, the checks, then the units written in order (DESIGN CHOICE, log entry
116). -/
def bodyDcopy : Eng Unit := do
  let c ← get
  let w := c.word
  let u := unitBytes w.unit
  let d ← Eng.slot 1
  let n := d.period
  let mut data : List (List Byte × Seal) := []
  for j in List.range n do
    let a ← Eng.unitAddr 0 u j false
    let r ← Eng.readSealed 0 a u
    data := data ++ [r]
  Eng.checkReads
  let mut units : List (TileAt × Option Seal) := []
  for x in data.zipIdx do
    let a ← Eng.unitAddr 1 u x.2 true
    Eng.writeAt 1 a x.1.1
    units := units ++ [(a, some x.1.2)]
  if u = 4096 then Eng.putCopies units else Eng.writeSeals (fun _ => (0, 0))

/-- The 32-bit pattern repeated over `n` bytes (R100). -/
def fillBytes (pattern n : Nat) : List Byte := (List.range n).map (fun i => BitVec.ofNat 8 (pattern >>> (8 * (i % 4))))

/-- The body of DFILL (R208, R243). -/
def bodyDfill : Eng Unit := do
  let c ← get
  let w := c.word
  let u := unitBytes w.unit
  let d ← Eng.slot 1
  for j in List.range d.period do
    Eng.writeUnit 1 u j (fillBytes w.pattern u)
  Eng.writeSeals (fun _ => (0, 0))

/-- The source address of an index of DGATHER (R245). -/
def gatherAddr (base unit : Nat) (stride : Int) (x : Nat) : Nat :=
  (((base : Int) + (x : Int) * stride) % ((2 ^ 64 : Nat) : Int)).toNat / unit * unit

/-- The body of DGATHER (R208, R245, R246). -/
def bodyDgather : Eng Unit := do
  let c ← get
  let w := c.word
  let u := unitBytes w.unit
  let a0 ← Eng.slot 0
  let a1 ← Eng.slot 1
  if a0.queue || a0.loops.length != 0 || decide (a1.period < w.grows) then Eng.fail 0x0502
  let idx ← Eng.readElems 2 64 32 w.grows
  let mut data : List (Option (List Byte × Seal)) := []
  for x in idx do
    if x = 0xFFFFFFFF then data := data ++ [none]
    else
      let a : TileAt := ⟨a0.space, gatherAddr a0.base u w.istride x⟩
      let r ← Eng.readSealed 0 a u
      data := data ++ [some r]
  Eng.checkReads
  let mut units : List (TileAt × Option Seal) := []
  for x in data.zipIdx do
    let a ← Eng.unitAddr 1 u x.2 true
    Eng.writeAt 1 a ((x.1.map (·.1)).getD (List.replicate u 0#8))
    units := units ++ [(a, x.1.map (·.2))]
  if u = 4096 then Eng.putCopies units else Eng.writeSeals (fun _ => (0, 0))

/-! ## The reduction engine -/

/-- ACC_OVERFLOW of the reduction engine (R199). -/
def Eng.redOverflow : Eng Unit := do
  let c ← get
  Eng.onState (fun s => (s.bump R.CMP_CNT_RED_OVERFLOW c.p).raiseEvt .cmp c.p 0 0x0202)
  Eng.fail 0x0202

/-- The form of a MODE code (R100). -/
def redForm (mode : Nat) : Anch := if mode = 1 then .a64 else .a128

/-- Sum of two lists of codes of one tile and whether an element saturated (R164, R195). -/
def raddTile (mode : Nat) (a b : List Nat) : List Nat × Bool :=
  if mode = 0 then
    (List.zipWith (fun x y => ieeeFp32 ((Fmt.decode .fp32 x).add (Fmt.decode .fp32 y))) a b, false)
  else
    let f := redForm mode
    let rs := List.zipWith (fun x y => f.add (f.decode x) (f.decode y)) a b
    (rs.map (fun r => f.encode r.1), rs.any (·.2))

/-- Element width of a MODE (R160, R195). -/
def redWidth (mode : Nat) : Nat := match mode with | 0 => 32 | 1 => 64 | _ => 128

/-- The body of RADD (R195).  Where both sources pop one queue, those of A0 come first (DESIGN CHOICE, log entry 129). -/
def bodyRadd : Eng Unit := do
  let c ← get
  let w := c.word
  let d ← Eng.slot 2
  let wd := redWidth w.redMode
  let per := 32768 / wd
  let a ← Eng.readElems 0 4096 wd (per * d.period)
  let b ← Eng.readElems 1 4096 wd (per * d.period)
  Eng.checkReads
  let r := raddTile w.redMode a b
  Eng.writeElems 2 4096 wd r.1
  Eng.writeSeals (fun _ => (0, 0))
  Eng.busy R.CMP_BUSY_RED
  if r.2 then Eng.redOverflow

/-- The body of RANCHOR (R162, R196). -/
def bodyRanchor : Eng Unit := do
  let c ← get
  let w := c.word
  if w.acc then
    let f := fmtOf' w.sfmt
    let s ← Eng.slot 0
    let n := s.period
    let per := 32768 / f.width
    let src ← Eng.readElems 0 4096 f.width (per * n)
    let recs ← Eng.readElems 1 64 16 n
    Eng.checkReads
    let out := (List.range n).map (fun t =>
      recMax (recOf (((src.drop (t * per)).take per).map f.decode)) (recs.getD t recEmpty))
    let lines := (n + 31) / 32
    Eng.writeElems 2 64 16 (out ++ List.replicate (32 * lines - n) recEmpty)
  else
    let d ← Eng.slot 2
    let n := 32 * d.period
    let a ← Eng.readElems 0 64 16 n
    let b ← Eng.readElems 1 64 16 n
    Eng.checkReads
    Eng.writeElems 2 64 16 (List.zipWith recMax a b)
  Eng.writeSeals (fun _ => (0, 0))
  Eng.busy R.CMP_BUSY_RED
where
  fmtOf' (code : Nat) : Fmt := (Fmt.ofCode code).getD .fp32

/-- The body of RCVT (R163, R165, R197). -/
def bodyRcvt : Eng Unit := do
  let c ← get
  let w := c.word
  let an := redForm w.redMode
  let f := (Fmt.ofCode (if w.acc then w.sfmt else w.dfmt)).getD .fp32
  let per := 32768 / f.width
  let held ← Eng.slot (if w.acc then 0 else 2)
  let n := held.period
  if w.acc then
    let src ← Eng.readElems 0 4096 f.width (per * n)
    let recs ← Eng.readElems 1 64 16 n
    Eng.checkReads
    let rs := (src.zipIdx).map (fun x => an.ofVal (recAnchor (recs.getD (x.2 / per) recEmpty)) (f.decode x.1))
    Eng.writeElems 2 4096 (8 * an.size) (rs.map (fun r => an.encode r.1))
    Eng.writeSeals (fun _ => (0, 0))
    Eng.busy R.CMP_BUSY_RED
    if rs.any (·.2) then Eng.redOverflow
  else
    let src ← Eng.readElems 0 4096 (8 * an.size) (per * n)
    let recs ← Eng.readElems 1 64 16 n
    Eng.checkReads
    Eng.writeElems 2 4096 f.width ((src.zipIdx).map (fun x =>
      f.encode w.rrmode (an.toVal (recAnchor (recs.getD (x.2 / per) recEmpty)) (an.decode x.1))))
    Eng.writeSeals (fun _ => (w.dfmt, 0))
    Eng.busy R.CMP_BUSY_RED

end Sys2Proof.Machine
end

