-- ==== Sys2Proof/Machine/Flit.lean ====
section
/-! DEFINITION. Flits as bytes (R256 to R259, R288, R306, R317, R346) and route table entries (R291). -/

namespace Sys2Proof.Machine

/-! ## Flit header and trailer (R256, R257) -/

/-- The 128-bit header of a flit. -/
def Flit.header (f : Flit) : Nat :=
  f.ty % 16 + 2 ^ 4 * ofBool f.nak + 2 ^ 5 * ofBool f.ddown + 2 ^ 6 * ofBool f.partner + 2 ^ 8 * (f.seq % 2 ^ 16) +
  2 ^ 24 * (f.ack % 2 ^ 16) + 2 ^ 40 * (f.route % 2 ^ 12) + 2 ^ 56 * (f.window % 2 ^ 6) + 2 ^ 64 * (f.offset % 2 ^ 24) +
  2 ^ 88 * (f.sflag % 2 ^ 9) + 2 ^ 97 * (f.sinc % 2 ^ 4) + 2 ^ 104 * (f.tag % 2 ^ 16)

/-- Bytes 0 to 271 of a flit: the part that its CRC covers. -/
def Flit.body (f : Flit) : List Byte :=
  leBytes 16 f.header ++ (f.payload ++ List.replicate 256 0#8).take 256

/-- The 288 bytes of a flit. -/
def Flit.encode (f : Flit) : List Byte :=
  f.body ++ leBytes 4 (crc32c f.body) ++ leBytes 8 f.carry.toNat ++ leBytes 4 0

/-- A flit of zeros. -/
def Flit.zero : Flit := ⟨0, false, false, false, 0, 0, 0, 0, 0, 0, 0, 0, List.replicate 256 0#8, 0#64⟩

/-- A field of a byte string, little-endian. -/
def fieldAt (bs : List Byte) (off n : Nat) : Nat := leNat ((bs.drop off).take n)

/-- The flit of 288 bytes whose CRC holds and whose type is not reserved (R255, R258). -/
def Flit.decode (bs : List Byte) : Option Flit :=
  let h := fieldAt bs 0 16
  if bs.length ≠ 288 then none
  else if fieldAt bs 272 4 ≠ crc32c (bs.take 272) then none
  else if 8 ≤ bitsOf h 0 4 then none
  else some {
    ty := bitsOf h 0 4, nak := bitOf h 4, ddown := bitOf h 5, partner := bitOf h 6, seq := bitsOf h 8 16,
    ack := bitsOf h 24 16, route := bitsOf h 40 12, window := bitsOf h 56 6, offset := bitsOf h 64 24,
    sflag := bitsOf h 88 9, sinc := bitsOf h 97 4, tag := bitsOf h 104 16,
    payload := (bs.drop 16).take 256, carry := BitVec.ofNat 64 (fieldAt bs 276 8) }

/-- Whether a flit is sequenced (R258). -/
def Flit.sequenced (f : Flit) : Bool := decide (1 ≤ f.ty) && decide (f.ty ≤ 5)

/-- A payload: fields as (offset from payload byte 16, size, value), zeros elsewhere. -/
def payloadOf (fields : List (Nat × Nat × Nat)) : List Byte :=
  fields.foldl (fun bs f => bs.take f.1 ++ leBytes f.2.1 f.2.2 ++ bs.drop (f.1 + f.2.1)) (List.replicate 256 0#8)

/-! ## TRICK and partner payloads (R317, R346); offsets count from payload byte 16 -/

/-- The payload of a TRICK flit. -/
def TrickFlit.payload (t : TrickFlit) : List Byte :=
  payloadOf [(0, 1, t.kind), (1, 1, t.group), (2, 2, t.trick), (4, 4, t.serial), (8, 4, t.need), (12, 8, t.t),
    (20, 4, t.handId), (24, 2, t.code), (26, 2, t.origin)]

/-- The TRICK flit that carries a payload (R317). -/
def TrickFlit.flit (t : TrickFlit) : Flit := { Flit.zero with ty := 5, tag := t.serial % 65536, payload := t.payload }

/-- The fields of a TRICK payload. -/
def TrickFlit.of (p : List Byte) : TrickFlit :=
  ⟨fieldAt p 0 1, fieldAt p 1 1 % 64, fieldAt p 2 2, fieldAt p 4 4, fieldAt p 8 4, fieldAt p 12 8, fieldAt p 20 4,
   fieldAt p 24 2, fieldAt p 26 2⟩

/-- The payload of a partner flit. -/
def PartnerFlit.payload (t : PartnerFlit) : List Byte :=
  payloadOf [(0, 1, t.kind), (1, 1, t.group), (4, 4, t.handId), (8, 4, t.deal), (12, 8, t.value), (20, 1, t.core),
    (21, 1, t.engine), (24, 4, t.index), (28, 4, t.pc)]

/-- The partner flit of a payload (R346). -/
def PartnerFlit.flit (t : PartnerFlit) : Flit := { Flit.zero with ty := 2, partner := true, payload := t.payload }

/-- The fields of a partner payload. -/
def PartnerFlit.of (p : List Byte) : PartnerFlit :=
  ⟨fieldAt p 0 1, fieldAt p 1 1 % 64, fieldAt p 4 4, fieldAt p 8 4, fieldAt p 12 8, fieldAt p 20 1,
   fieldAt p 21 1 % 16, fieldAt p 24 4, fieldAt p 28 4⟩

/-! ## Link block and beacon (R259, R306) -/

/-- The payload of an unsequenced flit: RETIRED, control code and argument, and beacon fields (none in CTRL). -/
def linkPayload (retired code arg : Nat) (b : Option Beacon) : List Byte :=
  payloadOf ([(0, 2, retired), (2, 2, code), (4, 2, arg)] ++
    (match b with
     | none => []
     | some b => [(16, 8, b.stamp), (24, 1, b.frac % 16), (25, 1, b.state % 8), (26, 1, b.stratum), (28, 2, b.root)]))

/-- The beacon of an IDLE or TIME flit's payload, with its arrival time in sixteenths of a nanosecond. -/
def Beacon.of (p : List Byte) (arrived : Int) : Beacon :=
  ⟨fieldAt p 16 8, fieldAt p 24 1 % 16, fieldAt p 25 1 % 8, fieldAt p 26 1, fieldAt p 28 2, arrived⟩

/-! ## Route table entries (R291) -/

/-- A route table entry. -/
structure Route where
  kind   : Nat
  port   : Nat
  next   : Nat
  flow   : Nat
  core   : Nat
  ret    : Nat
  chip   : Nat
  deriving DecidableEq, Repr

/-- The fields of a 64-bit entry. -/
def Route.of (v : Nat) : Route :=
  ⟨bitsOf v 0 2, bitsOf v 2 4, bitsOf v 6 12, bitsOf v 18 6, bitsOf v 24 8, bitsOf v 32 12, bitsOf v 44 16⟩

/-- The entry of a route index. -/
def State.route (s : State) (i : Nat) : Route := Route.of (SMap.get 0 s.routes i)

/-! ## Queues of a port -/

/-- A flow's queue. -/
def Port.flow (p : Port) (f : Nat) : List (Flit × Owner) := SMap.get [] p.flows f

/-- Flits placed at the tail of a flow (R295). -/
def State.pushFlow (s : State) (port flow : Nat) (fs : List (Flit × Owner)) : State :=
  s.onPort port (fun p => { p with flows := SMap.set [] p.flows flow (p.flow flow ++ fs) })

/-- Flits placed on the forward entry `i` (R291, R295): ROUTE becomes NEXT. -/
def State.sendRoute (s : State) (i : Nat) (fs : List (Flit × Owner)) : State :=
  let r := s.route i
  s.pushFlow r.port r.flow (fs.map (fun x => ({ x.1 with route := r.next }, x.2)))

/-- A TRICK or partner flit that waits to be sent on a port (R294 step 3, R346). -/
def State.sendTrick (s : State) (port : Nat) (f : Flit) : State :=
  s.onPort port (fun p => { p with tricks := p.tricks ++ [f] })

end Sys2Proof.Machine
end

