-- ==== Sys2Proof/Machine/Lse.lean ====
section
/-! DEFINITION. The link-send engine's instructions: LPUT, LFETCH and LSIG (R100, R208, R258, R285, R288, R290). -/

namespace Sys2Proof.Machine

/-- The 16 flits of one tile (R258), from window offset `off` on; `sig` is the signal of the DATA_LAST (flag and
increment; 0 increment: none). -/
def tileFlits (win off tag : Nat) (bs : List Byte) (carry : Seal) (sig : Nat × Nat) : List Flit :=
  (List.range 16).map (fun i =>
    let f : Flit := { Flit.zero with ty := 1, window := win, offset := off + 4 * i, tag := tag, payload := (bs.drop (256 * i)).take 256 }
    if i = 15 then { f with ty := 2, carry := carry, sflag := sig.1, sinc := sig.2 } else f)

/-- The hand tag of a core's dealing (R47). -/
def Core.handTag (c : Core) : Nat := ((c.member).map (fun m => m.serial % 65536)).getD 0

/-- LPUT: each tile of A0 read and, with VERIFY, checked; then its 16 flits placed in the route's flow with the tile's seal
in the DATA_LAST, and the instruction's signal in the last one when STGT is 0b11 (R100, R208, R209, R220, R258).  In search mode the terms
of its seals make its RECORD, whatever DIGEST (R348). -/
def bodyLput : Eng Unit := do
  let a ← Eng.slot 0
  if a.space ≠ .spm then Eng.fail 0x0502
  let mut tiles : List (List Byte × Seal) := []
  for j in List.range (max 1 a.period) do
    let u ← Eng.unitAddr 0 4096 j false
    let r ← Eng.readSealed 0 u 4096
    tiles := tiles ++ [r]
  Eng.checkReads
  if tiles.any (fun x => sealPoison x.2) then
    modify (fun c => { c with s := c.s.bump R.SEA_CNT_PROPAGATE c.p, marked := true })
  let c ← get
  let w := c.word
  let core ← Eng.core
  for x in tiles.zipIdx do
    let carry := x.1.2
    let off := w.woffset + 64 * x.2
    let sig := if w.stgt = 3 ∧ x.2 + 1 = tiles.length then (w.sflag, w.sinc) else (0, 0)
    let at' := w.route * 2 ^ 32 + w.rwin * 2 ^ 24 + off
    if w.digest then
      Eng.onState (fun s => s.addDigest c.p 4 at' carry)
    if c.s.partner.search then
      modify (fun c => { c with term := (c.term + digestTerm ((core.member.map (·.logical)).getD 0) 4 at' carry) % 2 ^ 64 })
    Eng.onState (fun s => s.sendRoute w.route
      ((tileFlits w.rwin off core.handTag x.1.1 carry sig).map (fun f => (f, Owner.lse c.p c.s.stamp))))

/-- Fetch tags in use by the LFETCH instructions in flight (R288). -/
def Core.fetchTags (c : Core) : List Nat := ((c.engine 5).exec.filter (fun x => x.word.op == some .lfetch)).map (·.remote)

/-- The lowest fetch tag not in use. -/
def Core.freeTag (c : Core) : Nat := ((List.range 8).find? (fun t => !c.fetchTags.contains t)).getD 0

/-- LFETCH: one FETCH flit for as many tiles as the period of A1 (R288). -/
def bodyLfetch : Eng Unit := do
  let a ← Eng.slot 1
  if a.space ≠ .spm then Eng.fail 0x0502
  if 2048 < a.period then Eng.fail 0x0502
  let c ← get
  let core ← Eng.core
  let w := c.word
  let f : Flit := { Flit.zero with ty := 4, window := w.rwin, offset := w.woffset, tag := core.handTag,
                                   payload := payloadOf [(0, 2, max 1 a.period), (2, 1, core.freeTag)] }
  Eng.onState (fun s => s.sendRoute w.route [(f, Owner.none)])

/-- LSIG: one SIGNAL flit on the signal word's route (R82, R258). -/
def bodyLsig : Eng Unit := do
  let c ← get
  let core ← Eng.core
  let w := c.word
  let f : Flit := { Flit.zero with ty := 3, sflag := w.sflag, sinc := w.sinc, tag := core.handTag }
  Eng.onState (fun s => s.sendRoute w.starget [(f, Owner.lse c.p c.s.stamp)])

end Sys2Proof.Machine
end

