-- ==== Sys2Proof/Machine/Xfn.lean ====
section
/-! DEFINITION. Correctly rounded functions of R189, and the exponential and logarithm of R193 and R194, by interval
arithmetic: an enclosure of the exact value is refined until both ends convert to one code.  Past the bounds where a
result differs from its limit by less than any rounding can see, a rational strictly on the right side of the limit
stands for it. -/

namespace Sys2Proof.Machine

/-- A closed interval of rationals. -/
structure Iv where
  lo : Rat
  hi : Rat
  deriving DecidableEq, Repr

/-- Outward rounding of an interval to multiples of `2^-n`. -/
def Iv.trim (n : Nat) (a : Iv) : Iv :=
  let s : Rat := (2 ^ n : Nat)
  ⟨((a.lo * s).floor : Rat) / s, -(((-a.hi * s).floor : Rat) / s)⟩

/-- A point. -/
def Iv.pt (q : Rat) : Iv := ⟨q, q⟩

/-- Sum. -/
def Iv.add (a b : Iv) : Iv := ⟨a.lo + b.lo, a.hi + b.hi⟩

/-- Negation. -/
def Iv.neg (a : Iv) : Iv := ⟨-a.hi, -a.lo⟩

/-- Product. -/
def Iv.mul (a b : Iv) : Iv :=
  let p := a.lo * b.lo
  let q := a.lo * b.hi
  let r := a.hi * b.lo
  let t := a.hi * b.hi
  ⟨min (min p q) (min r t), max (max p q) (max r t)⟩

/-- Reciprocal of an interval that does not hold 0. -/
def Iv.inv (a : Iv) : Iv := ⟨1 / a.hi, 1 / a.lo⟩

/-- Power series of the exponential for `0 ≤ x ≤ 1/2`, `k` terms from term `t` of index `i`. -/
def expSum (n : Nat) (x : Iv) : Nat → Nat → Iv → Iv → Iv
  | 0, _, _, s => s.add ⟨0, 1 / ((2 ^ n : Nat) : Rat)⟩
  | k + 1, i, t, s =>
    let t' := ((t.mul x).mul (Iv.pt (1 / ((i + 1 : Nat) : Rat)))).trim (n + 8)
    expSum n x k (i + 1) t' ((s.add t').trim (n + 8))

/-- Repeated squaring. -/
def ivSquare (n : Nat) : Nat → Iv → Iv
  | 0, a => a
  | k + 1, a => ivSquare n k ((a.mul a).trim n)

/-- `e^x` for an interval of non-negative ends below `2^12`. -/
def expPos (n : Nat) (x : Iv) : Iv :=
  let m := n + 4096 + 32
  let k := 13
  let y := (x.mul (Iv.pt (1 / ((2 ^ k : Nat) : Rat)))).trim m
  ivSquare m k (expSum m y (m / 2) 0 (Iv.pt 1) (Iv.pt 1))

/-- `e^x` for an interval whose ends lie within `2^12` of 0. -/
def ivExp (n : Nat) (x : Iv) : Iv :=
  let pos (q : Rat) : Iv := if 0 ≤ q then expPos n (Iv.pt q) else (expPos n (Iv.pt (-q))).inv
  ⟨(pos x.lo).lo, (pos x.hi).hi⟩

/-- Sum of `z^(2i+1)/(2i+1)`, the inverse hyperbolic tangent, for `0 ≤ z ≤ 1/3`. -/
def atanhSum (n : Nat) (z2 : Iv) : Nat → Nat → Iv → Iv → Iv
  | 0, _, _, s => s.add ⟨0, 1 / ((2 ^ n : Nat) : Rat)⟩
  | k + 1, i, p, s =>
    let s' := (s.add (p.mul (Iv.pt (1 / ((2 * i + 1 : Nat) : Rat))))).trim (n + 8)
    atanhSum n z2 k (i + 1) ((p.mul z2).trim (n + 8)) s'

/-- Inverse hyperbolic tangent of a rational between 0 and 1/3. -/
def ivAtanh (n : Nat) (z : Rat) : Iv :=
  let zi := (Iv.pt z).trim (n + 16)
  atanhSum n ((zi.mul zi).trim (n + 16)) (n / 3 + 4) 0 zi (Iv.pt 0)

/-- `ln 2`. -/
def ivLn2 (n : Nat) : Iv := (Iv.pt 2).mul (ivAtanh n (1 / 3))

/-- Natural logarithm of a positive rational. -/
def ivLn (n : Nat) (x : Rat) : Iv :=
  let e := floorLog2 x
  let m := x * pow2 (-e)
  ((Iv.pt (e : Rat)).mul (ivLn2 (n + 16))).add ((Iv.pt 2).mul (ivAtanh n ((m - 1) / (m + 1))))

/-- Square root of a non-negative rational. -/
def ivSqrt (n : Nat) (x : Rat) : Iv :=
  let v := (x * ((2 ^ (2 * n) : Nat) : Rat)).floor.toNat
  let r := Nat.sqrt v
  ⟨(r : Rat) / ((2 ^ n : Nat) : Rat), ((r + 1 : Nat) : Rat) / ((2 ^ n : Nat) : Rat)⟩

/-- Square root of an interval of non-negative ends. -/
def ivSqrtI (n : Nat) (x : Iv) : Iv := ⟨(ivSqrt n x.lo).lo, (ivSqrt n x.hi).hi⟩

/-- Sum of the alternating series of the inverse tangent of `1/q`. -/
def atanSum (n : Nat) (q2 : Rat) : Nat → Nat → Rat → Iv → Iv
  | 0, _, _, s => s.add ⟨-(1 / ((2 ^ n : Nat) : Rat)), 1 / ((2 ^ n : Nat) : Rat)⟩
  | k + 1, i, p, s =>
    let t := p / ((2 * i + 1 : Nat) : Rat)
    atanSum n q2 k (i + 1) (p / q2) ((s.add (Iv.pt (if i % 2 = 0 then t else -t))).trim (n + 8))

/-- `π`, by Machin's formula. -/
def ivPi (n : Nat) : Iv :=
  let at' (q : Rat) : Iv := atanSum n (q * q) (n / 4 + 4) 0 (1 / q) (Iv.pt 0)
  ((Iv.pt 16).mul (at' 5)).add ((Iv.pt 4).mul (at' 239)).neg

/-- Sum of the error function's series `Σ (−1)^k y^(2k+1) / (k! (2k+1))`. -/
def erfSum (n : Nat) (y2 : Iv) : Nat → Nat → Iv → Iv → Iv
  | 0, _, _, s => s.add ⟨-(1 / ((2 ^ n : Nat) : Rat)), 1 / ((2 ^ n : Nat) : Rat)⟩
  | k + 1, i, p, s =>
    let t := p.mul (Iv.pt (1 / ((2 * i + 1 : Nat) : Rat)))
    let s' := (s.add (if i % 2 = 0 then t else t.neg)).trim (n + 8)
    erfSum n y2 k (i + 1) (((p.mul y2).mul (Iv.pt (1 / ((i + 1 : Nat) : Rat)))).trim (n + 8)) s'

/-- `erf (x / √2)` for `|x| ≤ 40`. -/
def ivErfScaled (n : Nat) (x : Rat) : Iv :=
  let m := n + 2400
  let y := ((Iv.pt x).mul (ivSqrt m 2).inv).trim m
  let y2 := (Iv.pt (x * x / 2)).trim m
  let sum := erfSum m y2 (m + 4400) 0 y (Iv.pt 0)
  (Iv.pt 2).mul (sum.mul (ivSqrtI m (ivPi (2 * m))).inv)

/-- `tanh` of an interval whose ends lie within 400 of 0. -/
def ivTanh (n : Nat) (x : Iv) : Iv :=
  let t (q : Iv) : Iv :=
    let e := ivExp n ((Iv.pt 2).mul q)
    (e.add (Iv.pt (-1))).mul (e.add (Iv.pt 1)).inv
  ⟨(t (Iv.pt x.lo)).lo, (t (Iv.pt x.hi)).hi⟩

/-- The operations of the function engine (R100, R189). -/
inductive XOp where
  | exp (base2 : Bool)
  | log (base2 : Bool)
  | rsqrt
  | geluTanh
  | geluErf
  | silu
  | sigmoid
  | tanh
  | softplus
  deriving DecidableEq, Repr

/-- What an operation gives at a source value: an exact value, or an enclosure for each precision. -/
inductive XRes where
  | exact (v : Val)
  | encl (f : Nat → Iv)

/-- A rational just below, just above `x`, or just beside 0: it stands for a value that lies closer to its limit
than any rounding of R147 to a format of at most 24 significant bits can see. -/
def justUnder (x : Rat) : Val := Val.ofRat (x * (1 - pow2 (-4000)))

/-- See `justUnder`. -/
def justOver (x : Rat) : Val := Val.ofRat (x * (1 + pow2 (-4000)))

/-- The rational square root of a rational, when there is one. -/
def exactSqrt (q : Rat) : Option Rat :=
  let a := Nat.sqrt q.num.natAbs
  let b := Nat.sqrt q.den
  if a * a = q.num.natAbs ∧ b * b = q.den then some ((a : Rat) / (b : Rat)) else none

/-- The functions at a finite source value (R189).  The logarithm of 1 is +0 (R147 names no sign; DESIGN CHOICE, log entry 114). -/
def XOp.atFin (op : XOp) (neg : Bool) (x : Rat) : XRes :=
  match op with
  | .exp b2 =>
    if x = 0 then .exact (Val.ofRat 1)
    else if b2 ∧ x.den = 1 ∧ qabs x ≤ 400 then .exact (Val.ofRat (pow2 x.num))
    else if 400 < x then .exact (Val.ofRat (pow2 400))
    else if x < -400 then .exact (Val.ofRat (pow2 (-400)))
    else if b2 then .encl (fun n => ivExp n (((Iv.pt x).mul (ivLn2 (n + 16))).trim (n + 1024)))
    else .encl (fun n => ivExp n (Iv.pt x))
  | .log b2 =>
    if x = 0 then .exact (.inf true)
    else if x < 0 then .exact .nan
    else if x = 1 then .exact (Val.ofRat 0)
    else if b2 ∧ pow2 (floorLog2 x) = x then .exact (Val.ofRat (floorLog2 x))
    else if b2 then .encl (fun n => (ivLn n x).mul (ivLn2 n).inv)
    else .encl (fun n => ivLn n x)
  | .rsqrt =>
    if x = 0 then .exact (.inf neg)
    else if x < 0 then .exact .nan
    else match exactSqrt x with
      | some r => .exact (Val.ofRat (1 / r))
      | none => .encl (fun n => (ivSqrt (n + 400) x).inv)
  | .geluTanh =>
    if x = 0 then .exact (.fin neg 0)
    else if 40 < x then .exact (justUnder x)
    else if x < -40 then .exact (Val.ofRat (-(pow2 (-4000))))
    else .encl (fun n =>
      let c := ivSqrtI (n + 400) ((Iv.pt 2).mul (ivPi (n + 800)).inv)
      let u := c.mul (Iv.pt (x + 44715 / 1000000 * x ^ 3))
      (Iv.pt (x / 2)).mul ((Iv.pt 1).add (ivTanh n (u.trim (n + 1024)))))
  | .geluErf =>
    if x = 0 then .exact (.fin neg 0)
    else if 40 < x then .exact (justUnder x)
    else if x < -40 then .exact (Val.ofRat (-(pow2 (-4000))))
    else .encl (fun n => (Iv.pt (x / 2)).mul ((Iv.pt 1).add (ivErfScaled n x)))
  | .silu =>
    if x = 0 then .exact (.fin neg 0)
    else if 400 < x then .exact (justUnder x)
    else if x < -400 then .exact (Val.ofRat (-(pow2 (-400))))
    else .encl (fun n => (Iv.pt x).mul ((Iv.pt 1).add (ivExp n (Iv.pt (-x)))).inv)
  | .sigmoid =>
    if x = 0 then .exact (Val.ofRat (1 / 2))
    else if 400 < x then .exact (justUnder 1)
    else if x < -400 then .exact (Val.ofRat (pow2 (-400)))
    else .encl (fun n => ((Iv.pt 1).add (ivExp n (Iv.pt (-x)))).inv)
  | .tanh =>
    if x = 0 then .exact (.fin neg 0)
    else if 400 < x then .exact (justUnder 1)
    else if x < -400 then .exact (justUnder (-1))
    else .encl (fun n => ivTanh n (Iv.pt x))
  | .softplus =>
    if 400 < x then .exact (justOver x)
    else if x < -400 then .exact (Val.ofRat (pow2 (-400)))
    else .encl (fun n =>
      let e := (Iv.pt 1).add (ivExp n (Iv.pt x))
      ⟨(ivLn (n + 700) e.lo).lo, (ivLn (n + 700) e.hi).hi⟩)

/-- The functions at any source value (R189). -/
def XOp.at (op : XOp) (v : Val) : XRes :=
  match v with
  | .nan => .exact .nan
  | .fin n q => op.atFin n q
  | .inf n =>
    match op with
    | .exp _ => .exact (if n then Val.ofRat 0 else .inf false)
    | .log _ => .exact (if n then .nan else .inf false)
    | .rsqrt => .exact (if n then .nan else Val.ofRat 0)
    | .geluTanh | .geluErf | .silu => .exact (if n then .fin true 0 else .inf false)
    | .sigmoid => .exact (if n then Val.ofRat 0 else Val.ofRat 1)
    | .tanh => .exact (Val.ofRat (if n then -1 else 1))
    | .softplus => .exact (if n then Val.ofRat 0 else .inf false)

/-- Refinement of an enclosure until both ends convert to one code, at each precision of the list in turn. -/
def XOp.refine (conv : Val → Nat) (openCode : Nat) (f : Nat → Iv) : List Nat → Nat
  | [] => openCode
  | n :: ns =>
    let a := f n
    let c := conv (Val.ofRat a.lo)
    if c = conv (Val.ofRat a.hi) then c else XOp.refine conv openCode f ns

/-- Working precisions in bits. -/
def XOp.precisions : List Nat := [64, 256, 1024, 4096, 16384]

/-- A number for each operation, by which the open value of R189 is named. -/
def XOp.index : XOp → Nat
  | .exp b => ofBool b
  | .log b => 2 + ofBool b
  | .rsqrt => 4 | .geluTanh => 5 | .geluErf => 6 | .silu => 7 | .sigmoid => 8 | .tanh => 9 | .softplus => 10

/-- The L8 code of a positive value whose 8 × log2 rounds to `k` (R150). -/
def l8OfLog (k : Int) : Nat := if k ≤ -64 then 64 else if 63 ≤ k then 63 else (k % 128).toNat

/-- Whether 8 × log2 of 2^x lies halfway between two integers: the one tie that R150 can meet, which it does not foresee (log entry 17). -/
def exp2TieL8 (x : Rat) : Bool := (16 * x).den == 1 && (16 * x).num % 2 == 1

/-- The code of a function result in a format (R189).  At a tie of 2^x in L8 either neighbour is nearest, and which one is open. -/
def XOp.code (op : XOp) (f : Fmt) (v : Val) : Nat :=
  let free := Config.xfnOpen (16 * op.index + f.code) v
  match op.at v with
  | .exact w => f.encode .nearest w
  | .encl g =>
    match op, f, v with
    | .exp true, .l8, .fin _ x =>
      if exp2TieL8 x then l8OfLog ((8 * x).floor + (free % 2 : Nat)) else XOp.refine (f.encode .nearest) free g XOp.precisions
    | _, _, _ => XOp.refine (f.encode .nearest) free g XOp.precisions

end Sys2Proof.Machine
end

