-- ==== Sys2Proof/Machine/Vec.lean ====
section
/-! DEFINITION. Bodies of the vector-engine instructions VOP, VRED and VCVT, of the function-engine instructions FEXP,
FLOG, FRSQ and FACT, and of the sampler's SAMPLE and SLOGP (R185 to R194). -/

namespace Sys2Proof.Machine

/-- A format from a legal code. -/
def fmtOf (code : Nat) : Fmt := (Fmt.ofCode code).getD .fp32

/-- The number of elements of width `wd` that `u` rows hold (R185). -/
def rowElems (u wd : Nat) : Nat := u * 4096 / wd

/-- The larger of two values, NaN when either is (R186). -/
def Val.max (a b : Val) : Val := if a.isNan || b.isNan then .nan else if a.lt b then b else a

/-- The smaller of two values, NaN when either is (R186). -/
def Val.min (a b : Val) : Val := if a.isNan || b.isNan then .nan else if b.lt a then b else a

/-- Whether a value counts as true for SELECT (R186): non-zero or NaN. -/
def Val.truthy : Val → Bool
  | .fin _ q => decide (q ≠ 0)
  | _ => true

/-- One element of VOP (R186): codes in SFMT to a code in DFMT. -/
def vopElem (func : Nat) (sf df : Fmt) (a b c : Nat) : Nat :=
  let x := sf.decode a
  let y := sf.decode b
  let z := sf.decode c
  let out (v : Val) : Nat := df.encode .nearest v
  let w := sf.width
  match func with
  | 0x00 => out (x.add y)
  | 0x01 => out (x.add y.neg)
  | 0x02 => out (x.mul y)
  | 0x03 => out ((x.mul y).add z)
  | 0x04 => out (x.max y)
  | 0x05 => out (x.min y)
  | 0x06 => out x.abs
  | 0x07 => out x.neg
  | 0x08 => a &&& b
  | 0x09 => a ||| b
  | 0x0A => a ^^^ b
  | 0x0B => (a <<< (b % w)) % 2 ^ w
  | 0x0C => a >>> (b % w)
  | 0x0D => out (if z.truthy then x else y)
  | 0x0E => out x
  | _ => out (Val.ofRat (if x.gtNum y then 1 else 0))

/-- The body of VOP (R185, R186). -/
def bodyVop : Eng Unit := do
  let c ← get
  let w := c.word
  let sf := fmtOf w.sfmt
  let df := fmtOf w.dfmt
  let f := w.imm8
  let d ← Eng.slot 2
  let n := rowElems d.period df.width
  let useB := f != 6 && f != 7 && f != 0x0E
  let useC := f == 3 || f == 0x0D
  let a ← Eng.readElems 0 512 sf.width n
  let b ← if useB && !w.bscal then Eng.readElems 1 512 sf.width n
    else pure (List.replicate n (w.scalar % 2 ^ sf.width))
  let cc ← if useC then Eng.readElems 3 512 sf.width n else pure []
  Eng.checkReads
  Eng.writeElems 2 512 df.width ((List.range n).map (fun i => vopElem f sf df (a.getD i 0) (b.getD i 0) (cc.getD i 0)))
  Eng.writeSeals (fun _ => (w.dfmt, 0))
  Eng.busy R.CMP_BUSY_VXU

/-- The groups of `len` consecutive elements; a shorter rest is left out (R185). -/
def groupsOf (len : Nat) (l : List Nat) : List (List Nat) :=
  (List.range (l.length / len)).map (fun i => (l.drop (i * len)).take len)

/-- Index of the first value identical to the extreme, or of the first NaN (R187). -/
def argExtreme (isMax : Bool) (vs : List Val) : Nat :=
  match vs.findIdx? Val.isNan with
  | some i => i
  | none =>
    let best := vs.foldl (fun b v => if isMax then b.max v else b.min v) (vs.getD 0 .nan)
    (vs.findIdx? (fun v => !v.lt best && !best.lt v)).getD 0

/-- One result of VRED (R187). -/
def vredElem (func : Nat) (sf df : Fmt) (g : List Nat) : Nat :=
  let vs := g.map sf.decode
  let fold (op : Val → Val → Val) (l : List Val) : Val :=
    match l with
    | [] => Val.ofRat 0
    | v :: vs => vs.foldl op v
  match func with
  | 0 => df.encode .nearest (fold Val.add vs)
  | 1 => df.encode .nearest (fold Val.max vs)
  | 2 => df.encode .nearest (fold Val.min vs)
  | 3 => df.encode .nearest (Val.ofRat (argExtreme true vs))
  | 4 => df.encode .nearest (Val.ofRat (argExtreme false vs))
  | _ => df.encode .nearest (fold Val.add (vs.map (fun v => v.mul v)))

/-- The body of VRED (R185, R187). -/
def bodyVred : Eng Unit := do
  let c ← get
  let w := c.word
  let sf := fmtOf w.sfmt
  let df := fmtOf w.dfmt
  let a ← Eng.slot 0
  let src ← Eng.readElems 0 512 sf.width (rowElems a.period sf.width)
  Eng.checkReads
  Eng.writeElems 2 512 df.width ((groupsOf w.len src).map (vredElem w.imm8 sf df))
  Eng.writeSeals (fun _ => (w.dfmt, 0))
  Eng.busy R.CMP_BUSY_VXU

/-- Elements that one scale of a VCVT side covers (R188): 32, or the elements of one 512-byte row. -/
def vcvtGroup (scale wd : Nat) : Nat := if scale = 1 then 32 else 4096 / wd

/-- The body of VCVT (R188). -/
def bodyVcvt : Eng Unit := do
  let c ← get
  let w := c.word
  let sf := fmtOf w.sfmt
  let df := fmtOf w.dfmt
  let d ← Eng.slot 2
  let n := rowElems d.period df.width
  let sides := vcvtSides w.sfmt w.dfmt
  let sIn := w.scale != 0 && sides.1
  let sOut := w.scale != 0 && sides.2
  let swd := if w.scale = 1 then 8 else 32
  let src ← Eng.readElems 0 512 sf.width n
  let gIn := vcvtGroup w.scale sf.width
  let gOut := vcvtGroup w.scale df.width
  let sc ← if sIn then Eng.readElems 1 512 swd ((n + gIn - 1) / gIn) else pure []
  Eng.checkReads
  let vals := (List.range n).map (fun i =>
    let v := sf.decode (src.getD i 0)
    if sIn then v.mul (scaleVal' w.scale (sc.getD (i / gIn) 0)) else v)
  if sOut then
    let parts := (List.range ((n + gOut - 1) / gOut)).map (fun g =>
      let vs := (vals.drop (g * gOut)).take gOut
      if w.scale = 1 then scaleE8m0 df w.vrmode vs else scaleFp32 df w.vrmode vs)
    Eng.writeElems 2 512 df.width (parts.flatMap (·.2))
    Eng.writeElems 3 512 swd (parts.map (·.1))
  else
    Eng.writeElems 2 512 df.width (vals.map (df.encode w.vrmode))
  Eng.writeSeals (fun pos => if pos = 2 then (w.dfmt, if sOut then w.scale else 0) else (0, 0))
  Eng.busy R.CMP_BUSY_VXU
where
  scaleVal' (mode code : Nat) : Val := if mode = 1 then e8m0 code else Fmt.decode .fp32 code

/-- The body that the four function-engine instructions share (R185, R189). -/
def bodyXfn (op : XOp) : Eng Unit := do
  let c ← get
  let w := c.word
  let sf := fmtOf w.sfmt
  let df := fmtOf w.dfmt
  let d ← Eng.slot 2
  let src ← Eng.readElems 0 512 sf.width (rowElems d.period df.width)
  Eng.checkReads
  Eng.writeElems 2 512 df.width (src.map (fun x => op.code df (sf.decode x)))
  Eng.writeSeals (fun _ => (w.dfmt, 0))
  Eng.busy R.CMP_BUSY_XFN

/-- The function of a FACT table code (R100). -/
def factOp (table : Nat) : XOp :=
  match table with
  | 0 => .geluTanh | 1 => .geluErf | 2 => .silu | 3 => .sigmoid | 4 => .tanh | _ => .softplus

/-- The body of FEXP (R189). -/
def bodyFexp : Eng Unit := do
  let c ← get
  bodyXfn (.exp c.word.base2)

/-- The body of FLOG (R189). -/
def bodyFlog : Eng Unit := do
  let c ← get
  bodyXfn (.log c.word.base2)

/-- The body of FRSQ (R189). -/
def bodyFrsq : Eng Unit := bodyXfn .rsqrt

/-- The body of FACT (R189). -/
def bodyFact : Eng Unit := do
  let c ← get
  bodyXfn (factOp c.word.imm8)

/-! ## The sampler (R190 to R194) -/

/-- A request parameter record (R190). -/
structure SampleRec where
  seed : Nat
  step : Nat
  pos  : Nat
  temp : Val
  topk : Nat
  topp : Val
  deriving DecidableEq, Repr

/-- The record held in a 64-byte line (R190). -/
def SampleRec.ofLine (bs : List Byte) : SampleRec :=
  let f (o n : Nat) : Nat := leNat ((bs.drop o).take n)
  ⟨f 0 8, f 8 4, f 12 4, Fmt.decode .fp32 (f 16 4), f 20 4, Fmt.decode .fp32 (f 24 4)⟩

/-- The random value of a row (R192). -/
def sampleU (r : SampleRec) : Rat :=
  let x := leNat (shake128 8 (ascii "JLN-SMP1" ++ leBytes 8 r.seed ++ leBytes 4 r.step ++ leBytes 4 r.pos))
  ((x / 2 ^ 11 : Nat) : Rat) * pow2 (-53)

/-- An index put into a list in descending order of logit, then ascending order of index (R193). -/
def insertDesc (z : Nat → Val) (i : Nat) : List Nat → List Nat
  | [] => [i]
  | j :: js => if (z j).gtNum (z i) || (!(z i).gtNum (z j) && decide (j < i)) then j :: insertDesc z i js else i :: j :: js

/-- Indices sorted as R193 states. -/
def sortDesc (z : Nat → Val) (l : List Nat) : List Nat := l.foldr (insertDesc z) []

/-- Rounding to FP32 as a value (R193). -/
def roundFp32 (v : Val) : Val := Fmt.decode .fp32 (Fmt.encode .fp32 .nearest v)

/-- The correctly rounded FP32 exponential (R193). -/
def expRn (v : Val) : Val := Fmt.decode .fp32 (XOp.code (.exp false) .fp32 v)

/-- Quotient of a finite value by a positive value (R193). -/
def divPos (q : Rat) (t : Val) : Rat :=
  match t with
  | .fin _ d => q / d
  | _ => 0

/-- The weights of R193 for indices in order. -/
def sampleWeights (z : Nat → Val) (r : SampleRec) (order : List Nat) : List (Nat × Rat) :=
  let m := z (order.getD 0 0)
  order.map (fun i => (i,
    match m with
    | .inf _ => if z i = .inf false then 1 else 0
    | _ => (expRn (roundFp32 (Val.ofRat (divPos ((z i).rat - m.rat) r.temp)))).rat))

/-- The shortest non-empty prefix whose weights reach `goal` (R193). -/
def prefixReach (goal : Rat) : Rat → List (Nat × Rat) → List (Nat × Rat)
  | _, [] => []
  | acc, x :: xs => if goal ≤ acc + x.2 then [x] else x :: prefixReach goal (acc + x.2) xs

/-- The first index whose running sum exceeds `t` (R193). -/
def firstAbove (t : Rat) : Rat → List (Nat × Rat) → Nat
  | _, [] => 0xFFFFFFFF
  | acc, x :: xs => if t < acc + x.2 then x.1 else firstAbove t (acc + x.2) xs

/-- Total weight. -/
def weightSum (l : List (Nat × Rat)) : Rat := l.foldl (fun a x => a + x.2) 0

/-- One token of SAMPLE (R193). -/
def sampleToken (zs : List Val) (r : SampleRec) : Nat :=
  let z (i : Nat) : Val := zs.getD i .nan
  let order := sortDesc z ((List.range zs.length).filter (fun i => !(z i).isNan && z i != .inf true))
  match order with
  | [] => 0xFFFFFFFF
  | top :: _ =>
    let order := if r.topk ≠ 0 ∧ r.topk < order.length then order.take r.topk else order
    if r.temp.isNan || !(r.temp.gtNum (Val.ofRat 0)) then top
    else
      let ws := sampleWeights z r order
      let kept := match r.topp with
        | .nan => ws
        | .inf n => if n then ws.take 1 else ws
        | .fin _ p => if p < 1 then prefixReach (p * weightSum ws) 0 ws else ws
      firstAbove (sampleU r * weightSum kept) 0 kept

/-- The body of SAMPLE (R191 to R193). -/
def bodySample : Eng Unit := do
  let c ← get
  let w := c.word
  let f := fmtOf w.sfmt
  let zs ← Eng.readElems 0 512 f.width (w.srows * w.vocab)
  let recs ← Eng.readUnits 1 64 w.srows
  Eng.checkReads
  let toks := (List.range w.srows).map (fun r =>
    sampleToken (((zs.drop (r * w.vocab)).take w.vocab).map f.decode) (SampleRec.ofLine ((recs.drop (64 * r)).take 64)))
  Eng.writeElems 2 64 32 toks
  Eng.writeSeals (fun _ => (0, 0))
  Eng.onState (fun s => s.bumpBy R.CMP_TOKENS w.srows c.p)
  Eng.busy R.CMP_BUSY_SMP

/-- One log-probability of SLOGP as an FP32 code (R194). -/
def slogp (zs : List Val) (t : Nat) : Nat :=
  if zs.length ≤ t ∨ zs.any Val.isNan then Fmt.nanCode .fp32
  else
    let m := zs.foldl Val.max (.inf true)
    match m with
    | .inf true => Fmt.nanCode .fp32
    | .inf false =>
      if zs.getD t .nan = .inf false then
        let n := (zs.filter (fun v => v == .inf false)).length
        let l := Fmt.decode .fp32 (XOp.code (.log false) .fp32 (Val.ofRat (n : Nat)))
        Fmt.encode .fp32 .nearest (if l.rat = 0 then Val.ofRat 0 else l.neg)
      else Fmt.encode .fp32 .nearest (.inf true)
    | .nan => Fmt.nanCode .fp32
    | .fin _ mq =>
      let d (v : Val) : Val := match v with
        | .fin _ q => roundFp32 (Val.ofRat (q - mq))
        | u => u
      let total := zs.foldl (fun a v => a + (expRn (d v)).rat) 0
      let ln := Fmt.decode .fp32 (XOp.code (.log false) .fp32 (Val.ofRat total))
      Fmt.encode .fp32 .nearest ((d (zs.getD t .nan)).add ln.neg)

/-- The body of SLOGP (R191, R194). -/
def bodySlogp : Eng Unit := do
  let c ← get
  let w := c.word
  let f := fmtOf w.sfmt
  let zs ← Eng.readElems 0 512 f.width (w.srows * w.vocab)
  let ids ← Eng.readElems 1 64 32 w.srows
  Eng.checkReads
  let ps := (List.range w.srows).map (fun r =>
    slogp (((zs.drop (r * w.vocab)).take w.vocab).map f.decode) (ids.getD r 0))
  Eng.writeElems 2 64 32 ps
  Eng.writeSeals (fun _ => (w.dfmt, 0))
  Eng.busy R.CMP_BUSY_SMP

end Sys2Proof.Machine
end

