-- ==== Sys2Proof/Machine/Seq.lean ====
section
/-! DEFINITION. The sequencer and the issue queues: slots handled (R73, R74, R106), waits and signals (R53, R54, R81, R82),
issue, start and completion of engine instructions (R75 to R78), faults of a core (R69 steps 1 and 2), and the instruction
store (R101 to R103). -/

namespace Sys2Proof.Machine

/-! ## Waits and signals -/

/-- Whether a core's wait word holds (R53, R81). -/
def Core.waitHolds (c : Core) (w : Slot) : Bool :=
  match w.wkind with
  | 1 => decide ((c.flag w.wflag + 65536 - w.wval) % 65536 < 32768)
  | 2 => c.flag w.wflag == w.wval
  | _ => true

/-- The signal word applied on the package: to a flag of this core or of another core (R54, R82).  STGT 0b11 travels in a
flit. -/
def State.applySignal (s : State) (p : Nat) (w : Slot) : State :=
  match w.stgt with
  | 1 => s.onCore p (fun c => c.signal w.sflag w.sinc)
  | 2 =>
    match s.partOf w.starget with
    | some q => s.onCore q (fun c => c.signal w.sflag w.sinc)
    | none => s
  | _ => s

/-! ## Faults of a core (R69 steps 1 and 2) -/

/-- SEQ_FAULT_INFO as one number: FLAG_VALUE, FLAG and AT_TRICK (R108). -/
def faultInfo (value flag : Nat) (atTrick : Bool) : Nat := value % 65536 + 2 ^ 16 * flag + 2 ^ 25 * ofBool atTrick

/-- Tiles that the started instructions of a core have written (R69 step 2). -/
def Core.startedTiles (c : Core) : List TileAt :=
  (List.range 9).flatMap (fun e => (c.engine e).exec.flatMap (·.wrote))

/-- A hand fault of a core: its first fault since the deal is recorded in SEQ_FAULT (R108); issue stops, the issue queues
are discarded, the tiles of started instructions are poisoned, and the dealer's report is left (R69 steps 1, 2). -/
def State.coreFault (s : State) (p code engine pc info : Nat) (more : List TileAt) : State :=
  let c := s.core p
  let s1 := if s.rd R.SEQ_FAULT_CODE p ≠ 0 then s else
    ((((((s.wr R.SEQ_FAULT_CODE code p).wr R.SEQ_FAULT_ENGINE engine p).wr R.SEQ_FAULT_PC pc p).wr
      R.SEQ_FAULT_INFO_FLAG_VALUE (info % 65536) p).wr R.SEQ_FAULT_INFO_FLAG (info / 65536 % 512) p).wr
      R.SEQ_FAULT_INFO_AT_TRICK (info / 2 ^ 25) p)
  let s2 := s1.poisonTiles p (c.startedTiles ++ more)
  s2.onCore p (fun k => { k with st := .faulted, eng := [],
                                 report := if k.report.isSome then k.report else some ⟨code, engine, pc, info⟩ })

/-! ## Slots -/

/-- The frame that holds byte offset `pc` of the stream (R101). -/
def Core.frameAt (c : Core) (pc : Nat) : Option Frame := c.frames.find? (fun f => f.page == pc / 16384)

/-- The slot at byte offset `pc`; none when its page is not resident. -/
def Core.slotAt (c : Core) (pc : Nat) : Option Slot := (c.frameAt pc).bind (fun f => f.slots[pc % 16384 / 32]?)

/-- What the decode check needs of the hand and the core (R106). -/
def State.legalEnv (s : State) (p : Nat) : LegalEnv :=
  let c := s.core p
  ⟨s.hdrOf c, ⟨c.bounds, c.queues⟩⟩

/-- Whether the sequencer of a core handles slots (R74). -/
def State.issues (s : State) (p : Nat) : Bool :=
  let c := s.core p
  s.up && c.st == .running && !c.halted && c.trick == .none

/-- The sequencer moves on to byte offset `pc`; the next slot's wait begins now (R53). -/
def Core.goTo (c : Core) (pc tick : Nat) : Core := { c with pc := pc, stallAt := tick, handled := c.handled + 1 }

/-- A stream page that failed its seal check (R103, R216): recorded in the core's SEA page, and a hand fault. -/
def State.pageFault (s : State) (p pc : Nat) (b : PageFault) : State :=
  let poison := b.code == 0x0105
  (s.sealFault p (if poison then 4 else 0) b.code (if poison then 4 else 0) 0 0 ⟨.hbm, b.addr⟩ b.sl false 0 pc).coreFault p
    b.code 0 pc 0 []

/-- A slot handled by the row of instruction `o` (none: a word of no instruction): page seal (R103), decode check (R106);
then `run` with the slot. -/
def State.handle (s : State) (p : Nat) (o : Option Op) (run : Slot → State) : State :=
  let c := s.core p
  if !s.issues p then s
  else
    match c.frameAt c.pc, c.slotAt c.pc with
    | some f, some w =>
      if w.op ≠ o then s
      else if f.bad.isSome then s.pageFault p c.pc (f.bad.getD ⟨0, 0, blankSeal⟩)
      else if bitOf s.fuses.engines w.engine then s.coreFault p 0x0501 w.engine c.pc 0 []
      else if o = some .adg ∧ c.pc % 16384 = 16352 then s.coreFault p 0x0502 w.engine c.pc 0 []
      else if (illegal w ((c.slotAt (c.pc + 32)).getD (Slot.ofNat 0)) (s.legalEnv p)).isSome then
        s.coreFault p 0x0502 w.engine c.pc 0 []
      else run w
    | _, _ => s

/-- A sequencer instruction: its wait, its effect `act` on the core (which sets the next offset), its signal (R87). -/
def State.seqOp (s : State) (p : Nat) (o : Op) (act : Slot → State → State) : State :=
  s.handle p (some o) (fun w =>
    if (s.core p).waitHolds w then (act w s).applySignal p w else s)

/-- The core's next slot. -/
def State.advance (s : State) (p : Nat) : State := s.onCore p (fun c => c.goTo (c.pc + 32) s.tick)

/-! ## Starting an engine instruction (R76) -/

/-- The body of an engine instruction. -/
def bodyOf (w : Slot) : Eng Unit :=
  match w.op with
  | some .mload => bodyMload
  | some .mmul => bodyMmul
  | some .mdrain => bodyMdrain
  | some .mburn => bodyMburn
  | some .vop => bodyVop
  | some .vred => bodyVred
  | some .vcvt => bodyVcvt
  | some .fexp => bodyFexp
  | some .flog => bodyFlog
  | some .frsq => bodyFrsq
  | some .fact => bodyFact
  | some .dcopy => bodyDcopy
  | some .dfill => bodyDfill
  | some .dgather => bodyDgather
  | some .lput => bodyLput
  | some .lfetch => bodyLfetch
  | some .lsig => bodyLsig
  | some .radd => bodyRadd
  | some .ranchor => bodyRanchor
  | some .rcvt => bodyRcvt
  | some .spmm => bodySpmm
  | some .sample => bodySample
  | some .slogp => bodySlogp
  | _ => pure ()

/-- Whether the engines of a core may start instructions: the package runs, and no fault or abort has stopped the core. -/
def State.starts (s : State) (p : Nat) : Bool :=
  let c := s.core p
  s.up && (c.st == .running || c.st == .atTrick) && c.trick != .aborting && c.trick != .abortDone

/-- Whether the head of a queue may start besides its wait: at most eight LFETCHes of a core are in flight (R288). -/
def Core.roomFor (c : Core) (w : Slot) : Bool :=
  w.op != some .lfetch || decide (c.fetchTags.length < 8)

/-- The sum of the digest terms of the seals an instruction wrote (R348). -/
def digestSum (s : State) (p logical : Nat) (ts : List TileAt) : Nat :=
  (ts.foldl (fun a t => a + digestTerm logical t.space.code t.addr (s.sealOf p t)) 0) % 2 ^ 64

/-- Tiles that an LFETCH brings (R288). -/
def fetchTilesOf (slots : List AdgSlot) : Nat := max 1 ((slots.getD 1 AdgSlot.zero).period)

/-- The record of a started instruction whose body ended well; `c0` is the core before it started. -/
def startedEntry (q : QEntry) (e : ECtx) (c0 : Core) (stamp : Nat) : ExecEntry :=
  let k := max 1 ((q.slots.getD 0 AdgSlot.zero).period)
  { word := q.word, pc := q.pc, wrote := e.tiles, reqs := e.reqs, seals := e.seals, uses := e.uses,
    remote := (match q.word.op with
      | some .lput => 16 * k
      | some .lsig => 1
      | some .lfetch => c0.freeTag
      | _ => 0),
    signaled := q.word.op == some .lput && (q.word.stgt == 1 || q.word.stgt == 2),
    slots := q.slots, landed := 0, marked := false,
    qbase := ((c0.queues[(q.slots.getD 1 AdgSlot.zero).qnum]?).map (·.tail)).getD 0,
    stamp := stamp, index := q.index,
    term := if e.s.partner.search then
        (digestSum e.s e.p (((e.s.core e.p).member.map (·.logical)).getD 0) (e.tiles.filter (fun t => t.space != .host)) + e.term) % 2 ^ 64
      else 0,
    begun := [] }

/-- The pushes of an LFETCH into a queue take their places in issue order (R51, R98); they are owed until their tiles have landed. -/
def Core.reserve (c : Core) (w : Slot) (slots : List AdgSlot) : Core :=
  let a := slots.getD 1 AdgSlot.zero
  match w.op, a.queue, c.queues[a.qnum]? with
  | some .lfetch, true, some x =>
    let n := fetchTilesOf slots
    { c with queues := c.queues.set a.qnum { x with tail := x.tail + n, owed := x.owed ++ (List.range n).map (fun j => x.tail + j) } }
  | _, _, _ => c

/-- The scratchpad tiles that an operand addresses from now on: for a queue, those of the counts from `n0` on. -/
def Core.operandTiles (c : Core) (a : AdgSlot) (n n0 : Nat) : List Nat :=
  (List.range n).map (fun j =>
    if a.queue then ((c.queues[a.qnum]?).map (fun x => x.base + (n0 + j) % max 1 x.depth)).getD 0 else a.addr 4096 j / 4096)

/-- Whether the link-send engine may start an instruction besides its wait (R77, R288): at most eight LFETCHes of a core are in flight,
and none in flight has yet to write a tile that the instruction reads or writes. -/
def Core.lseFree (c : Core) (q : QEntry) : Bool :=
  let busy := (((c.engine 5).exec.filter (fun x => x.word.op == some .lfetch && x.landed != 16 * fetchTilesOf x.slots))).flatMap
    (fun x => c.operandTiles (x.slots.getD 1 AdgSlot.zero) (fetchTilesOf x.slots) x.qbase)
  let at' (pos : Nat) : AdgSlot := q.slots.getD pos AdgSlot.zero
  let queueOf (a : AdgSlot) (f : HwQueue → Nat) : Nat := ((c.queues[a.qnum]?).map f).getD 0
  let mine := match q.word.op with
    | some .lput => c.operandTiles (at' 0) (max 1 (at' 0).period) (queueOf (at' 0) (·.head))
    | some .lfetch => c.operandTiles (at' 1) (fetchTilesOf q.slots) (queueOf (at' 1) (·.tail))
    | _ => []
  c.roomFor q.word && mine.all (fun t => !busy.contains t)

/-- The instruction that has reached the head of a queue: an MMUL whose buffer or blocks do not suit it faults there (R173, R199,
R200). -/
def State.headCheck (s : State) (p e : Nat) : State :=
  let c := s.core p
  match (c.engine e).queue with
  | q :: _ =>
    if q.word.op == some .mmul && s.starts p && !c.mmulReady q.word q.loop0 then (s.mxuState p).coreFault p 0x0502 e q.pc 0 [] else s
  | [] => s

/-- Cycles that requests of an instruction waited at the bank ports: information only (R64, R134), a free number. -/
def State.countWaits (s : State) (p : Nat) (reqs : List MemReq) : State :=
  if reqs.any (fun r => r.space == .spm) then
    let (n, t) := s.freshNat
    t.bumpPair R.SPM_WAIT_LO R.SPM_WAIT_HI n p
  else s

/-- A started instruction enters the engine's list; the next one has reached the head (R76). -/
def State.started (s : State) (p e : Nat) (q : QEntry) (r : ECtx) (c0 : Core) : State :=
  let x := startedEntry q r c0 s.stamp
  let s1 := { (r.s.countWaits p r.reqs) with stamp := s.stamp + 1 }
  let s2 := s1.onCore p (fun k =>
    let en' := k.engine e
    (k.reserve q.word q.slots).setEngine e { en' with exec := en'.exec ++ [x] })
  let s3 := if x.signaled then s2.applySignal p q.word else s2
  s3.headCheck p e

/-- An engine starts the head of its queue when its wait holds (R76): the instruction leaves the queue and does its work; a fault stops
the core, that of a failed host read once the instruction has made its writes (R247). -/
def State.startHead (s : State) (p e : Nat) : State :=
  let c := s.core p
  let en := c.engine e
  match en.queue with
  | [] => s
  | q :: rest =>
    if !s.starts p || !c.waitHolds q.word || !c.lseFree q then s
    else
      let s1 := s.onCore p (fun k => k.setEngine e { en with queue := rest, headSince := s.tick })
      match bodyOf q.word (ECtx.start s1 p q) with
      | .ok _ r => if r.hostBad then r.s.coreFault p 0x0105 q.word.engine q.pc 0 r.tiles else s.started p e q r c
      | .error f r => r.s.coreFault p f.code f.engine f.pc f.info r.tiles

/-- An engine instruction handled by the sequencer (R73, R75, R76): it takes copies of its slots into the engine's queue,
and starts at once when it is the head and its wait holds. -/
def State.issueOp (s : State) (p : Nat) (o : Op) : State :=
  s.handle p (some o) (fun w =>
    let c := s.core p
    let en := c.engine w.engine
    if 16 ≤ en.queue.length then s
    else
      let used := w.usedSlots o
      let q : QEntry :=
        { word := w, pc := c.pc,
          slots := (List.range 4).map (fun k => if used.contains k then c.slot (w.a k) else AdgSlot.zero),
          loop0 := (c.loops.head?).map (·.idx), index := c.handled }
      let s1 := (s.advance p).onCore p (fun k => k.setEngine w.engine
        { en with queue := en.queue ++ [q], headSince := if en.queue = [] then s.tick else en.headSince })
      if en.queue = [] then
        let s2 := s1.headCheck p w.engine
        if (s2.core p).st = .faulted then s2 else s2.startHead p w.engine
      else s1)

/-! ## Sequencer instructions (R87 to R94) -/

/-- NOP does nothing beyond its wait and signal; the same row handles a word of no instruction, which traps (R87, R106). -/
def execNop (p : Fin 176) (s : State) : Host.Outcome State Fault Refusal :=
  let c := s.core p
  match c.slotAt c.pc with
  | some w =>
    if w.op = none then .next (s.handle p none (fun _ => s))
    else .next (s.seqOp p .nop (fun _ t => t.advance p))
  | none => .next s

/-- WAIT (R87). -/
def execWait (p : Fin 176) (s : State) : Host.Outcome State Fault Refusal :=
  .next (s.seqOp p .wait (fun _ t => t.advance p))

/-- SIGNAL (R87). -/
def execSignal (p : Fin 176) (s : State) : Host.Outcome State Fault Refusal :=
  .next (s.seqOp p .signal (fun _ t => t.advance p))

/-- The effect of LOOP (R89): COUNT 0 continues after the matching ENDL. -/
def Core.openLoop (c : Core) (w : Slot) (tick : Nat) : Core :=
  if w.count = 0 then c.goTo (c.pc + 32 * w.body + 32) tick
  else { c.goTo (c.pc + 32) tick with loops := ⟨c.pc + 32, c.pc + 32 * w.body, w.count, 0⟩ :: c.loops }

/-- LOOP (R89). -/
def execLoop (p : Fin 176) (s : State) : Host.Outcome State Fault Refusal :=
  .next (s.seqOp p .loop (fun w t => t.onCore p (fun c => c.openLoop w s.tick)))

/-- The effect of ENDL (R89). -/
def Core.endLoop (c : Core) (tick : Nat) : Core :=
  match c.loops with
  | [] => c.goTo (c.pc + 32) tick
  | l :: ls =>
    if l.idx + 1 < l.count then { c.goTo l.body tick with loops := { l with idx := l.idx + 1 } :: ls }
    else { c.goTo (c.pc + 32) tick with loops := ls }

/-- ENDL (R89). -/
def execEndl (p : Fin 176) (s : State) : Host.Outcome State Fault Refusal :=
  .next (s.seqOp p .endl (fun _ t => t.onCore p (fun c => c.endLoop s.tick)))

/-- A comparison of SETP (R90). -/
def setpCmp (code a b : Nat) : Bool :=
  match code with
  | 0 => a == b
  | 1 => a != b
  | 2 => decide (a < b)
  | _ => decide (b ≤ a)

/-- Predicate `i` of a core. -/
def Core.pred (c : Core) (i : Nat) : Bool := bitOf c.preds i

/-- Predicate `i` written. -/
def Core.setPred (c : Core) (i : Nat) (b : Bool) : Core :=
  { c with preds := c.preds - 2 ^ i * ofBool (bitOf c.preds i) + 2 ^ i * ofBool b }

/-- A predicate of SETP's logic source (R90). -/
def setpLogic (code : Nat) (a b : Bool) : Bool :=
  match code with
  | 0 => a && b
  | 1 => a || b
  | 2 => a != b
  | _ => a && !b

/-- SETP (R90).  The scratchpad word is read as a sequencer access under R57; a loop level that is not open is illegal.
The word's array errors and a started write of its row are met as by any read (R121, R127). -/
def State.setp (w : Slot) (p : Nat) (s : State) : State :=
  let c := s.core p
  let put (b : Bool) (t : State) : State := (t.onCore p (fun k => k.setPred w.destPred b)).advance p
  let cmp := w.sel / 4 % 4
  match w.src with
  | 0 => put (w.value % 2 == 1) s
  | 1 => match c.loops[w.sel % 4]? with
    | some l => put (setpCmp cmp l.idx w.value) s
    | none => s.coreFault p 0x0502 0 c.pc 0 []
  | 2 => put (setpCmp cmp (((c.member).map (·.number)).getD 0 % 65536) w.value) s
  | 3 =>
    if accessOk s c .spm false w.setpAddr 4 then
      let ((bs, _, met, es), s1) := s.portRead p 0 c.pc w.setpAddr 4
      match met, s1.spmErrors p w.setpAddr 4 es with
      | some (e, pc), (t, _) => t.coreFault p 0x0601 e pc 0 []
      | none, (t, []) => put (setpCmp cmp (leNat bs) w.value) t
      | none, (t, _) =>
        let a := w.setpAddr / 4096 * 4096
        (t.sealFault p 4 0x0105 4 0 0 ⟨.spm, a⟩ ((t.core p).sealAt a) true 0 c.pc).coreFault p 0x0105 0 c.pc 0 []
    else ((s.bump R.SPM_CNT_BOUNDS p).raiseEvt .spm p 1 0x0401).coreFault p 0x0401 0 c.pc 0 []
  | _ => put (setpLogic (w.sel / 64 % 4) (c.pred (w.sel % 8)) (c.pred (w.sel / 8 % 8))) s

/-- SETP (R90). -/
def execSetp (p : Fin 176) (s : State) : Host.Outcome State Fault Refusal :=
  .next (s.handle p (some .setp) (fun w =>
    if (s.core p).waitHolds w then
      let t := s.setp w p
      if (t.core p).st = .faulted then t else t.applySignal p w
    else s))

/-- BRP: the next slot when the predicate, inverted by NEG, is 1 (R91). -/
def Core.branch (c : Core) (w : Slot) (tick : Nat) : Core :=
  if c.pred w.destPred != w.brNeg then c.goTo ((c.pc : Int) + 32 * w.brOffset).toNat tick else c.goTo (c.pc + 32) tick

/-- BRP (R91). -/
def execBrp (p : Fin 176) (s : State) : Host.Outcome State Fault Refusal :=
  .next (s.seqOp p .brp (fun w t => t.onCore p (fun c => c.branch w s.tick)))

/-- ADG: the slot loaded, or DELTA added to its BASE modulo 2^64 (R96). -/
def Core.adg' (c : Core) (w w2 : Slot) : Core :=
  let a := if w.adgOp = 0 then adgLoaded w w2 else { c.slot w.adgSlot with base := ((c.slot w.adgSlot).base + w.adgBase) % 2 ^ 64 }
  { c with adg := SMap.set AdgSlot.zero c.adg w.adgSlot a }

/-- ADG takes two slots and is handled once (R73, R95, R348). -/
def execAdg (p : Fin 176) (s : State) : Host.Outcome State Fault Refusal :=
  .next (s.seqOp p .adg (fun w t => t.onCore p (fun c =>
    (c.adg' w ((c.slotAt (c.pc + 32)).getD (Slot.ofNat 0))).goTo (c.pc + 64) s.tick)))

/-- A window opened (R93, R279); a window already open is closed first. -/
def Core.wopen (c : Core) (w : Slot) : Core :=
  c.setWindow w.win ⟨true, w.winWrite, w.winFetch, w.winBase, w.winTiles, true⟩

/-- WOPEN (R93).  The core's windows are the one copy that every port's mirror shows (R275, R279). -/
def execWopen (p : Fin 176) (s : State) : Host.Outcome State Fault Refusal :=
  .next (s.seqOp p .wopen (fun w t => (t.onCore p (fun c => c.wopen w)).advance p))

/-- A window closed; one that is closed stays as it is (R93). -/
def Core.wclose (c : Core) (i : Nat) : Core :=
  let x := c.window i
  if x.isOpen then c.setWindow i { x with isOpen := false } else c

/-- Every window closed (R49, R92, R93). -/
def Core.closeAll (c : Core) : Core := (List.range 64).foldl Core.wclose c

/-- WCLOSE (R93). -/
def execWclose (p : Fin 176) (s : State) : Host.Outcome State Fault Refusal :=
  .next (s.seqOp p .wclose (fun w t => (t.onCore p (fun c => if w.winAll then c.closeAll else c.wclose w.win)).advance p))

/-- MARK records when MARK_EN is 1 (R94). -/
def State.mark (w : Slot) (p : Nat) (s : State) : State :=
  if s.on R.SEQ_CTRL_MARK_EN p then
    ((s.wr R.SEQ_MARK_VALUE w.markValue p).wr R.SEQ_MARK_PC (s.core p).pc p).wrPair R.SEQ_MARK_TIME_LO R.SEQ_MARK_TIME_HI
      (s.dieTime (p / 11)) p
  else s

/-- MARK (R94). -/
def execMark (p : Fin 176) (s : State) : Host.Outcome State Fault Refusal :=
  .next (s.seqOp p .mark (fun w t => (t.mark w p).advance p))

/-- HALT stops issue (R94). -/
def execHalt (p : Fin 176) (s : State) : Host.Outcome State Fault Refusal :=
  .next (s.seqOp p .halt (fun _ t => (t.advance p).onCore p (fun c => { c with halted := true })))

/-- Whether a member is mismatched at its TRICK of index `i` (R40). -/
def trickMismatch (i count : Nat) (lastSlot : Bool) : Bool :=
  (i + 1 == count && !lastSlot) || (lastSlot && decide (i + 1 < count))

/-- TRICK: the member stops at its trick; its signal waits for the release (R40, R92). -/
def State.atTrick (w : Slot) (p : Nat) (s : State) : State :=
  let c := s.core p
  let len := ((s.streamOf c).map (·.length)).getD 0
  let count := (s.hdrOf c).trickCount
  let mis := trickMismatch c.tricks count (c.pc + 32 == len)
  s.onCore p (fun k => { k.goTo (k.pc + 32) s.tick with
    st := .atTrick, trick := if mis then .mismatched else .draining, tricks := c.tricks + 1,
    resumeAt := none, signalDue := some w })

/-- TRICK (R40, R92). -/
def execTrick (p : Fin 176) (s : State) : Host.Outcome State Fault Refusal :=
  .next (s.handle p (some .trick) (fun w => if (s.core p).waitHolds w then s.atTrick w p else s))

/-! ## Engine instructions, as the sequencer handles them -/

/-- MLOAD (R171). -/
def execMload (p : Fin 176) (s : State) : Host.Outcome State Fault Refusal := .next (s.issueOp p .mload)
/-- MMUL (R172). -/
def execMmul (p : Fin 176) (s : State) : Host.Outcome State Fault Refusal := .next (s.issueOp p .mmul)
/-- MDRAIN (R176). -/
def execMdrain (p : Fin 176) (s : State) : Host.Outcome State Fault Refusal := .next (s.issueOp p .mdrain)
/-- MBURN (R183). -/
def execMburn (p : Fin 176) (s : State) : Host.Outcome State Fault Refusal := .next (s.issueOp p .mburn)
/-- VOP (R185). -/
def execVop (p : Fin 176) (s : State) : Host.Outcome State Fault Refusal := .next (s.issueOp p .vop)
/-- VRED (R187). -/
def execVred (p : Fin 176) (s : State) : Host.Outcome State Fault Refusal := .next (s.issueOp p .vred)
/-- VCVT (R188). -/
def execVcvt (p : Fin 176) (s : State) : Host.Outcome State Fault Refusal := .next (s.issueOp p .vcvt)
/-- FEXP (R189). -/
def execFexp (p : Fin 176) (s : State) : Host.Outcome State Fault Refusal := .next (s.issueOp p .fexp)
/-- FLOG (R189). -/
def execFlog (p : Fin 176) (s : State) : Host.Outcome State Fault Refusal := .next (s.issueOp p .flog)
/-- FRSQ (R189). -/
def execFrsq (p : Fin 176) (s : State) : Host.Outcome State Fault Refusal := .next (s.issueOp p .frsq)
/-- FACT (R189). -/
def execFact (p : Fin 176) (s : State) : Host.Outcome State Fault Refusal := .next (s.issueOp p .fact)
/-- DCOPY (R243). -/
def execDcopy (p : Fin 176) (s : State) : Host.Outcome State Fault Refusal := .next (s.issueOp p .dcopy)
/-- DFILL (R244). -/
def execDfill (p : Fin 176) (s : State) : Host.Outcome State Fault Refusal := .next (s.issueOp p .dfill)
/-- DGATHER (R245). -/
def execDgather (p : Fin 176) (s : State) : Host.Outcome State Fault Refusal := .next (s.issueOp p .dgather)
/-- LPUT (R258, R285). -/
def execLput (p : Fin 176) (s : State) : Host.Outcome State Fault Refusal := .next (s.issueOp p .lput)
/-- LFETCH (R288). -/
def execLfetch (p : Fin 176) (s : State) : Host.Outcome State Fault Refusal := .next (s.issueOp p .lfetch)
/-- LSIG (R82). -/
def execLsig (p : Fin 176) (s : State) : Host.Outcome State Fault Refusal := .next (s.issueOp p .lsig)
/-- RADD (R195). -/
def execRadd (p : Fin 176) (s : State) : Host.Outcome State Fault Refusal := .next (s.issueOp p .radd)
/-- RANCHOR (R196). -/
def execRanchor (p : Fin 176) (s : State) : Host.Outcome State Fault Refusal := .next (s.issueOp p .ranchor)
/-- RCVT (R197). -/
def execRcvt (p : Fin 176) (s : State) : Host.Outcome State Fault Refusal := .next (s.issueOp p .rcvt)
/-- SPMM (R184). -/
def execSpmm (p : Fin 176) (s : State) : Host.Outcome State Fault Refusal := .next (s.issueOp p .spmm)
/-- SAMPLE (R190). -/
def execSample (p : Fin 176) (s : State) : Host.Outcome State Fault Refusal := .next (s.issueOp p .sample)
/-- SLOGP (R194). -/
def execSlogp (p : Fin 176) (s : State) : Host.Outcome State Fault Refusal := .next (s.issueOp p .slogp)

/-! ## Events of the issue queues and of the instruction store -/

/-- An engine starts its head instruction once its wait holds (R76). -/
def execEngineStart (p : Fin 176) (e : Fin 9) (s : State) : Host.Outcome State Fault Refusal := .next (s.startHead p e)

/-- Whether a started instruction can complete (R78, R285, R290): an LPUT or LSIG when every flit is reported as applied, an
LFETCH when every tile has landed. -/
def ExecEntry.finished (x : ExecEntry) : Bool :=
  match x.word.op with
  | some .lput | some .lsig => x.remote == 0
  | some .lfetch => x.landed == 16 * fetchTilesOf x.slots
  | _ => true

/-- The RECORD of a completed instruction that wrote a seal, at the far end for an LPUT (R208, R220), in search mode (R348): kept for the
comparison and sent to the partner. -/
def State.record (s : State) (p e : Nat) (x : ExecEntry) : State :=
  match (s.core p).member with
  | some m =>
    if s.partner.search && s.partner.bad == some m.group && (x.wrote.any (fun t => t.space != .host) || x.word.op == some .lput) then
      let f : PartnerFlit := ⟨2, m.group, (s.hdrOf (s.core p)).handId, m.number, x.term, m.logical, e, x.index, x.pc⟩
      let s1 := { s with partner := { s.partner with mine := s.partner.mine ++ [f] } }
      s1.sendTrick (s.rd R.XPK_PCFG_PORT) f.flit
    else s
  | none => s

/-- The oldest started instruction of an engine completes and applies its signal once (R76, R78). -/
def State.complete (s : State) (p e : Nat) : State :=
  let c := s.core p
  let en := c.engine e
  match en.exec with
  | [] => s
  | x :: xs =>
    if (s.pkg != .running && s.pkg != .down) || c.st == .faulted || !x.finished then s
    else
      let s1 := (s.onCore p (fun k => k.setEngine e { en with exec := xs })).record p e x
      if x.signaled then s1 else s1.applySignal p x.word

/-- An issued instruction completes (R78).  In a dealer-down started instructions still complete (R467). -/
def execInstructionComplete (p : Fin 176) (e : Fin 9) (s : State) : Host.Outcome State Fault Refusal := .next (s.complete p e)

/-- The wait limit of a hand in ticks (R34, R304). -/
def HandHdr.limit (h : HandHdr) : Nat := 1000 * (if h.waitLimit = 0 then 100000 else h.waitLimit)

/-- A wait at the sequencer, at a trick or at the head of an issue queue has stayed unsatisfied for WAIT_LIMIT (R40, R53,
R108): the clock runs to the limit. -/
def State.flagTimeout (s : State) (p e : Nat) : State :=
  let c := s.core p
  let lim := (s.hdrOf c).limit
  if !s.up || c.member.isNone || c.st == .faulted || c.trick == .aborting || c.trick == .abortDone then s
  else if e = 0 then
    if c.st = .atTrick then
      if c.resumeAt.isNone then
        (s.waitUntil (c.stallAt + lim)).coreFault p 0x0301 0 (c.pc - 32) (faultInfo (c.tricks - 1) 0 true) []
      else s
    else
      match c.slotAt c.pc with
      | some w =>
        if c.st == .running && !c.halted && w.engine == 0 && !c.waitHolds w then
          (s.waitUntil (c.stallAt + lim)).coreFault p 0x0301 0 c.pc (faultInfo (c.flag w.wflag) w.wflag false) []
        else s
      | none => s
  else
    match (c.engine e).queue with
    | q :: _ =>
      if !c.waitHolds q.word then
        (s.waitUntil ((c.engine e).headSince + lim)).coreFault p 0x0301 e q.pc (faultInfo (c.flag q.word.wflag) q.word.wflag false) []
      else s
    | [] => s

/-- A wait limit expires (R53). -/
def execFlagTimeout (p : Fin 176) (e : Fin 9) (s : State) : Host.Outcome State Fault Refusal := .next (s.flagTimeout p e)

/-- The fault code that the seal check of one tile of a stream page finds, 0 when it passes (R103). -/
def pageSealCheck (x : Seal) (content : List Byte) : Nat :=
  if sealPoison x then 0x0105 else if !sealValid x then 0x0101 else if sealCrc x ≠ crc32c content then 0x0101 else 0

/-- One tile of a stream page read and checked (R103, R232). -/
def State.pageTile (s : State) (a : Nat) : State × Option PageFault :=
  let t := (s.tierErrors .hbm a 4096).1
  let code := pageSealCheck (t.hbm.sealAt a) (t.hbm.delivered a 4096)
  (t, if code = 0 then none else some ⟨code, a, t.hbm.sealAt a⟩)

/-- A stream page read from device memory into a frame, its tiles checked (R101, R103, R232). -/
def State.readPage (s : State) (im : Image) (st : StreamEnt) (page : Nat) : State × Frame :=
  let base := im.addr + st.stream + 16384 * page
  let bytes := min 16384 (st.length - 16384 * page)
  let tiles := (List.range ((bytes + 4095) / 4096)).map (fun i => base + 4096 * i)
  let (s1, bad) := tiles.foldl (fun (acc : State × Option PageFault) a =>
      let r := acc.1.pageTile a
      (r.1, acc.2 <|> r.2)) (s, none)
  (s1, ⟨page, (List.range (bytes / 32)).map (fun i => Slot.ofNat (leNat (s1.hbm.delivered (base + 32 * i) 32))), bad⟩)

/-- The frames with one page added; of 16 frames one is replaced as R102 says: never the current page's; the one furthest
behind it, else the one furthest ahead. -/
def putFrame (fs : List Frame) (cur : Nat) (f : Frame) : List Frame :=
  if fs.length < 16 then fs ++ [f]
  else
    let behind := (fs.filter (fun x => decide (x.page < cur))).map (·.page)
    let ahead := (fs.filter (fun x => decide (cur < x.page))).map (·.page)
    let victim := if behind ≠ [] then behind.foldl min cur else ahead.foldl max cur
    fs.filter (fun x => x.page != victim) ++ [f]

/-- A later stream page arrives (R102, R103). -/
def State.fetchPage (s : State) (p page : Nat) : State :=
  let c := s.core p
  match s.image, s.streamOf c with
  | some im, some st =>
    if !s.up || c.st == .faulted || c.frames.any (fun f => f.page == page) || decide (st.length ≤ 16384 * page) then s
    else
      let (s1, f) := s.readPage im st page
      (s1.tallyAccess p .hbm (im.addr + st.stream + 16384 * page) (32 * f.slots.length)).onCore p (fun k => { k with frames := putFrame k.frames (k.pc / 16384) f })
  | _, _ => s

/-- A stream page arrives (R101 to R103). -/
def execStreamPageFetch (p : Fin 176) (page : Nat) (s : State) : Host.Outcome State Fault Refusal := .next (s.fetchPage p page)

/-- AGE_LIMIT in cycles; 0 to 7 act as 32 (R132). -/
def State.ageLimit (s : State) (p : Nat) : Nat :=
  if s.rd R.SPM_CTRL_AGE_LIMIT p < 8 then 32 else s.rd R.SPM_CTRL_AGE_LIMIT p

/-- A bank-port request that has waited AGE_LIMIT cycles is promoted and counted; link receive never waits (R117, R118). -/
def execRequestPromote (p : Fin 176) (receive : Bool) (waited : Nat) (s : State) : Host.Outcome State Fault Refusal :=
  .next (if !s.up || receive || decide (waited < s.ageLimit p) then s else s.bump R.SPM_PROMOTED p)

end Sys2Proof.Machine
end

