-- ==== Sys2Proof/Machine/Serving.lean ====
section
/-! DEFINITION. Serving (R381 to R410): request entries, sweeps, refusal and admission, stakes, batches, results, completions,
cancels, and disabling a function. -/

namespace Sys2Proof.Machine

/-! ## Functions and their logs (R381 to R385) -/

/-- A function record. -/
def State.func (s : State) (f : Nat) : Func := SMap.get Func.reset s.funcs f

/-- A change of a function record. -/
def State.onFunc (s : State) (f : Nat) (g : Func → Func) : State := { s with funcs := SMap.set Func.reset s.funcs f (g (s.func f)) }

/-- `n` bytes of a request log, little-endian. -/
def Func.logAt (x : Func) (off n : Nat) : Nat := leNat (SMap.getRun 0#8 x.log off n)

/-- The entry of a slot (R382). -/
def Func.entry (x : Func) (slot : Nat) : Entry :=
  let a (o n : Nat) : Nat := x.logAt (128 * slot + o) n
  ⟨a 0 8, a 8 8, a 16 8, a 24 8, a 32 8, a 40 8, a 48 4, a 52 4, a 56 4, a 60 4, a 64 4, a 68 4, a 72 4, a 76 4, a 80 4⟩

/-- The valid word of a slot (R383). -/
def Func.valid (x : Func) (slot : Nat) : Nat := x.logAt (128 * slot + 0x7C) 4

/-- CPL_HEAD (R381, R401). -/
def Func.cplHead (x : Func) : Nat := x.logAt 0x10000 4

/-- KIND is SCORE. -/
def Entry.isScore (e : Entry) : Bool := bitsOf e.flags 0 2 == 1
/-- DELTA. -/
def Entry.delta (e : Entry) : Bool := bitOf e.flags 3
/-- STREAM. -/
def Entry.stream (e : Entry) : Bool := bitOf e.flags 4
/-- PROMPT_SPACE, OUT_SPACE and ELIST_SPACE. -/
def Entry.promptSpace (e : Entry) : Nat := bitsOf e.flags 8 2
def Entry.outSpace (e : Entry) : Nat := bitsOf e.flags 10 2
def Entry.elistSpace (e : Entry) : Nat := bitsOf e.flags 12 2

/-- The function of a request. -/
def Req.fn (r : Req) : Nat := r.key / 512

/-- Whether a range of device memory lies in the data range of one stack (R227). -/
def inOneStack (a n : Nat) : Bool := decide (a + n ≤ 2 ^ 40) && decide (a % 2 ^ 36 + n ≤ stackEnd)

/-- The ranges an entry names: space, address, bytes, alignment (R382). -/
def Entry.ranges (e : Entry) : List (Nat × Nat × Nat × Nat) :=
  [(e.promptSpace, e.promptAddr, 4 * e.promptLen, 4)] ++
  (if e.outAddr = 0 then [] else [(e.outSpace, e.outAddr, (if e.isScore then 4 else 4 * e.maxNew), 4)]) ++
  (if e.logpAddr = 0 then [] else [(e.outSpace, e.logpAddr, 4 * e.maxNew, 4)]) ++ [(e.elistSpace, e.elistAddr, 256, 64)]

/-- BAD_ENTRY (R386; a space code names its memory, log entry 87): `resv` are the reserved bytes 0x54 to 0x7B and the reserved bits of the valid word. -/
def badEntry (e : Entry) (resv : Nat) (device : Bool) : Bool :=
  resv != 0 || bitsOf e.flags 5 3 != 0 || bitsOf e.flags 14 2 != 0 || bitsOf e.flags 21 11 != 0 ||
  decide (2 ≤ bitsOf e.flags 0 2) || decide (e.promptLen < 1) || decide (16777216 < e.promptLen) ||
  (if e.isScore then e.maxNew != 0 || e.logpAddr != 0 else decide (e.maxNew < 1) || decide (16777216 < e.maxNew)) ||
  (!e.delta && e.deltaId != 0) ||
  [e.promptSpace, e.outSpace, e.elistSpace].any (fun c => c != 1 && c != 3 || c == 1 && !device) ||
  e.ranges.any (fun r => r.2.1 % r.2.2.2 != 0 || (r.1 == 1 && !inOneStack r.2.1 r.2.2.1))

/-! ## Hands that serve a pair (R389, R390) -/

/-- ROWS of a trick group; 0: not a serving group. -/
def State.rows (s : State) (g : Nat) : Nat := s.rd R.SRV_GROUP_ROWS 0 g

/-- The effective chunk of a serving group (R390). -/
def State.effChunk (s : State) (g : Nat) : Nat :=
  let c := s.rd R.SRV_GROUP_CHUNK 0 g
  min (16 * (if c = 0 then 16 else c)) (s.rows g)

/-- Whether a hand serves pair `m` through slot `i` (R389) for requests taken here: only the root of a group takes them for its hands
(R397). -/
def State.serves (s : State) (h : HandHdr) (m i : Nat) : Bool :=
  decide (h.cls ≤ 1) && s.rows h.group != 0 && !s.on R.TRK_TREE_PARENT_VALID 0 h.group && bitsOf h.wslots (2 * m) 2 == 2 ^ (i - 2 * m)

/-- Whether a hand is of the class and variant of one stage of a request: a prompt chunk, a decode row, a score chunk; and has
the delta-merge engine for a request that needs it (R389). -/
def stageHand (e : Entry) (decode : Bool) (h : HandHdr) : Bool :=
  (if e.isScore then h.cls == 1 else h.cls == 0 && h.variant == ofBool decode) && (!e.delta || bitOf h.engines 7)

/-- The loaded image's hands. -/
def State.hands (s : State) : List Hand := ((s.image).map (·.hands)).getD []

/-- The chunk size K of a request (R392): the smallest effective chunk among the serving groups with a hand able to deal its
prompt through slot `i`. -/
def State.chunkSize (s : State) (e : Entry) (i : Nat) : Nat :=
  let ks := (s.hands.filter (fun h => s.serves h.hdr e.pair i && stageHand e false h.hdr)).map (fun h => s.effChunk h.hdr.group)
  match ks with
  | [] => 0
  | k :: ks => ks.foldl min k

/-- KV pages a request needs (R388); open while PAGE_TOKENS is 0, which R414 leaves out of its range (log entry 88). -/
def State.kvNeed (s : State) (e : Entry) : Nat :=
  let t := s.rd R.SRV_KV_CFG_PAGE_TOKENS
  if t = 0 then Config.kvPages (e.promptLen + e.maxNew) else (e.promptLen + e.maxNew + t - 1) / t

/-- The cost of a request's first dealing (R399). -/
def firstCost (e : Entry) (k : Nat) : Nat :=
  min k e.promptLen + (if !e.isScore && decide (e.promptLen ≤ k) then 8 else 0)

/-! ## Stakes (R398) -/

/-- Whether a function's stake is unlimited. -/
def State.unlimited (s : State) (f : Nat) : Bool := s.rd R.SRV_STAKE_RATE 0 f == 0xFFFFFFFF

/-- The stake level of a function in 10^-9 units (R398), accrued over TABLE_TIME (a step of it counts as time passed, one back as none;
DEDUCED, log entry 109; `State.settleStakes`); it keeps its value while the function is disabled (R408 step 3). -/
def State.stake (s : State) (f : Nat) : Nat :=
  let top := s.rd R.SRV_STAKE_BURST 0 f * 1000000000
  if s.unlimited f then top
  else if !s.on R.SRV_FUNC_EN 0 f then min top (s.func f).stake
  else min top ((s.func f).stake + s.rd R.SRV_STAKE_RATE 0 f * (s.time - (s.func f).stakeAt))

/-- The stake level set, in 10^-9 units. -/
def State.setStake (s : State) (f v : Nat) : State := s.onFunc f (fun x => { x with stake := v, stakeAt := s.time })

/-- Whether a function can pay a cost in units. -/
def State.canPay (s : State) (f cost : Nat) : Bool := decide (cost * 1000000000 ≤ s.stake f)

/-- A cost debited, or credited back; nothing for an unlimited stake (R398, R400). -/
def State.debit (s : State) (f cost : Nat) : State :=
  if s.unlimited f then s else s.setStake f (s.stake f - cost * 1000000000)

/-- A debit credited back, up to BURST (R400). -/
def State.credit (s : State) (f cost : Nat) : State :=
  if s.unlimited f then s
  else s.setStake f (min (s.rd R.SRV_STAKE_BURST 0 f * 1000000000) (s.stake f + cost * 1000000000))

/-! ## Writes for a request (R396, R408 step 4) -/

/-- Device memory written as a BAR2 write does: VALID 0 in the seals touched, POISON kept (R210, R396). -/
def State.deviceWrite (s : State) (a : Nat) (bs : List Byte) : State :=
  let tiles := (List.range ((a + bs.length - 1) / 4096 + 1 - a / 4096)).map (fun i => (a / 4096 + i) * 4096)
  { s.tallyHub a bs.length with hbm := tiles.foldl (fun h t => h.setSeal t (unsealed (sealPoison (h.sealAt t)))) (s.hbm.write a bs) }

/-- A write that the dealer makes for a request. -/
def State.reqWrite (s : State) (f space a : Nat) (bs : List Byte) : State :=
  if space = 1 then s.deviceWrite a bs
  else if s.on R.HIF_FUNC_BME 0 f then s.emit (.hostWrite f a bs)
  else s.bump R.SRV_CNT_CPL_DROP

/-! ## Completions (R395, R401 to R406) -/

/-- The completion entry of a request (R402). -/
def Req.cpl (r : Req) (final : Bool) (status cancel : Nat) : Cpl :=
  ⟨r.key, final, r.tag, r.entry.user, status, cancel, r.tokens, r.prompt, r.debit, r.elist.length, r.version, r.entry.elistAddr,
   r.score⟩

/-- A completion entry that waits to be written. -/
def State.pushCpl (s : State) (f : Nat) (c : Cpl) : State := s.onFunc f (fun x => { x with cpls := x.cpls ++ [c] })

/-- A request that leaves: its pages, its pin and its delta reference are released (R388, R408 step 5). -/
def State.dropReq (s : State) (r : Req) : State :=
  ({ s with reqs := s.reqs.filter (fun x => x.order != r.order),
            kvUsed := s.kvUsed.filter (fun k => !r.pages.contains k) }).autos.settleSeats

/-- The epoch-range list as bytes (R370). -/
def elistBytes (l : List (Nat × Nat)) : List Byte := l.flatMap (fun e => leBytes 4 e.1 ++ leBytes 4 e.2)

/-- A request ends: its epoch-range list is written, then its FINAL completion waits for the ring, and it holds nothing more
(R395, R404, R406). -/
def State.finish (s : State) (r : Req) (status cancel : Nat) : State :=
  let s1 := if r.elist = [] then s else s.reqWrite r.fn r.entry.elistSpace r.entry.elistAddr (elistBytes r.elist)
  let s2 := (s1.pushCpl r.fn (r.cpl true status cancel)).dropReq r
  match cancel with
  | 1 => s2.bump R.SRV_CNT_CANCEL
  | 2 => s2.bump R.SRV_CNT_LATE_CANCEL
  | _ => s2

/-- A request changed. -/
def State.onReq (s : State) (order : Nat) (f : Req → Req) : State :=
  { s with reqs := s.reqs.map (fun (r : Req) => if r.order = order then f r else r) }

/-- A request by its order. -/
def State.req (s : State) (order : Nat) : Option Req := s.reqs.find? (fun r => r.order == order)

/-- Whether a dealing in progress holds a request (R407). -/
def State.held (s : State) (r : Req) : Bool := s.dealings.any (fun d => d.2.reqs.any (fun b => b.req == r.order))

/-- Entries of a function's ring (R401). -/
def State.ringSize (s : State) (f : Nat) : Nat := 2 ^ (min (s.rd R.SRV_CPL_CFG_SIZE 0 f) 10 + 6)

/-- Bytes 0 to 59 of a completion entry (R402). -/
def Cpl.bytes (c : Cpl) (time : Nat) : List Byte :=
  leBytes 8 c.user ++ leBytes 4 (c.key % 512 + 2 ^ 9 * ofBool (!c.final) + 2 ^ 16 * c.tag) ++
  leBytes 4 (c.status % 2 ^ 16 + 2 ^ 16 * c.cancel) ++ leBytes 4 c.tokens ++ leBytes 4 c.prompt ++ leBytes 4 c.stake ++
  leBytes 2 c.elistN ++ leBytes 2 c.version ++ leBytes 8 c.elistA ++ leBytes 4 c.score ++ leBytes 4 0 ++ leBytes 8 time ++
  leBytes 4 0

/-- The function's message when COUNT entries are due, or with every entry when TIMER is 0 (R405). -/
def State.cplMessage (s : State) (f : Nat) : State :=
  let x := s.func f
  let cnt := max 1 (s.rd R.SRV_CPL_CFG_COUNT 0 f)
  if x.since ≠ 0 ∧ (cnt ≤ x.since ∨ s.rd R.SRV_CPL_CFG_TIMER 0 f = 0) then
    (s.onFunc f (fun x => { x with since := 0, firstAt := none })).msix f (s.rd R.SRV_CPL_CFG_VECTOR 0 f)
  else s

/-- The slot that a FINAL completion frees (R384, R385). -/
def State.freeSlot (s : State) (f : Nat) (c : Cpl) : State :=
  if c.final then
    s.onFunc f (fun x => { x with busy := x.busy.filter (fun k => k != c.key % 512),
                                  lastTag := SMap.set 0 x.lastTag (c.key % 512) (c.tag + 1) })
  else s

/-- The oldest waiting completion entry written when the ring has room: bytes 0 to 59, then PHASE; dropped and counted
without bus mastering (R401, R402, R405, R408 step 4). -/
def State.writeCpl (s : State) (f : Nat) : State :=
  let x := s.func f
  match x.cpls with
  | [] => s
  | c :: cs =>
    let w := s.rd R.SRV_CPL_WRITTEN 0 f
    let n := s.ringSize f
    let s1 := s.onFunc f (fun x => { x with cpls := cs })
    if !s.on R.HIF_FUNC_BME 0 f then (s1.bump R.SRV_CNT_CPL_DROP).freeSlot f c
    else if n ≤ (w + 2 ^ 32 - x.cplHead) % 2 ^ 32 then s
    else
      let a := s.rdPair R.SRV_CPL_BASE_LO R.SRV_CPL_BASE_HI 0 f + 64 * (w % n)
      let s2 := (s1.emit (.hostWrite f a (c.bytes s.time))).emit
        (.hostWrite f (a + 60) (leBytes 4 (if w / n % 2 = 0 then 1 else 0)))
      let s3 := (s2.wr R.SRV_CPL_WRITTEN ((w + 1) % 2 ^ 32) 0 f).freeSlot f c
      (s3.onFunc f (fun x => { x with since := x.since + 1, firstAt := some (x.firstAt.getD s.tick) })).cplMessage f

/-- A completion entry is written (R401, R402). -/
def execCompletionWrite (f : Fin 16) (s : State) : Host.Outcome State Fault Refusal :=
  .next (if s.dealerUp then s.writeCpl f else s)

/-- The moderation TIMER elapses after the first entry since the last message (R405). -/
def execCompletionMsgTimer (f : Fin 16) (s : State) : Host.Outcome State Fault Refusal :=
  .next (match (s.func f).firstAt with
    | some t =>
      if s.dealerUp && (s.func f).since != 0 then
        ((s.waitUntil (t + 1000 * s.rd R.SRV_CPL_CFG_TIMER 0 f)).onFunc f (fun x => { x with since := 0, firstAt := none })).msix f (s.rd R.SRV_CPL_CFG_VECTOR 0 f)
      else s
    | none => s)

/-! ## Sweeps (R385, R386, R407) -/

/-- Why a submission is refused at once (R386). -/
def State.refusal (s : State) (f : Nat) (e : Entry) (resv : Nat) : Option Nat :=
  let m := e.pair
  let able (decode : Bool) : Bool := s.hands.any (fun h => s.serves h.hdr m (2 * m) && stageHand e decode h.hdr)
  let np := s.kvNeed e
  if badEntry e resv (s.on R.SRV_FUNC_DEVICE 0 f) then some 0x20
  else if !s.loaded || !able false || (!e.isScore && decide (2 ≤ e.maxNew) && !able true) then some 0x21
  else if e.delta && ((s.liveSeat e.deltaId).isNone || s.rd R.DPL_CFG_PAIR != m) then some 0x22
  else if s.rd R.SRV_KV_PAGES < np ∨ 16 * s.rd R.SRV_KV_CFG_LIST_LINES < np * s.rd R.SRV_KV_CFG_PAGE_TILES + 1 then some 0x23
  else if s.rd R.SRV_STAKE_BURST 0 f < firstCost e (s.chunkSize e (2 * m)) then some 0x24
  else none

/-- A request as taken from its slot. -/
def Req.taken (key tag order : Nat) (e : Entry) : Req :=
  { key := key, tag := tag, entry := e, admitted := false, order := order, epoch := 0, pages := [], seat := none, version := 0,
    chunk := 0, prompt := 0, tokens := 0, last := 0, score := 0, debit := 0, elist := [], paused := false,
    pinned := bitOf e.flags 2, cancel := false, ending := none, disabled := false,
    detached := false }

/-- A cancel of a live request (R407): at once when no dealing holds it, else when its dealing ends or returns. -/
def State.cancelReq (s : State) (r : Req) : State :=
  if s.held r then s.onReq r.order (fun r => { r with cancel := true }) else s.finish r 0x10 1

/-- One slot as a sweep treats it (R385). -/
def State.sweepSlot (s : State) (f slot : Nat) : State :=
  let x := s.func f
  let v := x.valid slot
  let op := v % 4
  let tag := v / 2 ^ 16
  let busy := x.busy.contains slot
  let fresh := SMap.get 0 x.lastTag slot ≠ tag + 1 ∧ !x.stale.contains slot
  if !busy && (op == 1 || op == 2) && decide fresh then
    let e := x.entry slot
    let r := Req.taken (512 * f + slot) tag s.stamp e
    let s1 := { s.onFunc f (fun x => { x with busy := slot :: x.busy }) with stamp := s.stamp + 1 }
    if op = 2 then s1.finish r 0x10 1
    else
      match s.refusal f e (x.logAt (128 * slot + 0x54) 40 + bitsOf v 2 14) with
      | some st => (s1.bump R.SRV_CNT_REFUSED).finish r st 0
      | none => { s1 with reqs := s1.reqs ++ [r] }
  else if busy && op == 2 then
    match s.reqs.find? (fun r => r.key == 512 * f + slot && r.tag == tag && !r.detached) with
    | some r => s.cancelReq r
    | none => s
  else s

/-- A sweep of every enabled function's log, slots in order (R385). -/
def State.sweep (s : State) : State :=
  (List.range 16).foldl (fun s f =>
    if s.on R.SRV_FUNC_EN 0 f then (List.range 512).foldl (fun s slot => s.sweepSlot f slot) s else s) s

/-- SWEEP (R385). -/
def execSweep (s : State) : Host.Outcome State Fault Refusal := .next (if s.dealerUp then s.sweep else s)

/-! ## Admission (R387, R388) -/

/-- The lowest-numbered free KV pages, ascending (R388). -/
def State.freePages (s : State) (n : Nat) : List Nat :=
  ((List.range (s.rd R.SRV_KV_PAGES)).filter (fun k => !s.kvUsed.contains k)).take n

/-- The oldest waiting request of a function admitted, behind those admitted before it, when its stake, its pages and the front slot
allow (R387, R388); a
delta set withdrawn meanwhile refuses it (R374). -/
def State.admission (s : State) (f : Nat) : State :=
  match s.reqs.find? (fun r => r.fn == f && !r.admitted) with
  | none => s
  | some r =>
    let m := r.entry.pair
    let k := s.chunkSize r.entry (2 * m)
    let np := s.kvNeed r.entry
    let pages := s.freePages np
    if (s.wslot (2 * m)).st ≠ .ready ∨ pages.length < np ∨ ¬ s.canPay f (firstCost r.entry k) then s
    else
      let seat := if r.entry.delta then s.liveSeat r.entry.deltaId else none
      if r.entry.delta && seat.isNone then (s.bump R.SRV_CNT_REFUSED).finish r 0x22 0
      else
        { s with
          reqs := s.reqs.filter (fun x => x.order != r.order) ++ [{ r with
            admitted := true, epoch := (s.wslot (2 * m)).epoch, pages := pages, seat := seat,
            version := (seat.map (fun d => (s.seat d).version)).getD 0, chunk := k }],
          kvUsed := s.kvUsed ++ pages }

/-- REQUEST_ADMIT (R387, R388). -/
def execRequestAdmit (f : Fin 16) (s : State) : Host.Outcome State Fault Refusal :=
  .next (if s.dealerUp then s.admission f else s)

/-! ## Composition of a dealing (R391, R392, R400) -/

/-- The slot through which a request is dealt (R367, R389). -/
def State.slotOfReq (s : State) (r : Req) : Nat :=
  let m := r.entry.pair
  let b := s.wslot (2 * m + 1)
  if r.pinned ∧ b.st = .retiring ∧ b.epoch = r.epoch ∧ (s.wslot (2 * m)).epoch ≠ r.epoch then 2 * m + 1 else 2 * m

/-- Whether the next dealing of a request is a decode. -/
def Req.decoding (r : Req) : Bool := !r.entry.isScore && decide (r.entry.promptLen ≤ r.prompt)

/-- Rows of a request's next dealing (R392 rules 2 and 4). -/
def Req.rows (r : Req) : Nat := if r.decoding then 1 else min r.chunk (r.entry.promptLen - r.prompt)

/-- Whether its next dealing holds the last prompt chunk. -/
def Req.lastChunk (r : Req) : Bool := decide (r.entry.promptLen ≤ r.prompt + r.rows)

/-- The cost of a request's next dealing (R399). -/
def Req.cost (r : Req) : Nat :=
  if r.decoding then 8 else r.rows + (if !r.entry.isScore && r.lastChunk then 8 else 0)

/-- Whether a request may enter a dealing of a hand, its stake apart (R389, R392). -/
def State.eligible (s : State) (h : HandHdr) (r : Req) : Bool :=
  r.admitted && !r.detached && !r.cancel && r.ending.isNone && !s.held r &&
  s.serves h r.entry.pair (s.slotOfReq r) && stageHand r.entry r.decoding h

/-- Whether an epoch-range list must grow, and would need a 33rd entry (R370). -/
def Req.grows (r : Req) (epoch : Nat) : Bool :=
  match r.elist.getLast? with
  | none => true
  | some e => e.2 != epoch

/-- A request whose next dealing costs more than BURST, or needs a 33rd list entry, completes at its boundary (R370, R400). -/
def State.boundary (s : State) (r : Req) : Option Nat :=
  let ep := (s.wslot (s.slotOfReq r)).epoch
  if s.rd R.SRV_STAKE_BURST 0 r.fn < r.cost then some 0x24
  else if r.grows ep && decide (32 ≤ r.elist.length) then some 0x13
  else none

/-- The cost of a request's next dealing, that of a waiting one by its chunk size of now (R399). -/
def State.nextCost (s : State) (r : Req) : Nat := if r.admitted then r.cost else firstCost r.entry (s.chunkSize r.entry (2 * r.entry.pair))

/-- A request whose next dealing costs more than BURST completes at once with STAKE_LIMIT (R400). -/
def State.endCostly (s : State) (r : Req) : State :=
  if !r.detached && !s.held r && decide (s.rd R.SRV_STAKE_BURST 0 r.fn < s.nextCost r) then s.finish r 0x24 0 else s

/-- Requests that end at a boundary of a hand (R370, R400). -/
def State.endAtBoundary (s : State) (h : HandHdr) : State :=
  s.reqs.foldl (fun t r =>
    if t.eligible h r then
      match t.boundary r with
      | some st => t.finish r st 0
      | none => t
    else t) s

/-- A dealing as it is composed: the requests placed, and what each function has spent in it. -/
abbrev Composed := List Req × List (Nat × Nat)

/-- Whether a request can pay for its place behind those placed before it (R400). -/
def State.pays (s : State) (acc : Composed) (r : Req) : Bool :=
  s.unlimited r.fn || s.canPay r.fn (((acc.2.filter (fun x => x.1 == r.fn)).map (·.2)).sum + r.cost)

/-- The dealing composed up to the requests of a list (R392): those the dealer picks, in order of admission, that are eligible and can pay,
within ROWS and REQS. -/
def State.composed (s : State) (h : HandHdr) (pick : List Nat) (rs : List Req) : Composed :=
  let rows := s.rows h.group
  let reqs := if s.rd R.SRV_GROUP_REQS 0 h.group = 0 then 1024 else min 1024 (s.rd R.SRV_GROUP_REQS 0 h.group)
  rs.foldl (fun (acc : Composed) r =>
    if pick.contains r.key && s.eligible h r && (s.boundary r).isNone && s.pays acc r &&
        decide ((acc.1.map (·.rows)).sum + r.rows ≤ rows) && decide (acc.1.length < reqs) then
      (acc.1 ++ [r], (r.fn, r.cost) :: acc.2)
    else acc) ([], [])

/-- The requests placed in a dealing of hand `h` (R392). -/
def State.compose (s : State) (h : HandHdr) (pick : List Nat) : List Req := (s.composed h pick s.reqs).1

/-- A request that cannot be placed for lack of stake is paused, and counted once for each pause (R400). -/
def State.pause (s : State) (r : Req) : State :=
  if r.paused then s else (s.onReq r.order (fun r => { r with paused := true })).bump R.SRV_CNT_PAUSE

/-- Admitted requests that a hand could take and that lack stake are paused (R400). -/
def State.pauseUnpaid (s : State) (h : HandHdr) : State :=
  s.reqs.foldl (fun t r => if t.eligible h r && !t.unlimited r.fn && !t.canPay r.fn r.cost then t.pause r else t) s

/-- The requests that the dealer picked and left out because those placed before them use up the stake are paused (R400). -/
def State.pauseLeft (s : State) (h : HandHdr) (pick : List Nat) : State :=
  (s.reqs.zipIdx.filter (fun x => pick.contains x.1.key && s.eligible h x.1 && (s.boundary x.1).isNone &&
    !s.pays (s.composed h pick (s.reqs.take x.2)) x.1)).foldl (fun t x => t.pause x.1) s

/-- Whether the serving state gives a hand's dealing work (R390, R397): the batch area is configured and some admitted
request can be placed; on a package that is not the group's root, always. -/
def State.hasWork (s : State) (h : HandHdr) (pick : List Nat) : Bool :=
  s.rows h.group != 0 && s.on R.SRV_BATCH_BASE_LO_VALID && s.compose h pick != []

/-- The batch area of a group (R391). -/
def State.batchBase (s : State) (g : Nat) : Nat :=
  s.rdPair (R.SRV_BATCH_BASE_LO_ADDR) R.SRV_BATCH_BASE_HI + g * (0x26000 + 0x10000 * s.rd R.SRV_KV_CFG_LIST_LINES)

/-- Tokens of a prompt from index `i` on (R382): from device memory, or from host memory as free bytes; `none` when the read of
host memory fails. -/
def State.promptTokens (s : State) (r : Req) (i n : Nat) : Option (List Byte) × State :=
  let a := r.entry.promptAddr + 4 * i
  if r.entry.promptSpace = 1 then
    let x := s.dealerRead a (4 * n)
    (some x.1, x.2)
  else s.hostRead r.fn a (4 * n)

/-- The prompt tokens of the requests placed in a dealing (R391), none for a decode.  A request whose prompt read fails leaves the
dealing and ends with HOST_ERROR (R403, R498). -/
def State.readPrompts (s : State) : List Req → List (Req × List Byte) × State
  | [] => ([], s)
  | r :: rs =>
    if r.decoding then
      let x := s.readPrompts rs
      ((r, []) :: x.1, x.2)
    else
      match s.promptTokens r r.prompt r.rows with
      | (some bs, s1) =>
        let x := s1.readPrompts rs
        ((r, bs) :: x.1, x.2)
      | (none, s1) => (s1.finish r 0x15 0).readPrompts rs

/-- Row inputs of one request (R391): token and token index of each row. -/
def rowInputs (tokens : List Byte) (first n : Nat) : List Byte :=
  (List.range n).flatMap (fun k => (tokens.drop (4 * k)).take 4 ++ leBytes 4 (first + k))

/-- A part of the batch area filled up to its size with the 32-bit word given. -/
def fillPart (bs : List Byte) (size word : Nat) : List Byte :=
  bs ++ (List.range ((size - bs.length) / 4)).flatMap (fun _ => leBytes 4 word)

/-- Bytes written to device memory by the dealer, each tile sealed with a host seal (R210, R391). -/
def State.sealedWrite (s : State) (a : Nat) (bs : List Byte) : State :=
  let h := (List.range (bs.length / 4096)).foldl
    (fun h i => h.setSeal (a + 4096 * i) (hostSeal ((bs.drop (4096 * i)).take 4096))) (s.hbm.write a bs)
  { s.tallyHub a bs.length with hbm := h }

/-- The batch area of a dealing written (R391): its requests with the prompt tokens of each, and their shares. -/
def State.writeBatch (s : State) (g number handId : Nat) (rs : List (Req × List Byte)) (bs : List BatchReq) : State :=
  let base := s.batchBase g
  let ll := s.rd R.SRV_KV_CFG_LIST_LINES
  let tilesPer := s.rd R.SRV_KV_CFG_PAGE_TILES
  let seats := (rs.filterMap (·.1.seat)).eraseDups
  let pairs := (rs.map (·.1)).zip bs
  let kv (r : Req) : List Nat := r.pages.flatMap (fun p => (List.range tilesPer).map (fun q => p * tilesPer + q))
  let inputs := (rs.zip bs).flatMap (fun x =>
    if x.1.1.decoding then leBytes 4 x.1.1.last ++ leBytes 4 x.2.index else rowInputs x.1.2 x.2.index x.2.rows)
  let header := leBytes 4 ((bs.map (·.rows)).sum) ++ leBytes 4 bs.length ++ leBytes 4 number ++ leBytes 4 handId ++
    leBytes 4 seats.length
  let table := pairs.flatMap (fun x => leBytes 4 x.2.first ++ leBytes 4 x.2.rows ++
    leBytes 4 (ofBool x.2.sample + 2 * ofBool x.2.score) ++ leBytes 4 (kv x.1).length)
  let maps := pairs.flatMap (fun x => (List.range x.2.rows).flatMap (fun _ =>
    leBytes 4 (match x.1.seat with | some d => seats.idxOf d | none => 2 ^ 31)))
  let params := pairs.flatMap (fun x => leBytes 8 x.1.entry.seed ++ leBytes 4 x.1.tokens ++
    leBytes 4 (x.1.entry.promptLen + x.1.tokens) ++ leBytes 4 x.1.entry.temp ++ leBytes 4 x.1.entry.topk ++
    leBytes 4 x.1.entry.topp ++ List.replicate 36 0#8)
  let lists := pairs.flatMap (fun x => fillPart (((kv x.1) ++ [0xFFFFFFFF]).flatMap (leBytes 4)) (64 * ll) 0)
  let w (s : State) (off : Nat) (b : List Byte) (size word : Nat) : State := s.sealedWrite (base + off) (fillPart b size word)
  w (w (w (w (w (w (w s 0 header 4096 0) 0x1000 table 0x4000 0) 0x5000 (seats.flatMap (leBytes 4)) 0x1000 0xFFFFFFFF)
    0x6000 maps 0x4000 (2 ^ 31)) 0xA000 inputs 0x8000 0) 0x16000 params 0x10000 0) 0x26000 lists (0x10000 * ll) 0

/-- The shares of the requests placed, with their rows in order (R391, R392). -/
def shares (s : State) : Nat → List Req → List BatchReq
  | _, [] => []
  | row, r :: rs =>
    { req := r.order, first := row, rows := r.rows, index := if r.decoding then r.entry.promptLen + r.tokens - 1 else r.prompt,
      sample := !r.entry.isScore && r.lastChunk, score := r.entry.isScore && r.lastChunk, cost := if s.unlimited r.fn then 0 else r.cost,
      grew := r.grows (s.wslot (s.slotOfReq r)).epoch } :: shares s (row + r.rows) rs

/-- The requests of a dealing debited, their lists grown (R370, R400): FIRST is the first prompt token that the dealing processes, or the
index of the token that a decode produces, as the worked example of R370 has it. -/
def State.enter (s : State) (bs : List BatchReq) : State :=
  bs.foldl (fun s b =>
    match s.req b.req with
    | some r =>
      let ep := (s.wslot (s.slotOfReq r)).epoch
      (s.debit r.fn b.cost).onReq r.order (fun r => { r with
        paused := false, debit := r.debit + b.cost,
        elist := if b.grew then r.elist ++ [(if r.decoding then b.index + 1 else b.index, ep)] else r.elist })
    | none => s) s

/-! ## The end of a dealing (R395, R407) -/

/-- The result entry of request `r` of a dealing (R391). -/
def State.result (s : State) (g r off : Nat) : Nat := leNat (s.hbm.delivered (s.batchBase g + 0x12000 + 16 * r + off) 4)

/-- A request that stays after its dealing: a cancel or a disabling now ends it; otherwise a PROGRESS entry when it asked
for them and gained a token, and its end when its next dealing costs more than BURST, or a pause when its function cannot pay that now
(R400, R404, R407, R408). -/
def State.afterDealing (s : State) (r : Req) (gained : Bool) : State :=
  if r.cancel then s.finish r 0x10 1
  else
    match r.ending with
    | some st => s.finish r st 0
    | none =>
      let s1 := (if gained && r.entry.stream then s.pushCpl r.fn (r.cpl false 0xFF 0) else s).endCostly r
      if (s1.req r.order).isSome && !s1.unlimited r.fn && !s1.canPay r.fn r.cost then s1.pause r else s1

/-- What the end of a dealing gives one of its requests (R395). -/
def State.endReq (s : State) (g i : Nat) (b : BatchReq) : State :=
  match s.req b.req with
  | none => s
  | some r =>
    if r.detached then s.dropReq r
    else
      let cbits := if r.cancel then 2 else 0
      let r1 := if r.decoding then r else { r with prompt := r.prompt + b.rows }
      let s1 := s.onReq r.order (fun _ => r1)
      if b.sample then
        let tok := s.result g i 0
        if tok = 0xFFFFFFFF then s1.finish r1 0x14 cbits
        else
          let r2 := { r1 with tokens := r1.tokens + 1, last := tok }
          let s2 := s1.onReq r.order (fun _ => r2)
          let s3 := if r.entry.outAddr = 0 then s2 else
            s2.reqWrite r.fn r.entry.outSpace (r.entry.outAddr + 4 * r.tokens) (leBytes 4 tok)
          let s4 := if r.entry.logpAddr = 0 then s3 else
            s3.reqWrite r.fn r.entry.outSpace (r.entry.logpAddr + 4 * r.tokens) (leBytes 4 (s.result g i 4))
          if (tok = r.entry.stop0 ∧ r.entry.stop0 ≠ 0xFFFFFFFF) ∨ (tok = r.entry.stop1 ∧ r.entry.stop1 ≠ 0xFFFFFFFF) then
            s4.finish r2 1 cbits
          else if r.entry.maxNew ≤ r2.tokens then s4.finish r2 0 cbits
          else s4.afterDealing r2 true
      else if b.score then
        let v := s.result g i 8
        let r2 := { r1 with score := v }
        let s2 := s1.onReq r.order (fun _ => r2)
        let s3 := if r.entry.outAddr = 0 then s2 else s2.reqWrite r.fn r.entry.outSpace r.entry.outAddr (leBytes 4 v)
        s3.finish r2 2 cbits
      else s1.afterDealing r1 false

/-- The requests of an ended dealing, ascending (R395): their result entries are read from device memory. -/
def State.endReqs (s : State) (g : Nat) (bs : List BatchReq) : State :=
  if bs = [] then s
  else (bs.zipIdx).foldl (fun s x => s.endReq g x.2 x.1) (s.dealerRead (s.batchBase g + 0x12000) (16 * bs.length)).2

/-- The requests of a returned dealing go back to the state of its deal, their debits credited; then a cancel or a disabling
ends them (R397, R400, R407, R408). -/
def State.returnReqs (s : State) (bs : List BatchReq) : State :=
  bs.foldl (fun s b =>
    match s.req b.req with
    | none => s
    | some r =>
      if r.detached then s.dropReq r
      else
        let r1 := { r with debit := r.debit - b.cost,
                           elist := if b.grew then r.elist.dropLast else r.elist }
        ((s.credit r.fn b.cost).onReq r.order (fun _ => r1)).afterDealing r1 false) s

/-! ## Disabling a function (R408 to R410, R500, R501) -/

/-- The submissions of a log that no sweep has taken are dropped: no later sweep takes the valid words as they stand (R408 step 1; DEDUCED, log
entry 89). -/
def Func.dropped (x : Func) : Func :=
  { x with stale := (List.range 512).filter (fun slot => !x.busy.contains slot && (x.valid slot % 4 == 1 || x.valid slot % 4 == 2)) }

/-- A function disabled (R408): its stake keeps the value it has now. -/
def State.disable (s : State) (f : Nat) : State :=
  let s0 := if s.on R.SRV_FUNC_EN 0 f then (s.setStake f (s.stake f)).onFunc f Func.dropped else s
  let s1 := s0.wr R.SRV_FUNC_EN 0 0 f
  (s1.reqs.filter (fun r => r.fn == f)).foldl (fun s r =>
    if r.detached then s
    else if s.held r then s.onReq r.order (fun r => { r with ending := some (r.ending.getD 0x11), disabled := true })
    else s.finish r 0x11 0) s1

/-- Whether requests that a disabling is to end remain (R408, R416). -/
def State.disabling (s : State) (f : Nat) : Bool := s.reqs.any (fun r => r.fn == f && !r.detached && r.disabled)

/-- The configuration space and MSI-X table of a function reset (R501); of a virtual function that VF Enable or NumVFs has taken away too,
as the SR-IOV standard has it (PRESUMED, log entry 41). -/
def State.clearConfig (s : State) (f : Nat) : State :=
  let s1 := (((s.wr R.HIF_FUNC_BME 0 0 f).wr R.HIF_FUNC_MSE 0 0 f).wr R.HIF_FUNC_D3HOT 0 0 f).wr R.HIF_FUNC_MSIX_EN 0 0 f
  ({ s1 with msixMask := SMap.clear s1.msixMask (2048 * f) (2048 * f + 2048),
             msixFnMask := SMap.clear s1.msixFnMask f (f + 1),
             msixPend := SMap.clear s1.msixPend (2048 * f) (2048 * f + 2048),
             msixEntry := SMap.clear s1.msixEntry (4 * (2048 * f)) (4 * (2048 * f + 2048)) }).onFn f
    (fun x => { PcieFn.reset with aer := x.aer, flrEnd := x.flrEnd })

/-- A function-level reset of one function (R409, R501): configuration space cleared, so that what its requests would still write to host
memory is dropped; disabled; held requests detached; log and counts cleared. -/
def State.resetFn (s : State) (f : Nat) : State :=
  let s2 := (s.clearConfig f).disable f
  let s3 := { s2 with reqs := s2.reqs.map (fun (r : Req) => if r.fn = f then { r with detached := true } else r) }
  let s4 := s3.bumpBy R.SRV_CNT_CPL_DROP (s3.func f).cpls.length
  s4.onFunc f (fun x => { x with log := [], busy := [], lastTag := [], stale := [], cpls := [], since := 0, firstAt := none })

/-- VF Enable cleared (`lo` at most 1), or NumVFs lowered below `lo`: the virtual functions from `lo` on are disabled and no longer present (R475,
R500). -/
def State.disableVfs (s : State) (lo : Nat) : State :=
  ((List.range 16).foldl (fun s f => if 1 ≤ f ∧ lo ≤ f then ((s.disable f).clearConfig f).wr R.HIF_FUNC_PRESENT 0 0 f else s) s).onFn 0
    (fun x => if lo ≤ 1 then { x with vfEnable := false } else { x with numVfs := min x.numVfs (lo - 1) })

/-- The virtual functions up to `n` exist (R475). -/
def State.enableVfs (s : State) (n : Nat) : State :=
  ((List.range 16).foldl (fun s f => if 1 ≤ f ∧ f ≤ n then s.wr R.HIF_FUNC_PRESENT 1 0 f else s) s).onFn 0 (fun x => { x with vfEnable := true })

/-- FUNCTION_LEVEL_RESET (R409, R500, R501): of the physical function, every function is disabled and VF Enable cleared.  The reset is done at
once, and complete at a free tick within 10 ms, until when FLR_BUSY reads 1 (DEDUCED, log entry 78). -/
def execFunctionLevelReset (f : Fin 16) (s : State) : Host.Outcome State Fault Refusal :=
  .next (if s.pkg = .held then s
    else
      let s1 := if f.val = 0 then (s.disableVfs 1).resetFn 0 else s.resetFn f
      { s1 with free := s1.free + 1 }.onFn f (fun x => { x with flrEnd := s1.tick + Config.freeNat s1.free % 10000001 }))

/-- A function enters D3hot (R476, R500). -/
def State.enterD3hot (s : State) (f : Nat) : State := (s.disable f).wr R.HIF_FUNC_D3HOT 1 0 f

/-- D3HOT_ENTRY (R476, R500). -/
def execD3hotEntry (f : Fin 16) (s : State) : Host.Outcome State Fault Refusal :=
  .next (if s.pkg = .held then s else s.enterD3hot f)

/-- VF_DISABLE: NumVFs lowered so that the functions up to `keep` remain; 0: VF Enable cleared (R500). -/
def execVfDisable (keep : Fin 16) (s : State) : Host.Outcome State Fault Refusal :=
  .next (if s.pkg = .held then s else s.disableVfs (keep + 1))

/-- HIF_LINK shows the link down (R504). -/
def State.pcieDown (s : State) : State := ((s.wr R.HIF_LINK_SPEED 0).wr R.HIF_LINK_WIDTH 0).wr R.HIF_LINK_FLIT 0

/-- HOT_RESET, link disable or DL_Down: every function disabled, VF Enable cleared (R500, R501), the link down until PCIE_LINK_UP (R504);
configuration space and request logs are reset as for a function-level reset of every function. -/
def execHotReset (s : State) : Host.Outcome State Fault Refusal :=
  .next (if s.pkg = .held then s
    else ((List.range 16).foldl (fun s f => s.resetFn f) ((s.disableVfs 1).disable 0)).pcieDown)

/-- FUNCTION_ENABLE: the stake at BURST, the ring count from 0 (R398, R401). -/
def execFunctionEnable (f : Fin 16) (s : State) : Host.Outcome State Fault Refusal :=
  .next (s.hostCmd .srv 0 (fun s =>
    if s.on R.SRV_FUNC_EN 0 f then s
    else (((s.wr R.SRV_FUNC_EN 1 0 f).wr R.SRV_CPL_WRITTEN 0 0 f).setStake f (s.rd R.SRV_STAKE_BURST 0 f * 1000000000)).onFunc f
      (fun x => { x with since := 0, firstAt := none })))

/-- FUNCTION_DISABLE (R408). -/
def execFunctionDisable (f : Fin 16) (s : State) : Host.Outcome State Fault Refusal :=
  .next (s.hostCmd .srv 0 (fun s => if s.on R.SRV_FUNC_EN 0 f then s.disable f else s))

/-- STAKE_BURST_WRITE: the level becomes the smaller of itself and the new BURST (R398); requests whose next dealing costs more than it end
(R400). -/
def execStakeBurstWrite (f : Fin 16) (value : BitVec 32) (s : State) : Host.Outcome State Fault Refusal :=
  .next (s.hostCmd .srv 0 (fun s =>
    let v := s.stake f
    let s1 := (s.wr R.SRV_STAKE_BURST value.toNat 0 f).setStake f (min v (value.toNat * 1000000000))
    (s1.reqs.filter (fun r => r.fn == f.val)).foldl State.endCostly s1))

/-- Bytes written to the request log of a function or its control line (R381, R382, R479): entry bytes and valid word of one TLP are applied
together, before any sweep, and a valid word written anew is no dropped one; the reserved bytes of the control line and what follows take
nothing (R381, R478). -/
def State.logWrite (s : State) (f offset : Nat) (bytes : List Byte) : State :=
  let bs := bytes.take (0x10004 - offset)
  let written (slot : Nat) : Bool := decide (offset < 128 * slot + 0x80) && decide (128 * slot + 0x7C < offset + bs.length)
  s.onFunc f (fun x => { x with log := SMap.setRun 0#8 x.log offset bs, stale := x.stale.filter (fun k => !written k) })

/-- A host write to a request log or its control line (R381, R479, R486).  It comes through the function's own BAR4 or the physical
function's, so D3hot stops it only when both are in it (R476). -/
def execRequestLogWrite (f : Fin 16) (offset : Nat) (bytes : List Byte) (s : State) : Host.Outcome State Fault Refusal :=
  .next (if s.dealerUp && (s.fnReached 0 || s.fnReached f) then s.logWrite f offset bytes else s)

end Sys2Proof.Machine
end

