-- ==== Sys2Proof/Machine/Tricks.lean ====
section
/-! DEFINITION. Tricks: combining trees, arrivals, releases and ends (R316 to R322), abort tricks and returns (R69, R323, R448),
lost ports (R449), holding ABORTs (R557), the load dealing and withdrawal (R338 to R340), comparisons with the partner
(R347), and dummy load (R324). -/

namespace Sys2Proof.Machine

/-! ## Trees (R316) -/

/-- The child ports of a group. -/
def State.childPorts (s : State) (g : Nat) : List Nat :=
  (List.range 16).filter (fun p => bitOf (s.rd R.TRK_TREE_CHILDREN 0 g) p)

/-- The parent port of a group. -/
def State.parentPort (s : State) (g : Nat) : Option Nat :=
  if s.on R.TRK_TREE_PARENT_VALID 0 g then some (s.rd R.TRK_TREE_PARENT 0 g) else none

/-- Every tree port of a group. -/
def State.treePorts (s : State) (g : Nat) : List Nat := ((s.parentPort g).toList ++ s.childPorts g).eraseDups

/-- Whether a port is lost to the groups whose trees name it (R449): DOWN, or its peer's dealer is down. -/
def State.portLost (s : State) (p : Nat) : Bool := (s.port p).down || s.on R.LNK_STATUS_PEER_DDOWN p

/-- Whether this package acts as the root of a group: it has no parent, or, for an abort, its parent port is lost (R449). -/
def State.actsRoot (s : State) (g : Nat) : Bool :=
  match s.parentPort g with
  | none => true
  | some p => s.portLost p

/-- The release margin of a group [ns] (R319, R328). -/
def State.margin (s : State) (g : Nat) : Nat :=
  100 * (if s.rd R.TRK_TREE_MARGIN 0 g = 0 then 0x28 else s.rd R.TRK_TREE_MARGIN 0 g)

/-- A TRICK flit sent on several ports. -/
def State.sendOn (s : State) (ports : List Nat) (t : TrickFlit) : State := ports.foldl (fun s p => s.sendTrick p t.flit) s

/-- A TRICK flit with every field 0 but its kind, group and serial. -/
def TrickFlit.plain (kind group serial : Nat) : TrickFlit := ⟨kind, group, 0, serial, 0, 0, 0, 0, 0⟩

/-- The deal serial that follows another: 32 bits (R47). -/
def nextSerial (n : Nat) : Nat := (n + 1) % 2 ^ 32

/-- The largest NEED of the children that have sent theirs (R318). -/
def Group.kidsNeed (g : Group) : Nat := g.kids.foldl (fun m k => max m k.2) 0

/-! ## Hands of a group -/

/-- The hand indices of a trick group in the loaded image. -/
def State.groupHands (s : State) (g : Nat) : List Nat :=
  (List.range s.hands.length).filter (fun h => (s.handAt h).any (fun x => x.hdr.group == g))

/-- The logical cores of a hand. -/
def HandHdr.cores (h : HandHdr) : List Nat := (List.range 160).filter (fun i => bitOf h.coreSet i)

/-- The physical parts of a hand's cores (R14, R16). -/
def State.partsOf (s : State) (h : HandHdr) : List Nat := h.cores.filterMap s.partOf

/-- Completion count c(h) (R42). -/
def State.count (s : State) (h : Nat) : Nat := SMap.get 0 s.done h

/-- The digest of a group (R220). -/
def State.digest (s : State) (g : Nat) : Nat := SMap.get 0 s.digests g

/-! ## Holding ABORTs (R557) and requests that end with the image (R410) -/

/-- A holding ABORT sent on the tree ports of every multi-package group, for its next serial, except on one port. -/
def State.sendHolding (s : State) (code origin : Nat) (except : Option Nat) : State :=
  (List.range 64).foldl (fun s g =>
    if s.multi g then
      s.sendOn ((s.treePorts g).filter (fun p => some p != except))
        { TrickFlit.plain 4 g (nextSerial (s.group g).serial) with code := code, origin := origin }
    else s) s

/-- ROUND_LIMIT (R448): the plan stops on this package, and a holding ABORT tells the others. -/
def State.roundLimit (s : State) (g : Nat) : State :=
  let s1 := (s.raiseEvt .flt 0 4 0x0C05).journal { JrnEntry.blank s 0x0C05 5 with group := g, info := (s.group g).returns }
  (s1.wr R.FLT_STATUS_PLAN_STOPPED 1).sendHolding 0x0C05 s1.chipId none

/-- Every request ends with PLAN_UNLOADED, or when its dealing ends or returns (R410). -/
def State.endAll (s : State) : State :=
  s.reqs.foldl (fun s r =>
    if r.detached then s
    else if s.held r then s.onReq r.order (fun r => { r with ending := some (r.ending.getD 0x12) })
    else s.finish r 0x12 0) s

/-- The image discarded when no dealing of it remains (R495): requests taken while it was unloading end with it (R410), and counts, returns,
digests and trick state go.  With no image the package is in health mode (R457). -/
def State.finishUnload (s0 : State) : State :=
  if s0.rd R.PLN_IMAGE_STATE ≠ 2 || s0.dealings.any (fun d => d.2.hand != checkHand) then s0
  else
    let s := s0.endAll
    let s1 := { s with
      image := none, done := [], dealt := [], digests := [], wheels := [],
      groups := s.groups.filter (fun e => e.2.dealing.isSome),
      flt := { s.flt with midRound := s.flt.midRound.map (fun (e : Nat × Option (Nat × Nat)) => (e.1, none)) },
      partner := { s.partner with waiting := [], early := [], bad := none, search := false, mine := [], theirs := [], held := false } }
    (((((s1.wr R.PLN_IMAGE_STATE 0).wr R.FLT_STATUS_PLAN_STOPPED 0).wrPair R.XPK_VOTED_LO R.XPK_VOTED_HI 0).wr R.XPK_LOAD_STATE
      (if s1.rd R.XPK_LOAD_STATE = 3 then 3 else 0)).wr R.XPK_PSTATUS_STATE (ofBool (s1.on R.XPK_PCFG_EN))).autos.rescore

/-- The image unloaded (R495) or withdrawn (R340): dealings in progress run to their end. -/
def State.unload (s : State) : State :=
  let s1 := (List.range 64).foldl (fun s g => s.onGroup g (fun x => { x with asked := none })) (s.wr R.PLN_IMAGE_STATE 2)
  s1.endAll.finishUnload

/-- The withdrawn state entered, with what caused it (R339, R340). -/
def State.withdraw (s : State) (code origin : Nat) : State :=
  let s1 := ((s.wr R.XPK_LOAD_STATE 3).wr R.XPK_LOAD_ORIGIN origin).wr R.XPK_LOAD_CODE code
  if s1.rd R.PLN_IMAGE_STATE = 1 then s1.unload else s1

/-- Every port that some group's tree names (R339). -/
def State.allTreePorts (s : State) : List Nat := ((List.range 64).flatMap s.treePorts).eraseDups

/-- The lowest-numbered group whose tree names a port; 0 when none does. -/
def State.portGroup (s : State) (p : Nat) : Nat := ((List.range 64).find? (fun g => (s.treePorts g).contains p)).getD 0

/-- An ABORT for serial 0 sent on every port that some group's tree names, once, except on one port (R339); it names the lowest-numbered
such group (DEDUCED, log entry 91). -/
def State.sendWithdraw (s : State) (code origin : Nat) (except : Option Nat) : State :=
  (s.allTreePorts.filter (fun p => some p != except)).foldl (fun s p =>
    s.sendOn [p] { TrickFlit.plain 4 (s.portGroup p) 0 with code := code, origin := origin }) s

/-! ## Giving members their deal time (R310, R320, R322) -/

/-- Whether a member waits for a deal time. -/
def Core.awaits (c : Core) : Bool :=
  match c.member with
  | some m => !m.started || c.trick == .arrived
  | none => false

/-- The dummy-load level of a member that arrived at `ta`, at die time `t` (R324). -/
def Core.level (c : Core) (ta t : Int) : Nat :=
  let a : Int := c.active
  let f : Int := c.floor
  let st : Int := max 1 c.rampStep
  let down := max f (a - (t - ta) / st)
  (match c.resumeAt with
  | some u => if u ≤ t then 0 else min a (max down (a + 1 - (u - t + st - 1) / st))
  | none => if c.rampMax ≤ t - ta then max 0 (f - (t - ta - c.rampMax) / st) else down).toNat

/-- The die time at which the level of a member changes next after `t` (R324): a ramp step down, one of the fall from the floor, or one of
the climb to T. -/
def Core.nextLevel (c : Core) (ta t : Int) : Int :=
  let st : Int := max 1 c.rampStep
  let down := ta + st * ((t - ta) / st + 1)
  match c.resumeAt with
  | some u => if u ≤ t then t else min down (u - st * ((u - t - 1) / st))
  | none =>
    let m := ta + c.rampMax
    min down (if t < m then m else m + st * ((t - m) / st + 1))

/-- The array cycles of a core's dummy load at its present level, a matter of timing (R201, R421): information only, free. -/
def State.burned (s : State) (p : Nat) : State :=
  if (s.core p).dummy = 0 then s
  else
    let (n, t) := s.freshNat
    (t.bumpPair R.MXU_BURN_LO R.MXU_BURN_HI n p).tally p 16 n

/-- The dummy load of a waiting member at its level of now (R324). -/
def State.setLevel (s : State) (p : Nat) : State :=
  match (s.core p).arrivedAt with
  | some ta => (s.burned p).onCore p (fun c => { c with dummy := c.level ta (s.dieTime (p / 11)) })
  | none => s

/-- Deal time T given to the local members that wait, in the scale of their die's copy, which may owe a step (R310); a die whose time
already exceeds T is a late start (R322). -/
def State.deliver (s : State) (g t : Nat) : State :=
  match (s.group g).dealing with
  | none => s
  | some d =>
    let ps := d.parts.filter (fun p => (s.core p).awaits)
    let at' (die : Nat) : Int := (t : Int) - (s.die die).owed
    let late := (((ps.map (fun p => p / 11)).eraseDups).filter (fun die => decide (at' die < s.dieTime die))).length
    let s1 := ps.foldl (fun s p => (s.onCore p (fun c => { c with resumeAt := some (at' (p / 11)) })).setLevel p) (s.bumpBy R.TRK_CNT_LATE late)
    (s1.onGroup g (fun x => { x with dealing := some { d with dealAt := t } })).useBid (s.dealHdr d).handId d.trick

/-- Deal time T for local members, held while a step of TABLE_TIME is pending (R310). -/
def State.giveTime (s : State) (g t : Nat) : State :=
  if s.timing.step.isSome then { s with timing := { s.timing with held := s.timing.held ++ [(g, t)] } } else s.deliver g t

/-! ## Partner comparisons (R347) -/

/-- The checkpoint of a group taken (R69, R221, R448): counts and digest saved, its round empty, its return count 0. -/
def State.checkpoint (s : State) (g : Nat) : State :=
  let ck := s.done.filter (fun e => (s.groupHands g).contains e.1)
  s.onGroup g (fun x => { x with ckpt := ck, round := [], returns := 0, digest := s.digest g })

/-- XPK_PSTATUS.STATE after a COMPARE came or went (R347, R352): 0x2 while one waits for the partner, else 0x1; a mismatch, a search and a
divergence stay shown. -/
def State.comparing (s : State) : State :=
  let st := s.rd R.XPK_PSTATUS_STATE
  if st = 3 ∨ st = 4 ∨ st = 5 then s else s.wr R.XPK_PSTATUS_STATE (if s.partner.waiting = [] then 1 else 2)

/-- PARTNER_MISMATCH of a comparison (R347, R450, R557). -/
def State.partnerMismatch (s : State) (mine theirs : PartnerFlit) : State :=
  let s1 := (((s.bump R.XPK_CNT_MISMATCH).raiseEvt .xpk 0 0 0x0801).wrPair R.XPK_MINE_LO R.XPK_MINE_HI mine.value).wrPair
    R.XPK_THEIRS_LO R.XPK_THEIRS_HI theirs.value
  let s2 := (s1.wr R.XPK_PSTATUS_GROUP mine.group).wr R.XPK_PSTATUS_STATE 3
  let s3 := { s2 with partner := { s2.partner with held := true, bad := some mine.group, last := some mine, search := false } }
  (s3.journal { JrnEntry.blank s3 0x0801 1 with group := mine.group, handId := mine.handId,
                                                 info := (s3.group mine.group).returns }).sendHolding 0x0801 s3.chipId none

/-- The two COMPAREs of a dealing met (R347, R349): equal values count and continue, and end a search; others mismatch. -/
def State.comparePair (s : State) (mine theirs : PartnerFlit) : State :=
  let s1 := { s with partner := { s.partner with
    waiting := s.partner.waiting.filter (fun x => x.group != mine.group),
    early := s.partner.early.filter (fun x => x.group != mine.group) } }
  if mine.value = theirs.value then
    let clean := s1.partner.search && s1.partner.bad == some mine.group
    let s2 := if clean then (s1.bump R.XPK_CNT_COMPARE).wr R.XPK_PSTATUS_STATE 6 else (s1.bump R.XPK_CNT_COMPARE).comparing
    let s3 := if clean then
        { s2 with partner := { s2.partner with search := false, bad := none, mine := [], theirs := [] } } else s2
    s3.checkpoint mine.group
  else s1.partnerMismatch mine theirs

/-- Whether two RECORDs are of the same instruction: CORE, ENGINE, INDEX and DEAL (R348). -/
def PartnerFlit.same (a b : PartnerFlit) : Bool :=
  a.core == b.core && a.engine == b.engine && a.index == b.index && a.deal == b.deal

/-- The pairs of RECORDs of one instruction, one from each side, that have not been compared (R348). -/
def PartnerSt.pairs (x : PartnerSt) : List (PartnerFlit × PartnerFlit) :=
  x.mine.filterMap (fun a => (x.theirs.find? (fun b => a.same b)).map (fun b => (a, b)))

/-- Whether a pair of RECORDs not yet compared differs (R349). -/
def PartnerSt.differs (x : PartnerSt) : Bool := x.pairs.any (fun e => decide (e.1.value ≠ e.2.value))

/-- A COMPARE of a dealing that ended here sent, and met with the partner's when that came early (R347), unless RECORDs differ, which stops
the group first (R349). -/
def State.compare (s : State) (f : PartnerFlit) : State :=
  let s1 := s.sendTrick (s.rd R.XPK_PCFG_PORT) f.flit
  let s2 := ({ s1 with partner := { s1.partner with waiting := s1.partner.waiting ++ [f] } }).comparing
  match s2.partner.early.find? (fun x => x.group == f.group && x.handId == f.handId && x.deal == f.deal) with
  | some t => if s2.partner.differs then s2 else s2.comparePair f t
  | none => s2

/-! ## The end of a dealing (R42, R50, R320) -/

/-- A member freed at the end of its dealing: it holds no dealing until its next deal; dummy load goes on (R324). -/
def Core.freed (c : Core) (tick : Nat) (ckpt : Bool) : Core :=
  { c with st := .idle, member := none, trick := .none, resumeAt := none, signalDue := none, eng := [], report := none,
           regionAt := tick, ckptEnd := ckpt }

/-- Weight slots that an ended dealing named (R361 conditions 2 and 3, R365). -/
def State.slotsEnded (s : State) (h : HandHdr) : State :=
  { s with wslots := s.wslots.mapIdx (fun i (w : WSlot) =>
      if bitOf h.wslots i then { w with ended := true, atCkpt := h.ckpt } else w) }

/-- A dealing counted as ended (R42, R320): its count rises, its members are free, its requests get their results (R395), its
references fall and automatic cuts follow (R362, R365, R372); at a checkpoint trick the round ends (R69, R221, R448), a COMPARE
hand's in partner mode when the comparison matches (R347; DEDUCED, log entry 22). -/
def State.endDealing (s : State) (g : Nat) : State :=
  let x := s.group g
  match x.dealing with
  | none => s
  | some d =>
    let h := s.dealHdr d
    let s0 := s.phaseEnd d
    let s1 := d.parts.foldl (fun s p => s.onCore p (fun c => c.freed s.tick h.ckpt)) s0
    let mid := s1.flt.midRound.filter (fun e => !d.parts.contains e.1)
    let s2 := { s1 with done := SMap.set 0 s1.done d.hand (s1.count d.hand + 1),
                        flt := { s1.flt with midRound := if h.ckpt then mid else mid ++ d.parts.map (fun p => (p, some (d.hand, d.number))) } }
    let s3 := s2.onGroup g (fun y => { y with st := .idle, dealing := none, kids := [], sentUp := false, need := x.kidsNeed,
                                              round := y.round ++ [(d.hand, d.number)] })
    let s4 := (s3.slotsEnded h).endReqs g d.reqs
    let partner := h.cls == 5 && s4.on R.XPK_PCFG_EN
    let s5 := if h.ckpt && !partner then s4.checkpoint g else s4
    let s6 := if partner then s5.compare ⟨1, g, h.handId, d.number, s5.digest g, 0, 0, 0, 0⟩ else s5
    (s6.freeSlots g).autos.settleSeats.finishUnload

/-- The built-in check ends (R456); for the retention of R129 it counts as a hand that ended at a checkpoint trick (DESIGN CHOICE, log
entry 19). -/
def State.endCheck (s : State) (g p : Nat) (pass : Bool) : State :=
  let s1 := (s.onCore p (fun c => c.freed s.tick true)).onGroup g (fun x => { x with st := .idle, dealing := none, kids := [] })
  let s2 := { s1 with flt := { s1.flt with running := none } }
  (if pass then s2.bump R.FLT_CNT_CHECK else s2.checkMismatch p g (s.group g).serial).finishUnload

/-! ## Completion of a trick (R318 to R320) -/

/-- Trick T released: forwarded to the children before local members are given their deal time (R319, R320). -/
def State.release (s : State) (g t : Nat) : State :=
  match (s.group g).dealing with
  | none => s
  | some d =>
    let s1 := s.sendOn (s.childPorts g) { TrickFlit.plain 2 g (s.group g).serial with trick := d.trick, t := t }
    let s2 := (s1.phaseEnd d).onGroup g (fun x => { x with
      dealing := some (s1.startPhase { d with trick := d.trick + 1, dealAt := t }),
      kids := [], sentUp := false, st := .released })
    s2.giveTime g t

/-- Whether a core's region and die are awake. -/
def State.partAwake (s : State) (p : Nat) : Bool := s.awake (p / 11) && (s.core p).region != .gated && (s.core p).region != .waking

/-- The stacks that the region bounds of a hand name (R516). -/
def Hand.stacks (h : Hand) : List Nat :=
  (h.streams.flatMap (fun e => (e.res.bounds.filter (fun b => b.tiles != 0 && b.space == .hbm)).flatMap (fun b =>
    [stackOf b.base, stackOf (b.base + 4096 * b.tiles - 1)]))).eraseDups

/-- The dies that a hand touches beside those of its cores (R439): of its stacks, and those whose bridges carry slots of its flows. -/
def Hand.touches (h : Hand) : List Nat :=
  (h.stacks ++ ((Config.wheelSlots h.hdr.handId).filter (fun x => slotGivable x.1 x.2.1 && decide (x.1 < 78))).flatMap (fun x =>
    (List.range 24).filter (wireTouches x.1))).eraseDups

/-- This package's own NEED (R318): 0 when no core region or die that the dealing touches must wake (R439), else a time that its dealer
expects, free. -/
def State.ownNeed (s : State) (d : Option Dealing) : Nat × State :=
  if d.all (fun d => d.parts.all s.partAwake && (s.handAt d.hand).all (fun h => h.touches.all s.awake)) then (0, s) else s.freshNat

/-- Whether a group's subtree has arrived at the trick it collects (R318). -/
def State.subtreeArrived (s : State) (g : Nat) (d : Dealing) : Bool :=
  d.parts.all (fun p => (s.core p).trick == .arrived) &&
    (s.childPorts g).all (fun p => (s.group g).kids.any (fun k => k.1 == p))

/-- What follows when the subtree has arrived (R318, R319): a package with a parent sends ARRIVE; the root releases the trick,
or ends the dealing at its last trick. -/
def State.trickCheck (s : State) (g : Nat) : State :=
  let x := s.group g
  match x.dealing with
  | none => s
  | some d =>
    if x.abort.isSome || !s.subtreeArrived g d then s
    else
      let (own, s1) := s.ownNeed (some d)
      let need := max own x.kidsNeed
      match s.parentPort g with
      | some p =>
        if x.sentUp then s
        else (s1.sendOn [p] { TrickFlit.plain 1 g x.serial with trick := d.trick, need := need }).onGroup g
          (fun y => { y with sentUp := true, st := .arrived })
      | none =>
        if d.trick + 1 < (s.dealHdr d).trickCount then s1.release g (s1.time + s1.margin g + need)
        else (s1.sendOn (s1.childPorts g) { TrickFlit.plain 7 g x.serial with trick := d.trick }).endDealing g

/-- The load dealing at a package whose image is accepted (R338): once every child has sent ARRIVE for serial 0, it goes up. -/
def State.loadCheck (s : State) (g : Nat) : State :=
  let x := s.group g
  if s.rd R.PLN_IMAGE_STATE = 1 ∧ s.multi g ∧ x.serial = 0 ∧ x.voted = false ∧ x.sentUp = false ∧
      (s.childPorts g).all (fun p => x.kids.any (fun k => k.1 == p)) then
    match s.parentPort g with
    | some p => (s.sendOn [p] (TrickFlit.plain 1 g 0)).onGroup g (fun y => { y with sentUp := true })
    | none => s.onGroup g (fun y => { y with sentUp := true })
  else s

/-! ## Returns (R69 step 5, R448) -/

/-- The largest dealing number of each hand that must end before dealing `k` of hand `b` can be ready (R42, R46): dealing `m` of
hand `h` precedes it when `m` is at most that number. -/
def mustEnd (hands : List Hand) (b k : Nat) : SMap Int :=
  let relax (r : SMap Int) (q : Nat) (n : Int) : SMap Int :=
    ((hands[q]?).map (·.edges)).getD [] |>.foldl (fun r e =>
      let v := n + e.d - 1
      if SMap.get (-1) r e.pred < v then SMap.set (-1) r e.pred v else r) r
  (List.range hands.length).foldl (fun r _ => r.foldl (fun r' e => if 0 ≤ e.2 then relax r' e.1 e.2 else r') r) (relax [] b k)

/-- Whether one of the dealings `xs` precedes dealing `y` (R46). -/
def precedes (hands : List Hand) (xs : List (Nat × Nat)) (y : Nat × Nat) : Bool :=
  let r := mustEnd hands y.1 y.2
  xs.any (fun x => decide ((x.2 : Int) ≤ SMap.get (-1) r x.1))

/-- The dealings of a group since its last checkpoint trick, the one in progress among them. -/
def Group.sinceCkpt (x : Group) : List (Nat × Nat) :=
  x.round ++ (match x.dealing with
    | some d => if d.hand = checkHand then [] else [(d.hand, d.number)]
    | none => [])

/-- The groups drawn in by the return of the groups `gs` (R69 step 5), by rounds of at most `n`. -/
def State.drawn (s : State) : Nat → List Nat → List Nat
  | 0, gs => gs
  | n + 1, gs =>
    let xs := gs.flatMap (fun g => (s.group g).sinceCkpt)
    let new := (List.range 64).filter (fun g => !gs.contains g && ((s.group g).sinceCkpt).any (precedes s.hands xs))
    if new = [] then gs else s.drawn n (gs ++ new)

/-- Whether a return for a code counts toward RETRY (R448): not one under R449. -/
def countsReturn (code : Nat) : Bool := code != 0x0701 && code != 0x0B01

/-- A group returned to its last checkpoint trick (R69 step 5, R221, R448): counts and digest go back, the requests of its
dealing go back to its deal (R397), its cores are between rounds (R454), and a return above RETRY stops the plan. -/
def State.returnGroup (s : State) (g code : Nat) : State :=
  let x := s.group g
  let hs := s.groupHands g
  let parts := (x.dealing.map (·.parts)).getD []
  let back (e : Nat × Option (Nat × Nat)) : Bool := parts.contains e.1 || e.2.any (fun d => x.round.contains d)
  let n := if countsReturn code then x.returns + 1 else x.returns
  let s1 := { s with
    done := hs.foldl (fun m h => SMap.set 0 m h (SMap.get 0 x.ckpt h)) s.done,
    digests := SMap.set 0 s.digests g x.digest,
    flt := { s.flt with midRound := s.flt.midRound.filter (fun e => !back e) },
    partner := { s.partner with waiting := s.partner.waiting.filter (fun f => f.group != g) } }
  let s2 := s1.onGroup g (fun y => { y with st := .idle, dealing := none, kids := [], sentUp := false, abort := none, round := [],
                                            returns := n, asked := none, owed := true, need := y.kidsNeed })
  let s3 := (((s2.returnReqs ((x.dealing.map (·.reqs)).getD [])).bump R.FLT_CNT_RETURN).freeSlots g).autos.settleSeats
  if countsReturn code && decide (s3.rd R.FLT_CFG_RETRY < n) then s3.roundLimit g else s3

/-! ## Abort tricks (R69 steps 3 and 4, R323) -/

/-- A member stopped by an abort trick (R69 step 3): issue stops, the queues are discarded and the tiles of started
instructions are poisoned; its windows close when it arrives. -/
def State.stopMember (s : State) (p : Nat) : State :=
  let c := s.core p
  (s.poisonTiles p c.startedTiles).onCore p (fun k => { k with
    st := if k.st = .faulted then .faulted else .atTrick, eng := [], trick := .aborting, resumeAt := none, signalDue := none,
    report := none, stallAt := s.tick })

/-- An abort begun on a group (R323 steps 1 and 2): ABORT goes out on the ports given, and local members stop. -/
def State.startAbort (s : State) (g : Nat) (a : AbortInfo) (ports : List Nat) : State :=
  let x := s.group g
  let s1 := s.sendOn ports { TrickFlit.plain 4 g a.serial with code := a.code, origin := a.origin }
  let s2 := ((x.dealing.map (·.parts)).getD []).foldl (fun s p => s.stopMember p) s1
  { s2.onGroup g (fun y => { y with st := .aborting, abort := some a, kids := [], sentUp := false,
                                    serial := a.serial }) with
    timing := { s2.timing with held := s2.timing.held.filter (fun e => e.1 != g) } }

/-- The journal entry of an abort (R69 step 4, R323 step 5, R447), its weight on the part's score (R458). -/
def State.abortJournal (s : State) (g : Nat) (a : AbortInfo) : State :=
  let x := s.group g
  let hid := ((x.dealing.map (fun d => (s.dealHdr d).handId))).getD 0
  let n := if countsReturn a.code && s.rd R.PLN_IMAGE_STATE == 1 then x.returns + 1 else x.returns
  if a.quiet then s
  else if a.mine then
    let p := a.part.getD 0xFF
    let s1 := s.journal { JrnEntry.atPart s a.code 1 p with engine := a.engine, group := g, handId := hid, serial := a.serial,
                                                            pc := a.pc, info := n }
    let w := s1.faultWeight p a.code
    s1.addScore w.1 w.2
  else s.journal { JrnEntry.blank s a.code 2 with group := g, handId := hid, serial := a.serial, origin := a.origin }

/-- The serial that an ABORT of a drawn-in group names (R69 step 5): that of its dealing, dealt or announced, else the next. -/
def Group.abortSerial (x : Group) : Nat := if x.dealing.isSome || x.asked.isSome then x.serial else nextSerial x.serial

/-- A group returned with every group drawn in (R69 step 5), by `again` where one must abort first; none of them deals again before every one
has returned (step 6).  An ABORT with CODE PARTNER_MISMATCH for
the next serial returns nothing elsewhere (R323), so none of its kind is waited for (DEDUCED, log entry 102). -/
def State.returnAll (again : Nat → State → State) (s : State) (g : Nat) (a : AbortInfo) : State :=
  let others := (s.drawn 64 [g]).filter (fun o => o != g && (s.group o).abort.isNone)
  let s1 := others.foldl (fun s o =>
    let y := s.group o
    let idle := y.dealing.isNone && y.asked.isNone
    if idle && s.multi o && a.code == 0x0801 then
      (s.sendOn (s.treePorts o) { TrickFlit.plain 4 o y.abortSerial with code := a.code, origin := a.origin }).returnGroup o a.code
    else if !idle || s.multi o then
      again o (s.startAbort o { a with serial := y.abortSerial, mine := false, quiet := true } (if s.multi o then s.treePorts o else []))
    else s.returnGroup o a.code) (s.returnGroup g a.code)
  let wait := others.filterMap (fun o => (s1.group o).abort.map (fun b => (o, b.serial)))
  (g :: others).foldl (fun s o => s.onGroup o (fun y => { y with pull := y.pull ++ wait })) s1

/-- An abort trick completes on this package (R69 steps 4 and 5): its fault is journaled, and the group returns with those drawn in.  While
the image is unloaded no return follows (R495), and its cores are not between rounds (R454). -/
def State.abortComplete (again : Nat → State → State) (s : State) (g : Nat) (a : AbortInfo) : State :=
  let x := s.group g
  let parts := (x.dealing.map (·.parts)).getD []
  let s1 := (s.bump R.TRK_CNT_ABORT).abortJournal g a
  let s2 := parts.foldl (fun s p => s.onCore p (fun c => c.freed s.tick false)) s1
  if s2.rd R.PLN_IMAGE_STATE ≠ 1 then
    let mid := s2.flt.midRound.filter (fun e => !parts.contains e.1) ++ parts.map (fun p => (p, none))
    let s3 := { s2 with flt := { s2.flt with midRound := mid } }.onGroup g
      (fun y => { y with st := .idle, dealing := none, kids := [], sentUp := false, abort := none, asked := none })
    ((s3.returnReqs ((x.dealing.map (·.reqs)).getD [])).autos.settleSeats).finishUnload
  else s2.returnAll again g a

/-- What follows when the local members and the children have arrived at the abort trick (R323 steps 3 and 4, R449): ABORT_ARRIVE
goes up, or the root sends ABORT_DONE and completes the abort. -/
def State.abortCheck : Nat → State → Nat → State
  | 0, s, _ => s
  | n + 1, s, g =>
    let x := s.group g
    let parts := (x.dealing.map (·.parts)).getD []
    match x.abort with
    | none => s
    | some a =>
      if !(parts.all (fun p => (s.core p).trick == .abortDone)) ||
          !((s.childPorts g).all (fun p => s.portLost p || x.kids.any (fun k => k.1 == p))) then s
      else if !s.actsRoot g then
        if x.sentUp then s
        else
          let (own, s1) := s.ownNeed x.dealing
          (s1.sendOn (s1.parentPort g).toList { TrickFlit.plain 5 g a.serial with need := max own x.kidsNeed }).onGroup g
            (fun y => { y with sentUp := true })
      else
        (s.sendOn (s.childPorts g) (TrickFlit.plain 6 g a.serial)).abortComplete (fun o t => t.abortCheck n o) g a

/-- An abort begun and taken as far as it goes at once. -/
def State.abortGroup (s : State) (g : Nat) (a : AbortInfo) (ports : List Nat) : State := (s.startAbort g a ports).abortCheck 64 g

/-! ## Lost ports (R272, R449) -/

/-- Whether a group has a dealing of the image in progress, or is to deal one. -/
def Group.busy (x : Group) : Bool :=
  (match x.dealing with
    | some d => d.hand != checkHand
    | none => false) || x.asked.isSome

/-- The groups whose trees name a port are aborted, or an abort of theirs taken further without it (R449). -/
def State.loseTree (s : State) (port code : Nat) : State :=
  (List.range 64).foldl (fun s g =>
    if s.multi g && (s.treePorts g).contains port then
      let s1 := s.onGroup g (fun x => { x with lost := true })
      let x := s1.group g
      if x.abort.isSome then s1.abortCheck 64 g
      else if x.busy then
        s1.abortGroup g ⟨x.serial, code, s1.rd R.LNK_PEER_CHIP_ID port, false, none, 0, 0xFFFFFFFF, code == 0x0701⟩ (s1.treePorts g)
      else s1
    else s) s

/-- Whether the loaded image uses a port (R32, R272). -/
def State.imageUses (s : State) (port : Nat) : Bool := (s.image).any (fun im => bitOf im.ports port)

/-- The dealings that LINK_DOWN of a port aborts: those of the groups of R449, and every other one of an image that uses the
port (R272). -/
def State.loseLink (s : State) (port : Nat) : State :=
  let s1 := s.loseTree port 0x0701
  if s1.imageUses port then
    (List.range 64).foldl (fun s g =>
      let x := s.group g
      if x.abort.isNone && x.busy then
        s.abortGroup g ⟨x.serial, 0x0701, s.chipId, true, none, 0, 0xFFFFFFFF, true⟩ (s.treePorts g)
      else s) s1
  else s1

/-- GROUP_RESUME (R449): every tree port of a group is ACTIVE again with PEER_DDOWN 0. -/
def execGroupResume (g : Fin 64) (s : State) : Host.Outcome State Fault Refusal :=
  .next (if s.dealerUp && (s.group g).abort.isNone && (s.treePorts g).all (fun p => s.portActive p && !s.portLost p) then
      s.onGroup g (fun x => { x with lost := false })
    else s)

/-! ## Arrivals of members (R49, R92) -/

/-- Whether every engine instruction of a core has completed; LPUT and LSIG do so when every flit is reported as applied (R49,
R78, R285). -/
def Core.quiet (c : Core) : Bool := c.eng.all (fun e => e.2.queue.isEmpty && e.2.exec.isEmpty)

/-- The array activity of a member before its arrival, in sixteenths (R324): a matter of timing, free. -/
def State.activity (s : State) : Nat × State := (Config.freeNat s.free % 17, { s with free := s.free + 1 })

/-- The dummy-load settings that an arrival takes (R324, R328, R442). -/
def State.setRamp (s : State) (p a : Nat) : State :=
  let pct := min 100 (s.rd R.PWR_DUMMY_FLOOR_PCT)
  let act := if s.on R.TRK_DUMMY_EN then a else 0
  let step := if s.rd R.TRK_DUMMY_STEP = 0 then 10 else s.rd R.TRK_DUMMY_STEP
  let lim := if s.rd R.TRK_DUMMY_MAX = 0 then 1000 else s.rd R.TRK_DUMMY_MAX
  s.onCore p (fun c => { c with arrivedAt := some (s.dieTime (p / 11)), active := act, floor := (act * pct + 99) / 100,
                                rampStep := 10 * step, rampMax := 1000 * lim, dummy := act, resumeAt := none })

/-- A member arrives at a trick (R49) or at an abort trick (R69). -/
def State.arrive (s : State) (p : Nat) : State :=
  let c := s.core p
  match c.member with
  | none => s
  | some m =>
    if !s.dealerUp then s
    else if m.hand = checkHand then
      if m.started then
        let (pass, s1) := s.freshBool
        s1.endCheck m.group p pass
      else s
    else
      match c.trick with
      | .draining =>
        if !c.quiet || c.st != .atTrick then s
        else
          let (a, s1) := s.activity
          let s2 := (s1.onCore p (fun k => { k.closeAll with trick := .arrived })).setRamp p a
          (s2.onGroup m.group (fun x => { x with
            dealing := x.dealing.map (fun d => { d with locAt := s2.dieTime (p / 11) }) })).trickCheck m.group
      | .aborting =>
        let (a, s1) := s.activity
        ((s1.onCore p (fun k => { k.closeAll with trick := .abortDone })).setRamp p a).abortCheck 64 m.group
      | _ => s

/-- MEMBER_ARRIVE (R49). -/
def execMemberArrive (p : Fin 176) (s : State) : Host.Outcome State Fault Refusal := .next (s.arrive p)

/-- ABORT_TRICK (R69 step 3): the dealer's sweep sees the report of a core.  A fault in the built-in check aborts nothing
(R456). -/
def State.abortTrick (s : State) (p : Nat) : State :=
  let c := s.core p
  match c.report, c.member with
  | some r, some m =>
    if !s.dealerUp then s
    else
      let s1 := s.onCore p (fun k => { k with report := none })
      if m.hand = checkHand then s1.endCheck m.group p false
      else if (s1.group m.group).abort.isSome then s1
      else s1.abortGroup m.group ⟨m.serial, r.code, s1.chipId, true, some p, r.engine, r.pc, false⟩ (s1.treePorts m.group)
  | _, _ => s

/-- ABORT_TRICK (R69 step 3). -/
def execAbortTrick (p : Fin 176) (s : State) : Host.Outcome State Fault Refusal := .next (s.abortTrick p)

/-! ## Resuming (R320, R48, R92) and dummy load (R324) -/

/-- A member whose die's TABLE_TIME reaches T starts its stream or resumes (R92, R320, R325): it also waits for its die's mesh and
for its power.  While SYSREF is absent the clock may miss ticks, and T may not have come.  A dealer that is down stops the issue of its core and
not the end of its dummy load (R325, R467). -/
def State.resume (s : State) (p : Nat) : State :=
  let c := s.core p
  match c.member, c.resumeAt with
  | some m, some t =>
    if !s.linkLive || !s.awake (p / 11) || c.region != .running then s
    else
      let s0 := s.waitDie (p / 11) t
      if (s0.dieTime (p / 11) : Int) < t then s0
      else if !s0.up then s0.setLevel p
      else
        let s1 := (s0.burned p).onCore p (fun k => { k with
          st := .running, trick := .none, resumeAt := none, signalDue := none, arrivedAt := none, dummy := 0, stallAt := s0.tick,
          member := some { m with started := true } })
        let s2 := match c.signalDue with
          | some w => if m.started then s1.applySignal p w else s1
          | none => s1
        s2.onGroup m.group (fun x => { x with st := if x.st = .dealing ∨ x.st = .released then .collecting else x.st })
  | _, _ => s

/-- MEMBER_RESUME (R320). -/
def execMemberResume (p : Fin 176) (s : State) : Host.Outcome State Fault Refusal := .next (s.resume p)

/-- A ramp step elapses (R324, R183): the clock runs to the next change of the level. -/
def State.dummyStep (s : State) (p : Nat) : State :=
  match (s.core p).arrivedAt with
  | some ta => if s.linkLive then (s.waitDie (p / 11) ((s.core p).nextLevel ta (s.dieTime (p / 11)))).setLevel p else s
  | none => s

/-- DUMMY_LOAD_STEP (R324). -/
def execDummyLoadStep (p : Fin 176) (s : State) : Host.Outcome State Fault Refusal := .next (s.dummyStep p)

/-! ## TRICK flits taken by the trick logic (R317 to R323) -/

/-- The oldest TRICK flit of a port, when it is of a kind, handled by `act` and taken. -/
def State.takeTrick (s : State) (port kind : Nat) (act : TrickFlit → State → State) : State :=
  if !s.dealerUp then s
  else
    match s.trickIn.find? (fun e => e.1 == port) with
    | some e =>
      if e.2.kind = kind then act e.2 { s with trickIn := s.trickIn.erase e } else s
    | none => s

/-- A TRICK flit dropped and counted (R317). -/
def State.badTrick (s : State) : State := s.bump R.TRK_CNT_BAD

/-- ARRIVE from a child (R318, R338). -/
def State.onArrive (port : Nat) (t : TrickFlit) (s : State) : State :=
  let x := s.group t.group
  let add (s : State) : State := s.onGroup t.group (fun y => { y with
    kids := y.kids.filter (fun k => k.1 != port) ++ [(port, t.need)] })
  if !(s.treePorts t.group).contains port then s.badTrick
  else if (x.abort.any (fun a => a.serial == t.serial)) then s
  else if !(s.childPorts t.group).contains port then s.badTrick
  else if t.serial = 0 ∧ x.voted = false then
    if x.serial = 0 ∧ t.trick = 0 then (add s).loadCheck t.group else s.badTrick
  else if t.serial ≠ x.serial then s.badTrick
  else
    match x.dealing with
    | some d => if d.trick = t.trick then (add s).trickCheck t.group else s.badTrick
    | none => if x.asked.isSome ∧ t.trick = 0 then add s else s.badTrick

/-- Whether a package waits, below its parent, on the trick a flit names (R317). -/
def State.waitsOn (s : State) (port : Nat) (t : TrickFlit) : Bool :=
  let x := s.group t.group
  s.parentPort t.group == some port && x.abort.isNone && x.sentUp && x.serial == t.serial &&
    (match x.dealing with
      | some d => d.trick == t.trick && d.hand != checkHand
      | none => false)

/-- The straggler measurement of a released trick (R460, R461). -/
def State.straggler (s : State) (g t : Nat) : State :=
  match (s.group g).dealing with
  | none => s
  | some d =>
    if s.healthMode || d.parts.isEmpty then s
    else
      let us := if s.rd R.FLT_STRAG_CFG_SLACK_US = 0 then 5 else s.rd R.FLT_STRAG_CFG_SLACK_US
      let sh := if s.rd R.FLT_STRAG_CFG_SHARE_PCT = 0 ∨ 100 < s.rd R.FLT_STRAG_CFG_SHARE_PCT then 0x19 else s.rd R.FLT_STRAG_CFG_SHARE_PCT
      let win := if s.rd R.FLT_STRAG_CFG_WINDOW < 256 then 0x1000 else s.rd R.FLT_STRAG_CFG_WINDOW
      let near := decide (t - d.locAt - s.margin g < 1000 * us)
      let n := s.rd R.FLT_STRAG_STAT_TRICKS + 1
      let k := s.rd R.FLT_STRAG_STAT_NEAR + ofBool near
      if n < win then (s.wr R.FLT_STRAG_STAT_TRICKS n).wr R.FLT_STRAG_STAT_NEAR k
      else
        let s1 := (s.wr R.FLT_STRAG_STAT_TRICKS 0).wr R.FLT_STRAG_STAT_NEAR 0
        if sh * win < k * 100 then
          ((s1.raiseEvt .flt 0 2 0x0C03).journal (JrnEntry.blank s1 0x0C03 3)).wr R.FLT_STATUS_SUSPECT 1
        else s1

/-- RELEASE from the parent (R320). -/
def State.onRelease (port : Nat) (t : TrickFlit) (s : State) : State :=
  if !(s.treePorts t.group).contains port then s.badTrick
  else if ((s.group t.group).abort.any (fun a => a.serial == t.serial)) then s
  else if s.waitsOn port t then (s.straggler t.group t.t).release t.group t.t
  else s.badTrick

/-- END from the parent (R320). -/
def State.onEnd (port : Nat) (t : TrickFlit) (s : State) : State :=
  if s.waitsOn port t then
    (s.sendOn (s.childPorts t.group) { TrickFlit.plain 7 t.group t.serial with trick := t.trick }).endDealing t.group
  else s.badTrick

/-- ABORT for serial 0 (R339, R340): forwarded once; the image, or the next one accepted, is withdrawn. -/
def State.onWithdraw (port : Nat) (t : TrickFlit) (s : State) : State :=
  if s.rd R.XPK_LOAD_STATE = 3 ∨ s.on R.XPK_LOAD_ABORT_HELD then s
  else
    let s1 := s.sendWithdraw t.code t.origin (some port)
    if s1.rd R.PLN_IMAGE_STATE = 0 then
      ((s1.wr R.XPK_LOAD_ABORT_HELD 1).wr R.XPK_LOAD_ORIGIN t.origin).wr R.XPK_LOAD_CODE t.code
    else s1.withdraw t.code t.origin

/-- A holding ABORT received (R450, R557): forwarded once, then the image is held. -/
def State.onHolding (port : Nat) (t : TrickFlit) (s : State) : State :=
  if t.code = 0x0C05 then
    if s.on R.FLT_STATUS_PLAN_STOPPED then s
    else ((s.sendHolding t.code t.origin (some port)).journal { JrnEntry.blank s 0x0C05 5 with origin := t.origin }).wr
      R.FLT_STATUS_PLAN_STOPPED 1
  else if s.partner.held then s
  else
    let s1 := (s.sendHolding t.code t.origin (some port)).journal { JrnEntry.blank s t.code 2 with origin := t.origin }
    { s1 with partner := { s1.partner with held := true } }

/-- Whether the sender of an ABORT with CODE PARTNER_MISMATCH for the serial of the dealing in progress holds that dealing, so that the serial is
not its next one: it is the parent, it has arrived at a trick of the dealing, or the group is being searched (R349, R557; DEDUCED, log entry
102). -/
def State.dealtAt (s : State) (port g : Nat) : Bool :=
  let x := s.group g
  s.parentPort g == some port || x.kids.any (fun k => k.1 == port) || x.dealing.any (fun d => d.trick != 0) ||
    (s.partner.search && s.partner.bad == some g)

/-- ABORT (R323, R339, R557): never dropped as a mismatch from a tree port.  One with CODE PARTNER_MISMATCH for a dealing in progress that its
sender holds is the abort of a search (R349), and it holds the image as every ABORT of that CODE does (R323, R450; DEDUCED, log entry 102); one
for a serial that has already ended here, or for a later one, does nothing (DEDUCED, log entry 103). -/
def State.onAbort (port : Nat) (t : TrickFlit) (s : State) : State :=
  let x := s.group t.group
  let a : AbortInfo := ⟨t.serial, t.code, t.origin, false, none, 0, 0xFFFFFFFF, false⟩
  let others := (s.treePorts t.group).filter (fun p => p != port)
  if !(s.treePorts t.group).contains port then s.badTrick
  else if t.serial = 0 then s.onWithdraw port t
  else if t.code = 0x0C05 then s.onHolding port t
  else if t.code = 0x0801 then
    (if x.serial = t.serial ∧ x.busy ∧ x.abort.isNone ∧ s.dealtAt port t.group then s.abortGroup t.group { a with quiet := !s.partner.held } others else s).onHolding port t
  else if x.abort.any (fun b => b.serial == t.serial) then s
  else if x.serial = t.serial ∧ x.busy then s.abortGroup t.group a others
  else if t.serial = nextSerial x.serial ∧ x.busy = false ∧ x.abort.isNone then s.abortGroup t.group a others
  else s

/-- ABORT_ARRIVE from a child (R323). -/
def State.onAbortArrive (port : Nat) (t : TrickFlit) (s : State) : State :=
  let x := s.group t.group
  if (s.childPorts t.group).contains port ∧ t.trick = 0 ∧ x.abort.any (fun a => a.serial == t.serial) then
    (s.onGroup t.group (fun y => { y with kids := y.kids.filter (fun k => k.1 != port) ++ [(port, t.need)] })).abortCheck 64 t.group
  else s.badTrick

/-- ABORT_DONE from the parent (R323 step 5). -/
def State.onAbortDone (port : Nat) (t : TrickFlit) (s : State) : State :=
  let x := s.group t.group
  match x.abort with
  | some a =>
    if s.parentPort t.group = some port ∧ a.serial = t.serial ∧ t.trick = 0 ∧ x.sentUp then
      (s.sendOn (s.childPorts t.group) (TrickFlit.plain 6 t.group t.serial)).abortComplete (fun o u => u.abortCheck 64 o) t.group a
    else s.badTrick
  | none => s.badTrick

/-- TRICK_ARRIVE (R318). -/
def execTrickArrive (port : Fin 16) (s : State) : Host.Outcome State Fault Refusal :=
  .next (s.takeTrick port 1 (State.onArrive port))

/-- TRICK_RELEASE (R320). -/
def execTrickRelease (port : Fin 16) (s : State) : Host.Outcome State Fault Refusal :=
  .next (s.takeTrick port 2 (State.onRelease port))

/-- TRICK_END (R320). -/
def execTrickEnd (port : Fin 16) (s : State) : Host.Outcome State Fault Refusal :=
  .next (s.takeTrick port 7 (State.onEnd port))

/-- TRICK_ABORT (R323). -/
def execTrickAbort (port : Fin 16) (s : State) : Host.Outcome State Fault Refusal :=
  .next (s.takeTrick port 4 (State.onAbort port))

/-- TRICK_ABORT_ARRIVE (R323). -/
def execTrickAbortArrive (port : Fin 16) (s : State) : Host.Outcome State Fault Refusal :=
  .next (s.takeTrick port 5 (State.onAbortArrive port))

/-- TRICK_ABORT_DONE (R323). -/
def execTrickAbortDone (port : Fin 16) (s : State) : Host.Outcome State Fault Refusal :=
  .next (s.takeTrick port 6 (State.onAbortDone port))

end Sys2Proof.Machine
end

