-- ==== Sys2Proof/Machine/Deal.lean ====
section
/-! DEFINITION. The dealer's deals (R42 to R48, R411 to R413, R429): readiness, the choice of the next hand, setting up members,
batch areas and deal records; DEAL flits (R321); the built-in check's deals (R453, R454). -/

namespace Sys2Proof.Machine

/-! ## Readiness -/

/-- Whether a slot state allows a hand class (R355). -/
def slotAllows (st : SlotSt) (cls : Nat) : Bool :=
  match st with
  | .empty | .free => false
  | .ready => true
  | .staged => cls == 3 || cls == 6
  | .retiring => cls == 0 || cls == 1

/-- The C-dies of a hand's cores. -/
def HandHdr.dies (h : HandHdr) : List Nat := ((h.cores).map (fun i => i / 10)).eraseDups

/-- Whether the start-up conditions of R36 and R516 hold for a hand. -/
def State.broughtUp (s : State) (h : Hand) : Bool :=
  (!h.hdr.anchored || s.on R.HUB_BRINGUP_STATUS_ANCHOR_OK) &&
  (!h.hdr.ddr5 || s.on R.DDR_STATUS_TIER_READY) &&
  (!h.hdr.remote || (s.on R.HUB_BRINGUP_STATUS_EVKAI && s.on R.HUB_BRINGUP_STATUS_TIME)) &&
  h.hdr.dies.all (fun d => bitOf (s.rd R.HUB_BRINGUP_DIES_BIST_OK) d) &&
  h.stacks.all (fun n => bitOf (s.rd R.HUB_BRINGUP_DIES_HBM_OK) n)

/-- Whether the hand graph and DEAL_LIMIT let dealing `n` of a hand be dealt (R42). -/
def State.graphReady (s : State) (h : Hand) (n : Nat) : Bool :=
  h.edges.all (fun e => decide ((n : Int) + e.d ≤ (s.count e.pred : Int))) && (h.hdr.dealLimit == 0 || decide (n < h.hdr.dealLimit))

/-- Whether every valid gate of a hand allows dealing `n` (R413). -/
def State.gatesOpen (s : State) (i n : Nat) : Bool :=
  (List.range 16).all (fun k =>
    !(s.on R.SRV_GATE_HAND_VALID 0 k && s.rd R.SRV_GATE_HAND_HAND 0 k == i) || decide (n < s.rd R.SRV_GATE_COUNT 0 k))

/-- Whether a hand's slots allow its class (R356). -/
def State.slotsReady (s : State) (h : HandHdr) : Bool :=
  (List.range 64).all (fun i => !bitOf h.wslots i || slotAllows (s.wslot i).st h.cls)

/-- Whether cores, group and claims of a candidate are disjoint from every dealing in progress (R44). -/
def State.disjoint (s : State) (parts : List Nat) (g claims : Nat) : Bool :=
  s.dealings.all (fun d => d.1 != g && parts.all (fun p => !d.2.parts.contains p) && (claims &&& (s.dealHdr d.2).claims) == 0)

/-- Whether a core is between rounds (R454). -/
def State.betweenRounds (s : State) (p : Nat) : Bool :=
  !s.dealings.any (fun d => d.2.parts.contains p) && !s.flt.midRound.any (fun e => e.1 == p)

/-- Whether a marked core waits for its swap, which comes when it is between rounds (R462, R463). -/
def State.swapDue (s : State) (p : Nat) : Bool :=
  SMap.get 0 s.flt.marked p != 0 && s.on R.FLT_CFG_SWAP_EN && (s.jmap (p / 11)).jokers != 0 && (s.logicalOf p).isSome

/-- Whether the dealer may deal hands of the image at all: loaded, not unloading, not stopped or held, no port of it down
(R272, R445, R347). -/
def State.imageRuns (s : State) : Bool :=
  s.dealerUp && s.rd R.PLN_IMAGE_STATE == 1 && !s.on R.FLT_STATUS_PLAN_STOPPED && !s.partner.held &&
  (List.range 16).all (fun p => !(s.imageUses p && (s.port p).down))

/-- Whether a group takes a new dealing (R347, R449): after a return, once every group returned with it has returned (R69 step 6). -/
def State.groupFree (s : State) (g : Nat) : Bool :=
  let x := s.group g
  x.dealing.isNone && x.abort.isNone && !x.lost && x.pull.all (fun o => !(s.group o.1).abort.any (fun a => a.serial == o.2)) && !s.partner.waiting.any (fun f => f.group == g)

/-- Whether dealing number c(h) of hand `i` is ready (R36, R42, R356, R413, R516), its work apart. -/
def State.handWaits (s : State) (i : Nat) (h : Hand) : Bool :=
  s.imageRuns && s.graphReady h (s.count i) && s.gatesOpen i (s.count i) && s.broughtUp h && s.slotsReady h.hdr

/-- Whether a ready dealing may start (R44, R463), work and the group's deal order apart. -/
def State.handReady (s : State) (i : Nat) (h : Hand) : Bool :=
  let parts := s.partsOf h.hdr
  s.handWaits i h && s.groupFree h.hdr.group &&
  s.disjoint parts h.hdr.group h.hdr.claims && parts.length == h.hdr.cores.length && parts.all (fun p => !(s.swapDue p && s.betweenRounds p)) &&
  (h.hdr.cls != 4 || s.flt.due)

/-- Whether this package chooses hands for a group: it has no parent, and a multi-package group has completed its load
dealing (R319, R338). -/
def State.leads (s : State) (g : Nat) : Bool :=
  (s.parentPort g).isNone && (!s.multi g || (s.group g).voted || (s.group g).serial != 0 || (s.group g).sentUp)

/-- Whether hand `i` is a candidate of the dealer's own choice (R411). -/
def State.candidate (s : State) (i : Nat) (h : Hand) (pick : List Nat) : Bool :=
  s.handReady i h && s.leads h.hdr.group && (decide (2 ≤ h.hdr.cls) || s.hasWork h.hdr pick)

/-! ## The built-in check (R453, R454) -/

/-- The core on which a due check may be dealt now: not on one that is to be swapped first (R463). -/
def State.checkPart (s : State) : Option Nat :=
  match s.nextCheck with
  | some p =>
    let g := s.rd R.FLT_CFG_CHECK_GROUP
    if s.dealerUp && s.flt.due && s.on R.FLT_CFG_CHECK_EN && s.groupFree g && s.disjoint [p] g 0 &&
        !s.swapDue p && bitOf (s.rd R.HUB_BRINGUP_DIES_BIST_OK) (p / 11) && ((s.logicalOf p).isNone || s.betweenRounds p) then some p else none
  | none => none

/-! ## Setting up members (R48) -/

/-- The state of a member at the start of its stream (R48, R88, R101, R170); scratchpad, seals and region are kept. -/
def Core.dealt (c : Core) (m : Member) (res : ResBlock) (frames : List Frame) (tick : Nat) : Core :=
  { Core.reset with
    spm := c.spm, seals := c.seals, spmErr := c.spmErr, seaInject := c.seaInject, mxuInject := c.mxuInject,
    region := c.region, regionAt := c.regionAt, retained := c.retained, ckptEnd := c.ckptEnd, pace := c.pace,
    paceGoal := c.paceGoal, deepTicks := c.deepTicks, dummy := c.dummy, floor := c.floor, rampStep := c.rampStep,
    rampMax := c.rampMax, arrivedAt := c.arrivedAt, active := c.active,
    member := some m, tag := m.serial % 65536, bounds := res.bounds, queues := res.queues, frames := frames, stallAt := tick }

/-- A core region wakes, or its clock restarts (R437, R438). -/
def Core.woken (c : Core) (tick : Nat) : Core :=
  match c.region with
  | .stopped => { c with region := .running, regionAt := tick }
  | .gated => { c with region := .waking, regionAt := tick }
  | _ => c

/-- A gated die begins to wake (R439); a C-die that failed its self-test stays gated (R509). -/
def State.wakeDie (s : State) (d : Nat) : State :=
  s.onDie d (fun x => if x.power = .gated ∧ !(x.tested && !x.passed && decide (d < 16)) then { x with power := .waking } else x)

/-- SEQ_FAULT cleared and SEQ_HAND set at a deal (R108). -/
def State.seqDealt (s : State) (p handId : Nat) : State :=
  ((((((s.wr R.SEQ_FAULT_CODE 0 p).wr R.SEQ_FAULT_ENGINE 0 p).wr R.SEQ_FAULT_PC 0 p).wr R.SEQ_FAULT_INFO_FLAG_VALUE 0 p).wr
    R.SEQ_FAULT_INFO_FLAG 0 p).wr R.SEQ_FAULT_INFO_AT_TRICK 0 p).wr R.SEQ_HAND handId p

/-- The first pages of a stream, at most 16 (R101). -/
def State.firstPages (s : State) (im : Image) (e : StreamEnt) : State × List Frame :=
  (List.range (min 16 ((e.length + 16383) / 16384))).foldl (fun acc i =>
    let r := acc.1.readPage im e i
    (r.1, acc.2 ++ [r.2])) (s, [])

/-- One member set up and its region and die woken (R48, R437 to R439). -/
def State.setMember (s : State) (p : Nat) (m : Member) (handId : Nat) (res : ResBlock) (frames : List Frame) : State :=
  ((s.wakeDie (p / 11)).onCore p (fun c => (c.dealt m res frames s.tick).woken s.tick)).seqDealt p handId

/-- The members of a hand set up. -/
def State.setMembers (s : State) (im : Image) (h : Hand) (m : Member) : State :=
  h.streams.foldl (fun s e =>
    match s.partOf e.core with
    | some p =>
      let r := s.firstPages im e
      r.1.setMember p { m with logical := e.core } h.hdr.handId e.res r.2
    | none => s) s

/-! ## Dealing (R47) -/

/-- The record tile of a dealing (R358). -/
def State.writeRecord (s : State) (g : Nat) (h : HandHdr) (epochs : List Nat) : State :=
  if h.wslots = 0 || !s.on R.WSL_RECORD_BASE_LO_VALID then s
  else
    let a := s.rdPair R.WSL_RECORD_BASE_LO_ADDR R.WSL_RECORD_BASE_HI + 4096 * g
    s.sealedWrite a ((List.range 64).flatMap (fun i =>
      if bitOf h.wslots i then leBytes 4 (epochs.getD i 0) ++ leBytes 4 (s.wslot i).seat ++ List.replicate 56 0#8
      else List.replicate 64 0#8))

/-- The class, or GEN variant, of a hand for R412. -/
def HandHdr.kind (h : HandHdr) : Nat := if h.cls = 0 then h.variant else h.cls + 1

/-- The priority of a kind in SRV_CLASS_PRIO (R412). -/
def State.prio (s : State) (kind : Nat) : Nat := bitsOf (s.rd R.SRV_CLASS_PRIO) (3 * kind) 3

/-- A group has voted (R338): XPK_VOTED, and XPK_LOAD.STATE 0x2 when every multi-package group has; a package that has withdrawn stays so
(R340). -/
def State.vote (s : State) (g : Nat) : State :=
  let s1 := s.onGroup g (fun x => { x with voted := true })
  let v := s1.rdPair R.XPK_VOTED_LO R.XPK_VOTED_HI
  let s2 := s1.wrPair R.XPK_VOTED_LO R.XPK_VOTED_HI (v ||| 2 ^ g)
  if (List.range 64).all (fun k => !s2.multi k || (s2.group k).voted) && s2.rd R.XPK_LOAD_STATE != 3 then
    s2.wr R.XPK_LOAD_STATE 2 else s2

/-- Hand `i` dealt with serial and deal time (R37, R47, R48, R391, R397, R399), and with the requests placed in it and their prompt
tokens: batch area and requests only where this package leads a serving group.  The repeated dealing of a group lets an AUTO cut go on
that waited for it (R361 condition 4, R365). -/
def State.dealHand (s : State) (im : Image) (i : Nat) (h : Hand) (serial t : Nat) (rs : List (Req × List Byte)) : State :=
  let g := h.hdr.group
  let n := s.count i
  let serving := decide (h.hdr.cls ≤ 1) && (s.parentPort g).isNone
  let bs := if serving then shares s 0 (rs.map (·.1)) else []
  let s1 := if serving then ((s.writeBatch g n h.hdr.handId rs bs).enter bs) else s
  let epochs := (List.range 64).map (fun k => (s.wslot k).epoch)
  let s2 := s1.writeRecord g h.hdr epochs
  let s3 := s2.setMembers im h ⟨g, serial, i, n, 0, t, false, epochs⟩
  let s4 := (h.touches.foldl (fun s d => s.wakeDie d) s3).giveSlots g serial h.hdr.handId
  let s5 := s4.onGroup g (fun x => { x with
    serial := serial, st := .dealing, sentUp := false, asked := none, owed := false, need := 0, abort := none, pull := [],
    kids := if x.asked.isSome then x.kids else [],
    dealing := some (s4.startPhase ⟨i, n, t, 0, s.partsOf h.hdr, epochs, bs, 0, 0, 0, 0⟩) })
  let s6 := { s5 with dealt := SMap.set 0 s5.dealt h.hdr.kind (s5.stamp + 1), stamp := s5.stamp + 1 }.giveTime g t
  if (s.group g).owed then s6.autos else s6

/-- The dealer's own deal of hand `i` (R319): T no earlier than the margin and NEED allow; a DEAL flit goes to the children. -/
def State.dealOwn (s : State) (im : Image) (i : Nat) (h : Hand) (rs : List (Req × List Byte)) (need extra : Nat) : State :=
  let g := h.hdr.group
  let x := s.group g
  let t := s.time + s.margin g + max need x.need + extra
  let s1 := s.sendOn (s.childPorts g) { TrickFlit.plain 3 g (nextSerial x.serial) with t := t, handId := h.hdr.handId }
  let s2 := s1.dealHand im i h (nextSerial x.serial) t rs
  if x.serial = 0 ∧ x.voted = false ∧ s.multi g then s2.vote g else s2

/-- The built-in check dealt on a core (R453): the next part becomes the next check's. -/
def State.dealCheck (s : State) (p need extra : Nat) : State :=
  let g := s.rd R.FLT_CFG_CHECK_GROUP
  let x := s.group g
  let t := s.time + s.margin g + need + extra
  let s1 := s.setMember p ⟨g, nextSerial x.serial, checkHand, 0, 0, t, false, []⟩ 0 ⟨[], []⟩ []
  let s2 := s1.onGroup g (fun y => { y with
    serial := nextSerial x.serial, st := .dealing, sentUp := false, kids := [], pull := [],
    dealing := some (s1.startPhase ⟨checkHand, 0, t, 0, [p], [], [], 0, 0, 0, 0⟩) })
  let s3 := { s2 with
    flt := { s2.flt with due := false, running := some p },
    dealt := SMap.set 0 s2.dealt 5 (s2.stamp + 1),
    stamp := s2.stamp + 1 }
  (s3.wr R.FLT_STATUS_CHECK_PART ((p + 1) % 176)).giveTime g t

/-- A candidate: kind, hand index. -/
abbrev Cand := Nat × Nat

/-- Whether candidate `a` ranks before `b` (R412): priority, then least recently dealt, then hand index. -/
def State.before (s : State) (a b : Cand) : Bool :=
  if s.prio a.1 ≠ s.prio b.1 then decide (s.prio b.1 < s.prio a.1)
  else if SMap.get 0 s.dealt a.1 ≠ SMap.get 0 s.dealt b.1 then decide (SMap.get 0 s.dealt a.1 < SMap.get 0 s.dealt b.1)
  else decide (a.2 < b.2)

/-- Candidates in rank order. -/
def State.rank (s : State) : List Cand → List Cand
  | [] => []
  | c :: cs =>
    let rest := s.rank cs
    (rest.filter (fun x => s.before x c)) ++ [c] ++ rest.filter (fun x => !s.before x c)

/-- The first candidate that the energy account admits, counting those passed over (R429). -/
def State.firstAdmitted (s : State) : List Cand → Option Cand × State
  | [] => (none, s)
  | c :: cs =>
    let h := ((s.handAt c.2).map (·.hdr)).getD HandHdr.zero
    if s.dealings.isEmpty || s.admits h then (some c, s) else (s.bump R.PWR_CNT_DEFER).firstAdmitted cs

/-- The hand that a received DEAL names, ready now (R321). -/
def State.askedHand (s : State) (g : Nat) : Option (Nat × Hand × Nat × Nat) :=
  match (s.group g).asked with
  | some (hid, serial, t) =>
    match (List.range s.hands.length).find? (fun i => (s.handAt i).any (fun h => h.hdr.handId == hid && h.hdr.group == g)) with
    | some i =>
      match s.handAt i with
      | some h => if s.handReady i h then some (i, h, serial, t) else none
      | none => none
    | none => none
  | none => none

/-- A received DEAL's hand dealt when it is ready (R321). -/
def State.dealAsked (s : State) (g : Nat) : State :=
  match s.image, s.askedHand g with
  | some im, some (i, h, serial, t) => s.dealHand im i h serial t []
  | _, _ => s

/-- The dealer deals one ready dealing: one that a DEAL named, else the one that R412 and R429 choose.  Requests that end at a
boundary end first, and those that lack stake are paused (R370, R400); a dealing of which no prompt can be read is not dealt (R390, R403). -/
def State.deal (s : State) (pick : List Nat) (need extra : Nat) : State :=
  if !s.dealerUp then s
  else
    match (List.range 64).find? (fun g => (s.askedHand g).isSome) with
    | some g => s.dealAsked g
    | none =>
      let s1 := if s.imageRuns then
          s.hands.zipIdx.foldl (fun s h =>
            if decide (h.1.hdr.cls ≤ 1) && s.leads h.1.hdr.group && s.handReady h.2 h.1 then (s.endAtBoundary h.1.hdr).pauseUnpaid h.1.hdr
            else s) s
        else s
      let hs := s1.hands.zipIdx.filter (fun x => s1.candidate x.2 x.1 pick)
      let cs := hs.map (fun x => (x.1.hdr.kind, x.2)) ++ (match s1.checkPart with | some _ => [(5, checkHand)] | none => [])
      match s1.firstAdmitted (s1.rank cs) with
      | (none, s2) => s2
      | (some c, s2) =>
        if c.2 = checkHand then
          match s2.checkPart with
          | some p => s2.dealCheck p need extra
          | none => s2
        else
          match s2.image, s2.handAt c.2 with
          | some im, some h =>
            if 2 ≤ h.hdr.cls then s2.dealOwn im c.2 h [] need extra
            else
              match (s2.pauseLeft h.hdr pick).readPrompts (s2.compose h.hdr pick) with
              | ([], s3) => s3
              | (rs, s3) => s3.dealOwn im c.2 h rs need extra
          | _, _ => s2

/-- DEAL (R47). -/
def execDeal (pick : List Nat) (need extra : Nat) (s : State) : Host.Outcome State Fault Refusal := .next (s.deal pick need extra)

/-- DEAL from the parent (R320, R321): forwarded, then the hand is dealt at once when it is ready. -/
def State.onDeal (port : Nat) (t : TrickFlit) (s : State) : State :=
  let g := t.group
  let x := s.group g
  if s.parentPort g ≠ some port ∨ t.serial ≠ nextSerial x.serial ∨ x.busy ∨ x.abort.isSome then s.badTrick
  else
    let s1 := (s.sendOn (s.childPorts g) t).onGroup g (fun y => { y with
      serial := t.serial, st := .dealing, asked := some (t.handId, t.serial, t.t), kids := [], sentUp := false })
    let s2 := if t.serial = 1 ∧ x.voted = false then s1.vote g else s1
    s2.dealAsked g

/-- TRICK_DEAL (R321). -/
def execTrickDeal (port : Fin 16) (s : State) : Host.Outcome State Fault Refusal :=
  .next (s.takeTrick port 3 (State.onDeal port))

/-! ## Checks, jokers and host control of them (R451, R453, R462 to R464) -/

/-- A check becomes due (R453). -/
def State.dueCheck (s : State) : State :=
  if s.on R.FLT_CFG_CHECK_EN then { s with flt := { s.flt with due := true } } else s

/-- The check period in ticks (R453, R472). -/
def State.checkPeriod (s : State) : Nat :=
  1000000000 * (if s.rd R.FLT_CHECK_PERIOD = 0 then 0x258 else s.rd R.FLT_CHECK_PERIOD)

/-- CHECK_DUE: the period elapses (R453). -/
def execCheckDue (s : State) : Host.Outcome State Fault Refusal :=
  .next (if s.dealerUp then
      let s1 := s.waitUntil (s.marks.checkAt + s.checkPeriod)
      { s1.dueCheck with marks := { s1.marks with checkAt := s1.tick } }
    else s)

/-- CHECK_NOW (R453). -/
def execCheckNow (s : State) : Host.Outcome State Fault Refusal := .next (s.hostCmd .flt 0 State.dueCheck)

/-- RETIRE of a part (R462); parts above 175 are ignored (R472). -/
def execRetire (part : Fin 256) (s : State) : Host.Outcome State Fault Refusal :=
  .next (s.hostCmd .flt 0 (fun s => s.markCore part 0))

/-- RESUME (R451): PLAN_STOPPED and every return count cleared. -/
def execResume (s : State) : Host.Outcome State Fault Refusal :=
  .next (s.hostCmd .flt 0 (fun s =>
    (List.range 64).foldl (fun s g => s.onGroup g (fun x => { x with returns := 0 })) (s.wr R.FLT_STATUS_PLAN_STOPPED 0)))

/-- The lowest-numbered joker of a die: enabled, not retired, holding no logical core (R463). -/
def State.jokerOf (s : State) (die : Nat) : Option Nat :=
  (List.range 11).find? (fun c => !s.fusedOff (11 * die + c) && !s.retired (11 * die + c) && (s.logicalOf (11 * die + c)).isNone)

/-- Flits for a logical core that have been checked and not yet written leave a tile written in part from now on: its seal keeps the poison
that the joker's seals get (R71, R206; DESIGN CHOICE, log entry 101). -/
def State.breakTiles (s : State) (l : Nat) : State :=
  (List.range 16).foldl (fun s port =>
    s.onPort port (fun p => { p with
      elastic := p.elastic.map (fun x => if x.checked && (s.route x.flit.route).core == l then { x with broken := true } else x)
      tiles := p.tiles.map (fun t => if t.core == l then { t with refused := true } else t) })) s

/-- A marked core replaced by a joker (R463): seals of the joker poisoned (R71), map changed and stored, the old core gated; another marked core of
the die that now has no joker waits (R464). -/
def State.swapCore (s : State) (p c l : Nat) : State :=
  let die := p / 11
  let q := 11 * die + c
  let code := SMap.get 0 s.flt.marked p - 1
  let s1 := (s.wakeDie die).onCore q (fun k => { k.woken s.tick with seals := [], tag := (s.core p).tag })
  let s2 := s1.onMap die (fun m => { m with phys := m.phys.set (l % 10) c, retired := m.retired ++ [p % 11], jokers := m.jokers - 1 })
  let s3 := (s2.gateRegion p).setScore p 0xFFFFFFFF
  let s4 := { s3 with flt := { s3.flt with marked := SMap.set 0 s3.flt.marked p 0 } }
  let s5 := (((s4.nvmStore 1).journal { JrnEntry.atPart s4 code 4 p with core := l, info := q }).bump R.FLT_CNT_SWAP).lastJoker die
  (List.range 64).foldl (fun s g =>
    if (s.groupHands g).any (fun h => (s.handAt h).any (fun x => bitOf x.hdr.coreSet l)) then s.onGroup g (fun x => { x with returns := 0 })
    else s) (s5.breakTiles l)

/-- JOKER_SWAP (R463): a marked core that holds a logical core, between rounds, with a joker left on its die. -/
def execJokerSwap (p : Fin 176) (s : State) : Host.Outcome State Fault Refusal :=
  .next (match s.jokerOf (p / 11), s.logicalOf p with
    | some c, some l => if s.dealerUp && s.swapDue p && s.betweenRounds p then s.swapCore p c l else s
    | _, _ => s)

end Sys2Proof.Machine
end

