-- ==== Sys2Proof/Machine/Bringup.lean ====
section
/-! DEFINITION. The stages of bring-up as HUB_BRINGUP_STATUS shows them (R508, R511, R515, R305), and the package reset (R505, R506). -/

namespace Sys2Proof.Machine

/-- The C-dies. -/
def cDies : List Nat := List.range 16

/-- Present Evkai ports (R18, R24). -/
def State.presentPorts (s : State) : List Nat := (List.range 16).filter (fun p => !s.portAbsent p)

/-- Stages 3, 4 and the anchored self-test, from the results of the dies (R508). -/
def State.dieStages (s : State) : Bool × Bool × Bool :=
  let bist := cDies.all (fun d => (s.die d).tested)
  let hbm := bist && cDies.all (fun d => !(s.die d).passed || (s.die d).memDone)
  (bist, hbm, hbm && cDies.all (fun d => !((s.die d).passed && (s.die d).trained) || (s.die d).anchored))

/-- Stage 6 (R305): LOCKED, ROOT, or nothing configured. -/
def State.timeStage (s : State) : Bool :=
  s.rd R.TIM_STATUS_STATE == 2 || s.rd R.TIM_STATUS_STATE == 4 || (!s.on R.TIM_CFG_ROOT && !s.on R.TIM_CFG_PARENT_VALID)

/-- A stage bit set when its condition holds; it stays set (R508). -/
def State.stage (s : State) (f : Fld) (c : Bool) : State := if c then s.wr f 1 else s

/-- Whether a used DDR5 channel has FAILED (R508, R511). -/
def State.ddrFailed (s : State) : Bool :=
  (List.range (if s.on R.DDR_CFG_EIGHT then 8 else 4)).any (fun k => s.on R.DDR_STATUS_FAILED k)

/-- The stage bits after an event of bring-up (R508), with SHORT, FULL and DEGRADED (R511, R515): a degraded package does not set FULL, and
a FULL that is set stays while the stages are complete. -/
def State.stages (s : State) : State :=
  let fw := s.rd R.HUB_FW_STATUS_STATE == 3
  let d := s.dieStages
  let s1 := (s.stage R.HUB_BRINGUP_STATUS_BIST d.1).stage R.HUB_BRINGUP_STATUS_HBM d.2.1
  let s2 := (s1.stage R.HUB_BRINGUP_STATUS_ANCHOR_OK d.2.2).stage R.HUB_BRINGUP_STATUS_EVKAI (fw && s.presentPorts.all s.portActive)
  let s3 := s2.stage R.HUB_BRINGUP_STATUS_TIME (fw && s.timeStage)
  let bad := cDies.any (fun n => ((s.die n).tested && !(s.die n).passed) || ((s.die n).memDone && !(s.die n).trained)) || s.ddrFailed
  let s4 := s3.stage R.HUB_BRINGUP_STATUS_DEGRADED bad
  let all := [R.HUB_BRINGUP_STATUS_AON_PCIE, R.HUB_BRINGUP_STATUS_FIRMWARE, R.HUB_BRINGUP_STATUS_BIST, R.HUB_BRINGUP_STATUS_HBM,
    R.HUB_BRINGUP_STATUS_EVKAI, R.HUB_BRINGUP_STATUS_TIME, R.HUB_BRINGUP_STATUS_DDR5, R.HUB_BRINGUP_STATUS_ANCHOR_OK]
  let full := all.all (fun f => s4.on f) && cDies.all (fun n => (s.die n).passed && (s.die n).trained) &&
    (!s4.on R.HUB_BRINGUP_STATUS_DEGRADED || s.on R.HUB_BRINGUP_STATUS_FULL)
  let short := s4.on R.HUB_BRINGUP_STATUS_FIRMWARE && !full && (s.die 0).passed && (s.die 8).passed && (s.die 0).trained && (s.die 8).trained
  (s4.wr R.HUB_BRINGUP_STATUS_FULL (ofBool full)).wr R.HUB_BRINGUP_STATUS_SHORT (ofBool short)

/-! ## Package reset (R505 to R507) -/

/-- The MRAM with the bank that a store or erase was writing made invalid (R520). -/
def State.cutShort (s : State) : State :=
  match s.life.nvmNow with
  | some o => s.setSect o.sect (s.sect o.sect).spoil
  | none => s

/-- The package reset takes effect (R7, R505): MRAM and fuses stay, the life-cycle state is the fuse-held one, everything else is as after reset,
THERMTRIP_N with it (R435; DEDUCED, log entry 122).  The queue, what has left the package and the counters of free values are the model's own and stay. -/
def State.resetNow (s : State) (perst : Bool) : State :=
  let s0 := if perst then s else s.cutShort
  let r : State := { State.reset with
    pending := s.pending
    outbox := s.outbox
    free := s.free
    stamp := s.stamp
    osc := s.osc || !perst
    fuses := s.fuses
    mram := s0.mram
    flt := FaultSt.reset s.fuses
    life := LifeSt.reset s.fuses.lcs }
  ((r.wr R.HUB_RESET_CAUSE_CAUSE (ofBool perst)).wr R.HUB_RESET_CAUSE_SAVED
    (ofBool (s.pkg == .sagged && s.on R.HUB_POWER_EVENT_SAVE_DONE))).wr R.HUB_RESET_CAUSE_TRIPPED (s.rd R.PWR_STATUS_TRIPPED)

/-- Whether PERST_N waits (R506): for a hold-up save, an MRAM store or a fuse burn; a life-cycle command in progress may be in one. -/
def State.perstWaits (s : State) : Bool :=
  (s.pkg == .sagged && !s.on R.HUB_POWER_EVENT_SAVE_DONE) || s.life.nvmNow.isSome || s.life.op.isSome

/-- A package reset that waited takes effect once nothing holds it (R506). -/
def State.resetIfDue (s : State) : State :=
  match s.life.resetDue with
  | some p => if s.perstWaits then s else s.resetNow p
  | none => s

end Sys2Proof.Machine
end

