-- ==== Sys2Proof/Machine/Phy.lean ====
section
/-! DEFINITION. The coding of a flit on the lanes of a port: the forward error correction of R254 and R255, the order of symbols and
bits on the lanes (R254), the scrambler and the four levels of R253. -/

namespace Sys2Proof.Machine

/-! ## GF(2^9) (R254) -/

/-- A product in GF(2^9) with the field polynomial x^9 + x^4 + 1; α is 2. -/
def gfMul (a b : Nat) : Nat :=
  (List.range 9).foldl (fun r i =>
    let d := if 256 ≤ r then (2 * r) ^^^ 0x211 else 2 * r
    if bitOf b (8 - i) then d ^^^ a else d) 0

/-- A power in GF(2^9), of an exponent below 512. -/
def gfPow (a n : Nat) : Nat :=
  (List.range 9).foldl (fun r i => if bitOf n (8 - i) then gfMul (gfMul r r) a else gfMul r r) 1

/-- The value of a polynomial, coefficients from degree 0 up. -/
def gfEval (p : List Nat) (x : Nat) : Nat := p.foldr (fun c r => c ^^^ gfMul r x) 0

/-! ## The code RS(272,256) (R254, R255) -/

/-- The generator polynomial, the product of (x − α^i) for i from 0 to 15: coefficients of degrees 0 to 16. -/
def rsGen : List Nat := [157, 68, 461, 354, 309, 25, 86, 124, 406, 262, 468, 462, 12, 1, 437, 67, 1]

/-- The generator's coefficients of degrees 0 to 15 times α^b, nine bits each, for b from 0 to 8. -/
def rsRows : List Nat :=
  [0x21ed4020ce77520d963e1583335b1734889d, 0x435ec0418c6ee43b3d7c2b0647b6ae2d113a, 0x8639c083085d8c746bf8560c8f6d541e2065,
   0x4f38106003b5ce8d6f8a8591eca287c62ca, 0x963420c0076b9d1acf9d0b21c94d8f8c594, 0x1242c41800e537a149fba5663839b1f18939,
   0x2401c81111c22f6283ffca8e7173ebe31063, 0x4803900333845ae706f7915cc3f7d7c202c6, 0x900720066700f5ee1de7a2b987efa7c4278c]

/-- The remainder of the data polynomial times x^16 by the generator, nine bits a coefficient.  Symbol k is the coefficient of degree
271 − k (PRESUMED, log entry 97). -/
def rsRemainder (data : List Nat) : Nat :=
  data.foldl (fun r d =>
    let f := d ^^^ (r >>> 135)
    rsRows.zipIdx.foldl (fun r g => if bitOf f g.2 then r ^^^ g.1 else r) ((r % 2 ^ 135) <<< 9)) 0

/-- The parity symbols of 256 data symbols. -/
def rsParity (data : List Nat) : List Nat :=
  let r := rsRemainder data
  (List.range 16).map (fun i => bitsOf r (9 * (15 - i)) 9)

/-- The data symbols of the 288 bytes of a flit: bit b is bit b mod 9 of symbol b div 9. -/
def flitSymbols (bs : List Byte) : List Nat := (List.range 256).map (fun k => bitsOf (leNat bs) (9 * k) 9)

/-- The bytes of 256 data symbols. -/
def symbolBytes (syms : List Nat) : List Byte := leBytes 288 (syms.foldr (fun c r => c + 512 * r) 0)

/-- The codeword of a flit. -/
def codeword (bs : List Byte) : List Nat := flitSymbols bs ++ rsParity (flitSymbols bs)

/-- The sixteen syndromes of a received word: its values at the roots of the generator, which are those of what its parity differs by
from the parity of its data. -/
def syndromes (c : List Nat) : List Nat :=
  let d := (rsParity (c.take 256)).zipWith (· ^^^ ·) (c.drop 256)
  (List.range 16).map (fun i => d.foldl (fun r x => gfMul r (gfPow 2 i) ^^^ x) 0)

/-- The search for the shortest error locator: locator, its last form before a change of length, length, shift and discrepancy. -/
structure Locator where
  cur   : List Nat
  prev  : List Nat
  len   : Nat
  shift : Nat
  disc  : Nat
  deriving DecidableEq, Repr

/-- Step `n` of the search. -/
def Locator.next (syn : List Nat) (l : Locator) (n : Nat) : Locator :=
  let d := (List.range (l.len + 1)).foldl (fun r j => r ^^^ gfMul (l.cur.getD j 0) (syn.getD (n - j) 0)) 0
  if d = 0 then { l with shift := l.shift + 1 }
  else
    let k := gfMul d (gfPow l.disc 510)
    let moved := List.replicate l.shift 0 ++ l.prev.map (gfMul k)
    let cur := (List.range (max l.cur.length moved.length)).map (fun i => l.cur.getD i 0 ^^^ moved.getD i 0)
    if 2 * l.len ≤ n then ⟨cur, l.cur, n + 1 - l.len, 1, d⟩ else { l with cur := cur, shift := l.shift + 1 }

/-- The error locator of a received word. -/
def locator (syn : List Nat) : Locator := (List.range 16).foldl (Locator.next syn) ⟨[1], [1], 0, 1, 1⟩

/-- The error at symbol `k`. -/
def errorAt (syn lam : List Nat) (k : Nat) : Nat :=
  let x := gfPow 2 (271 - k)
  let xi := gfPow 2 (240 + k)
  let omega := (List.range 16).map (fun i => (List.range (i + 1)).foldl (fun r j => r ^^^ gfMul (lam.getD j 0) (syn.getD (i - j) 0)) 0)
  let deriv := (List.range (lam.length - 1)).map (fun i => if i % 2 = 0 then lam.getD (i + 1) 0 else 0)
  gfMul (gfMul x (gfEval omega xi)) (gfPow (gfEval deriv xi) 510)

/-- A received word corrected (R255): the codeword within eight symbols of it and the symbols corrected; none when there is none. -/
def rsCorrect (c : List Nat) : Option (List Nat × List Nat) :=
  if c.length ≠ 272 ∨ c.any (fun x => decide (512 ≤ x)) then none
  else if rsParity (c.take 256) = c.drop 256 then some (c, [])
  else
    let syn := syndromes c
    let l := locator syn
    let at' := (List.range 272).filter (fun k => gfEval l.cur (gfPow 2 (240 + k)) == 0)
    if 8 < l.len ∨ at'.length ≠ l.len then none
    else
      let fixed := c.zipIdx.map (fun x => if at'.contains x.2 then x.1 ^^^ errorAt syn l.cur x.2 else x.1)
      if rsParity (fixed.take 256) = fixed.drop 256 then some (fixed, at') else none

/-! ## Lanes (R253, R254) -/

/-- The bits of a symbol, bit 0 first. -/
def symbolBits (x : Nat) : List Bool := (List.range 9).map (fun i => bitOf x i)

/-- The bits that the `i`-th of `w` active lanes sends of a codeword: its symbols in ascending order. -/
def laneStream (w i : Nat) (c : List Nat) : List Bool :=
  (c.zipIdx.filter (fun x => x.2 % w == i)).flatMap (fun x => symbolBits x.1)

/-- The symbols of a codeword from the bits of its lanes. -/
def laneSymbols (lanes : List (List Bool)) : List Nat :=
  (List.range 272).map (fun k =>
    let bits := ((lanes.getD (k % max 1 lanes.length) []).drop (9 * (k / max 1 lanes.length))).take 9
    bits.foldr (fun b r => ofBool b + 2 * r) 0)

/-- The scrambler x^58 + x^39 + 1: each bit leaves added to the coded bits 39 and 58 places before it.  `h` holds the last 58 coded
bits, the last in bit 0. -/
def scramble : Nat → List Bool → List Bool × Nat
  | h, [] => ([], h)
  | h, x :: xs =>
    let y := (x != bitOf h 38) != bitOf h 57
    let r := scramble ((2 * h + ofBool y) % 2 ^ 58) xs
    (y :: r.1, r.2)

/-- The descrambler. -/
def descramble : Nat → List Bool → List Bool × Nat
  | h, [] => ([], h)
  | h, y :: ys =>
    let r := descramble ((2 * h + ofBool y) % 2 ^ 58) ys
    (((y != bitOf h 38) != bitOf h 57) :: r.1, r.2)

/-- The level of a pair of bits, the earlier first. -/
def pamLevel : Bool → Bool → Nat
  | false, false => 0
  | false, true => 1
  | true, true => 2
  | true, false => 3

/-- The levels of a stream of coded bits. -/
def pamLevels : List Bool → List Nat
  | a :: b :: r => pamLevel a b :: pamLevels r
  | _ => []

/-- The pair of bits of a level. -/
def pamBits (l : Nat) : List Bool :=
  match l with
  | 0 => [false, false]
  | 1 => [false, true]
  | 2 => [true, true]
  | _ => [true, false]

/-- What the active lanes send of a codeword, and the scrambler histories after it. -/
def sendLanes (hist : List Nat) (c : List Nat) : List (List Nat × Nat) :=
  hist.zipIdx.map (fun h =>
    let r := scramble h.1 (laneStream hist.length h.2 c)
    (pamLevels r.1, r.2))

/-- What the active lanes bring: the received word, and the descrambler histories after it. -/
def receiveLanes (hist : List Nat) (levels : List (List Nat)) : List Nat × List Nat :=
  let rs := hist.zipIdx.map (fun h => descramble h.1 ((levels.getD h.2 []).flatMap pamBits))
  (laneSymbols (rs.map (·.1)), rs.map (·.2))

end Sys2Proof.Machine
end

