-- ==== Sys2Proof/Machine/Link.lean ====
section
/-! DEFINITION. The Evkai ports: sending (R260 to R267, R294, R295), receiving (R255, R262, R274 to R283), retirement (R283 to
R286), re-deal and training (R268 to R272), LINK_DOWN and its spread (R272, R449, R556), forwarding (R293), fetches (R288 to
R290), and the route table (R301). -/

namespace Sys2Proof.Machine

/-! ## Numbers and times -/

/-- Whether sequence number `a` is at or behind `b` (R262, R263). -/
def seqLe (a b : Nat) : Bool := decide ((b + 65536 - a) % 65536 < 32768)

/-- The active lanes of a port, ascending. -/
def State.lanes (s : State) (port : Nat) : List Nat := (List.range 4).filter (fun l => bitOf (s.rd R.LNK_STATUS_LANES port) l)

/-- The lane rate of a RATE code [Gb/s] (R253, R298). -/
def rateOf (code : Nat) : Nat := match code with | 0 => 400 | 1 => 200 | _ => 100

/-- The flit time of a port in hundredths of a nanosecond (R254). -/
def State.flitTime (s : State) (port : Nat) : Nat := 230400 / (max 1 (s.lanes port).length * rateOf (s.rd R.LNK_STATUS_RATE port))

/-- LNK_NAK_HOLDOFF in hundredths of a nanosecond (R265). -/
def State.holdoff (s : State) (port : Nat) : Nat := 100 * s.rd R.LNK_RTT port + 64 * s.flitTime port

/-- Whether a port sends and receives flits: in ACTIVE, and in RESUME, where flits start (R269). -/
def State.flows (s : State) (port : Nat) : Bool :=
  s.linkLive && (s.rd R.LNK_STATUS_STATE port == 4 || s.rd R.LNK_STATUS_STATE port == 5)

/-- The number of the last sequenced flit accepted, L (R262). -/
def State.lastOf (s : State) (port : Nat) : Nat := s.rd R.LNK_SEQ_RX_LAST port

/-! ## Retirement (R283 to R286) -/

/-- RETIRED advanced over the flits at the front that have retired (R284). -/
def advanceRetired : List Accepted → Nat → List Accepted × Nat
  | [], r => ([], r)
  | a :: as, r => if a.done then advanceRetired as a.seq else (a :: as, r)

/-- A flit accepted on a port retires (R283). -/
def State.retire (s : State) (port seq : Nat) : State :=
  s.onPort port (fun p =>
    let acc := p.acc.map (fun a => if a.seq = seq then { a with done := true } else a)
    let r := advanceRetired acc p.retired
    { p with acc := r.1, retired := r.2 })

/-- The owner of a sent flit learns that it has been reported as applied (R285, R286). -/
def State.applied (s : State) (o : Owner) : State :=
  match o with
  | .lse part stamp =>
    s.onCore part (fun c =>
      let e := c.engine 5
      c.setEngine 5 { e with exec := e.exec.map (fun x => if x.stamp = stamp then { x with remote := x.remote - 1 } else x) })
  | .fwd port seq => s.retire port seq
  | .none => s

/-- A RETIRED value received (R285). -/
def State.reported (s : State) (port v : Nat) : State :=
  let p := s.port port
  let gone := p.sent.filter (fun x => seqLe x.1 v)
  let s1 := s.onPort port (fun p => { p with sent := p.sent.filter (fun x => !seqLe x.1 v), peerRet := v })
  gone.foldl (fun s x => s.applied x.2) s1

/-- A flit of the elastic buffer retires, when its retirement is still reported (R271). -/
def State.retireElastic (s : State) (port : Nat) (x : Elastic) : State := if x.live then s.retire port x.flit.seq else s

/-! ## Sending -/

/-- The beacon that leaves now (R306). -/
def State.beaconNow (s : State) : Beacon where
  stamp := s.time
  frac := s.timing.sub
  state := s.rd R.TIM_STATUS_STATE
  stratum := s.rd R.TIM_STATUS_STRATUM
  root := if s.rd R.TIM_STATUS_STATE = 0 ∨ s.rd R.TIM_STATUS_STATE = 4 then s.chipId else (s.port (s.rd R.TIM_STATUS_PORT)).rootChip
  arrived := 0

/-- A flit leaves a port, with ACK and NAK of the opposite direction in its header (R263), coded for the active lanes (R253, R254). -/
def State.putFlit (s : State) (port : Nat) (f : Flit) : State :=
  let bs := ({ f with ack := s.lastOf port, nak := s.on R.LNK_STATUS_NAK port } : Flit).encode
  let r := sendLanes (s.port port).txHist (codeword bs)
  ((s.emit (.flit port bs (r.map (·.1)))).onPort port (fun p => { p with txHist := r.map (·.2) })).tally (176 + port / 2) 10 1

/-- An unsequenced flit leaves: 0 IDLE, 6 TIME, 7 CTRL with a control code (R259, R260, R307). -/
def State.sendPlain (s : State) (port ty code arg : Nat) : State :=
  let f : Flit := { Flit.zero with
    ty := ty, ddown := ty == 0 && !s.dealerUp,
    payload := linkPayload (s.port port).retired code arg (if ty = 7 then none else some s.beaconNow) }
  (s.putFlit port f).onPort port (fun p => { p with quiet := 0, timeAt := if ty = 7 then p.timeAt else s.tick })

/-- A sequenced flit leaves for the first time: it takes the next number and a place in the replay buffer (R261, R264). -/
def State.sendNew (s : State) (port : Nat) (f : Flit) (o : Owner) : State :=
  let n := s.rd R.LNK_SEQ_TX_NEXT port
  let g := { f with seq := n }
  let s1 := (s.putFlit port g).wr R.LNK_SEQ_TX_NEXT ((n + 1) % 65536) port
  let s2 := s1.onPort port (fun p => { p with
    buffer := p.buffer ++ [⟨n, g, 0⟩], sent := p.sent ++ [(n, o)], quiet := p.quiet + 1,
    ackAt := if p.buffer.isEmpty then s.tick else p.ackAt })
  match o with
  | .fwd q m => s2.onPort q (fun p => { p with acc := p.acc.map (fun a => if a.seq = m then { a with via := some (port, n) } else a) })
  | _ => s2

/-- Whether a port may send a new sequenced flit (R264, R278, R286). -/
def Port.mayNew (p : Port) : Bool := decide (p.buffer.length < 1024) && decide (p.sent.length < 4096) && p.pause.isNone

/-- The flow that the slot wheel sends from, slot `w` first (R295): the flow of `w` when it has a flit, else the first ready flow
of the slots after it, else the first flow without a slot that is ready (R335: it waits for follow suit alone). -/
def State.wheelFlow (s : State) (port : Nat) (w : Nat) : Option Nat :=
  let slots := ((List.range 64).map (fun i => (w + i) % 64)).filter (fun i => s.on R.LNK_WHEEL_VALID port i)
  (slots.map (fun i => s.rd R.LNK_WHEEL_FLOW port i) ++ (s.port port).flows.map (·.1)).find? (fun f => !((s.port port).flow f).isEmpty)

/-- The interval of R307 in ticks. -/
def State.beaconEvery (s : State) : Nat := 100 * (if s.rd R.TIM_CFG_INTERVAL = 0 then 0x0A else s.rd R.TIM_CFG_INTERVAL)

/-- What the slot wheel sends: the wheel moves on, and nothing new leaves while no sequenced flit may (R264, R295). -/
def State.sendWheel (s : State) (port : Nat) : State :=
  let p := s.port port
  let s1 := s.onPort port (fun p => { p with wheel := (p.wheel + 1) % 64 })
  match if p.mayNew then s.wheelFlow port p.wheel else none with
  | some fl =>
    match p.flow fl with
    | (f, o) :: fs => (s1.onPort port (fun p => { p with flows := SMap.set [] p.flows fl fs })).sendNew port f o
    | [] => s1.sendPlain port 0 0 0
  | none => s1.sendPlain port 0 0 0

/-- What a port sends in one flit time (R294): replay, due unsequenced flit, TRICK flit, slot wheel, IDLE.  The unsequenced flit that R260
requires in 1,024 flit times leaves even during a replay (DEDUCED, log entry 98). -/
def State.sendFlit (s : State) (port : Nat) : State :=
  let p := s.port port
  let rest := ((p.replay.map (·.rest)).getD []).filter (fun n => p.buffer.any (fun b => b.seq == n))
  match (if p.pause.isNone ∧ p.quiet < 1023 then rest.head? else none).bind (fun n => p.buffer.find? (fun b => b.seq == n)) with
  | some b =>
    (s.putFlit port b.flit).onPort port (fun p => { p with
      quiet := p.quiet + 1, replay := p.replay.map (fun r => { r with rest := rest.drop 1 }) })
  | none =>
    match p.due with
    | (code, arg) :: ds => (s.sendPlain port 7 code arg).onPort port (fun p => { p with due := ds })
    | [] =>
      if s.rd R.LNK_STATUS_STATE port = 5 ∧ s.beaconEvery ≤ s.tick - p.timeAt then s.sendPlain port 6 0 0
      else if 1023 ≤ p.quiet then s.sendPlain port 0 0 0
      else
        match if p.mayNew then p.tricks else [] with
        | f :: fs => (s.onPort port (fun p => { p with tricks := fs })).sendNew port f .none
        | [] => s.sendWheel port

/-- FLIT_TIME_SEND (R294). -/
def execFlitTimeSend (port : Fin 16) (s : State) : Host.Outcome State Fault Refusal :=
  .next (if s.flows port then s.sendFlit port else s)

/-! ## LINK_DOWN (R272, R556) -/

/-- Whether a port holds an accepted flit, not retired, that waits on an output port: sent there and not reported, in a flow
there, or in the elastic buffer for it (R556). -/
def State.stuckOn (s : State) (q port : Nat) : Bool :=
  let p := s.port q
  p.acc.any (fun a => !a.done && (a.via.map (·.1)) == some port) ||
  p.elastic.any (fun x => x.forward && (s.route x.flit.route).port == port) ||
  (s.port port).flows.any (fun e => e.2.any (fun x => match x.2 with | .fwd r _ => r == q | _ => false))

/-- LINK_DOWN declared at a port: DOWN with the fresh bit, event, journal entry and weight; every port that holds a flit waiting
on it follows with CAUSE 7; then the dealings of R272 and R449 are aborted. -/
def State.linkDown : Nat → State → Nat → State
  | 0, s, _ => s
  | n + 1, s, port =>
    if s.rd R.LNK_STATUS_STATE port = 6 then s
    else
      let s1 := (s.wr R.LNK_STATUS_STATE 6 port).onPort port (fun p => { p with
        down := true, fresh := true, redeal := false, train := false, replay := none, pause := none })
      let s2 := s1.raiseEvt .lnk port 0 0x0701
      let s3 := if s2.dealerUp then (s2.journal (JrnEntry.atPort s2 0x0701 1 port)).addScore (200 + port) 4096 else s2
      let s4 := (List.range 16).foldl (fun s q =>
        if q ≠ port ∧ s.stuckOn q port then
          (((s.wr R.LNK_REDEAL_INFO_CAUSE 7 q).wr R.LNK_REDEAL_INFO_FAILED 0 q).wr R.LNK_REDEAL_INFO_SEQ 0 q).linkDown n q
        else s) s3
      if s4.dealerUp then s4.loseLink port else s4

/-! ## Replay and re-deal (R265 to R268, R272) -/

/-- The training of a re-deal begins in QUIET (R269). -/
def State.retrain (s : State) (port : Nat) : State :=
  (s.wr R.LNK_STATUS_STATE 0 port).onPort port (fun p => { p with
    redeal := true, train := true, since := s.tick, heard := false, beacon := none, replay := none, pause := none, due := [],
    maxRate := s.rd R.LNK_CFG_MAX_RATE port, laneMask := s.rd R.LNK_CFG_LANE_MASK port })

/-- A re-deal starts (R268): REDEAL_REQ leaves first unless the peer's training pattern or the host caused it; too soon after
the second-previous one the port declares LINK_DOWN instead (R272). -/
def State.startRedeal (s : State) (port cause seq : Nat) : State :=
  if !s.flows port then s
  else
    let s1 := if cause ≤ 3 then s.sendPlain port 7 2 0 else s
    let s2 := (((s1.bump R.LNK_CNT_REDEAL port).wr R.LNK_REDEAL_INFO_CAUSE cause port).wr R.LNK_REDEAL_INFO_FAILED 0 port).wr
      R.LNK_REDEAL_INFO_SEQ seq port
    let s3 := s2.onPort port (fun p => { p with starts := (s.tick :: p.starts).take 2 })
    match (s.port port).starts[1]? with
    | some t => if s.tick - t < 100000000 then s3.linkDown 16 port else s3.retrain port
    | none => s3.retrain port

/-- A replay from `v` (R265, R267): every buffered flit after `v`; a counted one counts its first flit, and the ninth of one flit
re-deals instead. -/
def State.startReplay (s : State) (port v : Nat) (counted : Bool) : State :=
  let fs := (s.port port).buffer.filter (fun b => !seqLe b.seq v)
  match fs with
  | [] => s
  | b :: _ =>
    if counted && decide (8 ≤ b.count) then
      (s.raiseEvt .lnk port 1 0x0702).startRedeal port 1 b.seq
    else
      let s1 := s.onPort port (fun p => { p with
        replay := some ⟨v, fs.map (·.seq), s.tick⟩,
        buffer := if counted then p.buffer.map (fun x => if x.seq = b.seq then { x with count := x.count + 1 } else x) else p.buffer })
      if counted then s1.bump R.LNK_CNT_REPLAY port else s1

/-- ACK_TIMEOUT (R266): the timer runs from the last advance of ACK, the first flit buffered, or the replay it last started
(DEDUCED, log entry 23). -/
def execAckTimeout (port : Fin 16) (s : State) : Host.Outcome State Fault Refusal :=
  let p := s.port port
  let lim := 100 * (if s.rd R.LNK_CFG_ACK_TIMEOUT port = 0 then 0x1E else s.rd R.LNK_CFG_ACK_TIMEOUT port)
  .next (if s.flows port && !p.buffer.isEmpty && p.pause.isNone then
      let s1 := s.waitUntil (p.ackAt + lim)
      (s1.onPort port (fun p => { p with ackAt := s1.tick })).startReplay port p.lastAck true
    else s)

/-- LNK_CFG.OVR_BACKOFF in ticks (R278, R298). -/
def State.backOffTicks (s : State) (port : Nat) : Nat :=
  let b := if s.rd R.LNK_CFG_OVR_BACKOFF port = 0 then 0x20 else s.rd R.LNK_CFG_OVR_BACKOFF port
  (8 * b * s.flitTime port + 99) / 100

/-- A pause after an overrun (R278): LNK_CFG.OVR_BACKOFF, then a replay from `v`. -/
def State.backOff (s : State) (port v : Nat) : State :=
  if s.flows port then s.onPort port (fun p => { p with pause := some (s.tick, v), replay := none }) else s

/-- OVERRUN_RECEIVE (R278). -/
def execOverrunReceive (port : Fin 16) (last : Fin 65536) (s : State) : Host.Outcome State Fault Refusal := .next (s.backOff port last)

/-- OVERRUN_BACKOFF_EXPIRE (R278): the replay is not counted. -/
def execOverrunBackoffExpire (port : Fin 16) (s : State) : Host.Outcome State Fault Refusal :=
  .next (match (s.port port).pause with
    | some (u, v) =>
      if s.flows port then ((s.waitUntil (u + s.backOffTicks port)).onPort port (fun p => { p with pause := none })).startReplay port v false else s
    | none => s)

/-- REDEAL_REQ (R268). -/
def execRedealReq (port : Fin 16) (s : State) : Host.Outcome State Fault Refusal := .next (s.startRedeal port 3 0)

/-- LINK_SIGNAL_LOSS (R268): on an active lane. -/
def execLinkSignalLoss (port : Fin 16) (lane : Fin 4) (s : State) : Host.Outcome State Fault Refusal :=
  .next (if (s.lanes port).contains lane then s.startRedeal port 2 0 else s)

/-- PEER_TRAINING_SEEN (R268); a port in DOWN ignores it (R272). -/
def execPeerTrainingSeen (port : Fin 16) (s : State) : Host.Outcome State Fault Refusal := .next (s.startRedeal port 4 0)

/-- LNK_REDEAL (R268). -/
def execLnkRedeal (port : Fin 16) (s : State) : Host.Outcome State Fault Refusal :=
  .next (s.hostCmd .lnk port (fun s => if s.portAbsent port then s else s.startRedeal port 5 0))

/-! ## Training (R269 to R271) -/

/-- A training begun in QUIET (R269, R272). -/
def State.startTraining (s : State) (port : Nat) : State :=
  (s.wr R.LNK_STATUS_STATE 0 port).onPort port (fun p => { p with
    redeal := false, train := true, since := s.tick, heard := false, beacon := none, due := [],
    maxRate := s.rd R.LNK_CFG_MAX_RATE port, laneMask := s.rd R.LNK_CFG_LANE_MASK port })

/-- LNK_TRAIN (R272, R298): from QUIET or DOWN. -/
def execLnkTrain (port : Fin 16) (s : State) : Host.Outcome State Fault Refusal :=
  .next (s.hostCmd .lnk port (fun s =>
    if !s.portAbsent port && (s.rd R.LNK_STATUS_STATE port == 0 || s.rd R.LNK_STATUS_STATE port == 6) then s.startTraining port else s))

/-- A training that fails (R269, R272): a re-deal declares LINK_DOWN; another is recorded and starts again. -/
def State.trainFail (s : State) (port : Nat) : State :=
  if (s.port port).redeal then (s.wr R.LNK_REDEAL_INFO_FAILED 1 port).linkDown 16 port
  else (((s.wr R.LNK_REDEAL_INFO_CAUSE 6 port).wr R.LNK_REDEAL_INFO_FAILED 1 port).wr R.LNK_REDEAL_INFO_SEQ 0 port).startTraining port

/-- The next state of a training entered. -/
def State.trainTo (s : State) (port st : Nat) : State := (s.wr R.LNK_STATUS_STATE st port).onPort port (fun p => { p with since := s.tick })

/-- The usable width for a number of passing lanes (R270). -/
def widthOf (n : Nat) : Nat := if 4 ≤ n then 4 else if 2 ≤ n then 2 else n

/-- The rates tested, from `code` downward, with the passing lanes of each; the test stops after a rate that gives width 4 (R270). -/
def tested (pass : Nat → List Nat) : List Nat → List (Nat × List Nat)
  | [] => []
  | c :: cs => (c, pass c) :: (if 4 ≤ (pass c).length then [] else tested pass cs)

/-- The rate code and lanes chosen (R270): the highest product of width and rate, the lower rate of two equal ones; the active
lanes are the lowest-numbered passing ones.  Where lanes pass at a higher rate and none at 100 Gb/s, which R269 lets fail a training and R270 not,
the higher rate is taken (DESIGN CHOICE, log entry 131). -/
def chooseLanes (pass : Nat → List Nat) (first : Nat) : Option (Nat × List Nat) :=
  let cands := ((tested pass ((List.range 3).drop first)).filter (fun x => !x.2.isEmpty))
  cands.foldl (fun best x =>
    match best with
    | none => some x
    | some b => if widthOf b.2.length * rateOf b.1 ≤ widthOf x.2.length * rateOf x.1 then some x else best) none
  |>.map (fun x => (x.1, x.2.take (widthOf x.2.length)))

/-- The lanes of a mask, as a register field. -/
def laneBits (ls : List Nat) : Nat := (ls.map (fun l => 2 ^ l)).sum

/-- The lanes that pass at a rate code (R270): this end counts at most LNK_TRAIN_MAX_ERR errors and the peer lists the lane as passing,
among those that LANE_MASK lets take part.  A lane without a count fails. -/
def State.passing (s : State) (port : Nat) (r : TrainReport) (c : Nat) : List Nat :=
  let mask := if (s.port port).laneMask = 0 then 0xF else (s.port port).laneMask
  let v := (match c with | 0 => r.pass400 | 1 => r.pass200 | _ => r.pass100).toNat
  (List.range 4).filter (fun l => bitOf v l && bitOf mask l &&
    ((r.errors[4 * c + l]?).map (fun e => decide (e ≤ s.rd R.LNK_TRAIN_MAX_ERR port))).getD false)

/-- The equaliser seeds of a port after its adaptation, which section LINK can store: of no form that the spec gives, a free value (R269, R518;
DESIGN CHOICE, log entry 123). -/
def State.adapted (s : State) (port : Nat) : State :=
  { s with free := s.free + 1, life := { s.life with seeds := SMap.set 0 s.life.seeds port (Config.freeNat s.free) } }

/-- EQUALIZE completes (R270). -/
def State.equalized (s : State) (port : Nat) (r : TrainReport) : State :=
  let first := if (s.port port).maxRate = 3 then 0 else (s.port port).maxRate
  match chooseLanes (s.passing port r) first with
  | none => s.trainFail port
  | some (code, ls) => (((s.adapted port).wr R.LNK_STATUS_RATE code port).wr R.LNK_STATUS_LANES (laneBits ls) port).trainTo port 3

/-- A fresh start (R271): replay buffer and retirement state discarded, sequences from the beginning; flits still in the elastic
buffer are delivered, and report nothing. -/
def State.freshStart (s : State) (port : Nat) : State :=
  let mine (o : Owner) : Owner := match o with | .fwd q m => if q = port then .none else .fwd q m | x => x
  let s1 := (List.range 16).foldl (fun s q => s.onPort q (fun p => { p with
    sent := p.sent.map (fun x => (x.1, mine x.2)), flows := p.flows.map (fun e => (e.1, e.2.map (fun x => (x.1, mine x.2)))) })) s
  (((s1.wr R.LNK_SEQ_TX_NEXT 0 port).wr R.LNK_SEQ_RX_LAST 0xFFFF port).wr R.LNK_STATUS_NAK 0 port).onPort port (fun p => { p with
    fresh := false, buffer := [], sent := [], peerRet := 0xFFFF, acc := [], retired := 0xFFFF, replay := none, pause := none,
    ackAt := s.tick, lastAck := 0xFFFF, elastic := p.elastic.map (fun x => { x with live := false }) })

/-- Flits released from the replay buffer up to an acknowledged number (R263). -/
def State.release' (s : State) (port v : Nat) : State :=
  s.onPort port (fun p => { p with
    buffer := p.buffer.filter (fun b => !seqLe b.seq v),
    ackAt := if v ≠ p.lastAck ∧ seqLe p.lastAck v then s.tick else p.ackAt,
    lastAck := if seqLe p.lastAck v then v else p.lastAck })

/-- CONFIG completes (R269, R271). -/
def State.configured (s : State) (port : Nat) (r : TrainReport) : State :=
  if (s.port port).redeal ∧ (s.rd R.LNK_PEER_CHIP_ID port ≠ r.chip.toNat ∨ s.rd R.LNK_PEER_PORT port ≠ r.port.toNat) then s.trainFail port
  else
    let n := (s.lanes port).length
    let s1 := ((((s.wr R.LNK_PEER_CHIP_ID r.chip.toNat port).wr R.LNK_PEER_PORT r.port.toNat port).wr R.LNK_PEER_VALID 1 port).wr
      R.LNK_RTT (r.rtt.toNat / 16) port).onPort port (fun p => { p with
        rtt16 := r.rtt.toNat, heard := false,
        txHist := (List.range n).map (fun i => (r.sent.getD i 0#58).toNat), rxHist := (List.range n).map (fun i => (r.got.getD i 0#58).toNat) })
    let s2 := if (s.port port).fresh || r.fresh then s1.freshStart port
      else (((s1.release' port r.last.toNat).reported port r.retired.toNat).startReplay port r.last.toNat false)
    s2.trainTo port 4

/-- TRAINING_STATE_DONE (R269). -/
def State.trainDone (s : State) (port : Nat) (r : TrainReport) : State :=
  let p := s.port port
  if !s.linkLive || s.portAbsent port || !p.train then s
  else
    match s.rd R.LNK_STATUS_STATE port with
    | 0 => (s.waitUntil (p.since + 2000)).trainTo port 1
    | 1 => if r.found then s.trainTo port 2 else s
    | 2 => s.equalized port r
    | 3 => s.configured port r
    | 4 => if !p.heard || !r.heard then s else ((s.trainTo port 5).onPort port (fun p => { p with down := false, redeal := false, ackAt := s.tick, beaconAt := s.tick })).stages
    | _ => s

/-- TRAINING_STATE_DONE (R269). -/
def execTrainingStateDone (port : Fin 16) (report : TrainReport) (s : State) : Host.Outcome State Fault Refusal :=
  .next (s.trainDone port report)

/-- The timer of a training state in ticks (R269); DETECT has none in a training that is no re-deal. -/
def trainLimit (state : Nat) (redeal : Bool) : Option Nat :=
  match state with
  | 1 => if redeal then some 10000000 else none
  | 2 => some 25000000
  | 3 | 4 => some 100000
  | _ => none

/-- TRAINING_TIMEOUT (R269). -/
def execTrainingTimeout (port : Fin 16) (s : State) : Host.Outcome State Fault Refusal :=
  .next (match trainLimit (s.rd R.LNK_STATUS_STATE port) (s.port port).redeal with
    | some t => if s.linkLive && (s.port port).train then (s.waitUntil ((s.port port).since + t)).trainFail port else s
    | none => s)

/-! ## Checks of the receive path (R274 to R276) -/

/-- What the checks find: the flit goes on, with its scratchpad address; it waits for the next hand tag; it is stale; it is
refused with a REASON of R281. -/
inductive Verdict where
  | pass (addr : Nat)
  | wait
  | stale
  | refuse (reason : Nat)
  deriving DecidableEq, Repr

/-- The hand-tag check of a core (R276), then `more`. -/
def Core.tagCheck (c : Core) (tag : Nat) (more : Verdict) : Verdict :=
  match (tag + 65536 - c.tag) % 65536 with
  | 0 => if c.member.isSome && c.trick != .aborting && c.trick != .abortDone then more else .stale
  | 1 => .wait
  | _ => .stale

/-- The window check of a flit (R275, R281). -/
def Core.windowCheck (c : Core) (f : Flit) : Verdict :=
  let w := c.window f.window
  let fetch := f.ty == 4
  let last := if fetch then f.offset + 64 * fieldAt f.payload 0 2 else f.offset + 4
  if !w.ever then .refuse 1
  else if !w.isOpen then .refuse 0
  else if !(if fetch then w.fetch else w.write) then .refuse 2
  else if 64 * w.tiles < last then .refuse 3
  else .pass (w.base + 64 * f.offset)

/-- The checks of a flit on a deliver entry (R274): the window as well as the tag where the kind and type ask for it. -/
def State.verdict (s : State) (f : Flit) : Verdict :=
  let r := s.route f.route
  match s.partOf r.core with
  | some p =>
    let c := s.core p
    c.tagCheck f.tag (if r.kind = 2 ∧ f.ty ≠ 3 then c.windowCheck f else .pass 0)
  | none => .refuse 4

/-- Whether a flit is a misroute (R274). -/
def State.misroute (s : State) (f : Flit) : Bool :=
  let r := s.route f.route
  match r.kind with
  | 1 => s.portAbsent r.port
  | 2 => r.chip != s.chipId || !s.hasLogical r.core || f.ty == 5
  | 3 => r.chip != s.chipId || !s.hasLogical r.core || (f.ty != 1 && f.ty != 2)
  | _ => true

/-! ## Refused flits (R209, R281, R282) -/

/-- The seal of a tile written in part by link receive (R206, R209). -/
def State.partSeal (s : State) (part addr : Nat) : State :=
  s.portSeal part (addr / 4096 * 4096) (unsealed (sealPoison ((s.core part).sealAt addr)))

/-- Whether a tile record is that of a flit. -/
def RxTile.of (t : RxTile) (core : Nat) (f : Flit) : Bool :=
  t.core == core && t.window == f.window && t.tile == f.offset / 64 && t.tag == f.tag

/-- The record of a flit's tile. -/
def Port.tileOf (p : Port) (core : Nat) (f : Flit) : RxTile :=
  (p.tiles.find? (fun t => t.of core f)).getD ⟨core, f.window, f.offset / 64, f.tag, none, false⟩

/-- The record replaced, or dropped once the tile has ended. -/
def Port.setTile (p : Port) (core : Nat) (f : Flit) (t : Option RxTile) : Port :=
  { p with tiles := p.tiles.filter (fun x => !x.of core f) ++ t.toList }

/-- The tile of a flit in its window, opened in this dealing and reaching that far. -/
def Core.tileAddr (c : Core) (f : Flit) : Option Nat :=
  let w := c.window f.window
  if w.ever && decide (f.offset + 4 ≤ 64 * w.tiles) then some ((w.base + 64 * f.offset) / 4096 * 4096) else none

/-- A DATA or DATA_LAST flit of a window refused (R209): its tile is one written in part, at once, or with the last of its flits still in
the elastic buffer, which are marked.  A flit of no window of the dealing, or beyond the window's end, has no tile (DEDUCED, log
entry 100). -/
def State.refuseTile (s : State) (port : Nat) (f : Flit) : State :=
  let r := s.route f.route
  if r.kind ≠ 2 ∨ (f.ty ≠ 1 ∧ f.ty ≠ 2) then s
  else
    let t := (s.port port).tileOf r.core f
    let same (x : Elastic) : Bool := !x.forward && x.checked && x.flit.route == f.route && t.of r.core x.flit
    let waiting := (s.port port).elastic.any same
    let s1 := match s.partOf r.core with
      | some part =>
        match t.addr <|> (s.core part).tileAddr f with
        | some a => if waiting then s else s.partSeal part a
        | none => s
      | none => s
    s1.onPort port (fun p => ({ p with elastic := p.elastic.map (fun x => if same x then { x with broken := true } else x) }).setTile
      r.core f (if f.ty = 2 then none else some { t with refused := true }))

/-- A flit kept in the discard bin when it has room (R282). -/
def State.binPut (s : State) (port : Nat) (raw : List Byte) : State :=
  let b := (s.port port).bin
  if b.length < 56 then
    (s.onPort port (fun p => { p with bin := p.bin ++ [raw] })).wr R.LNK_BIN_STATUS_COUNT (b.length + 1) port
  else s.wr R.LNK_BIN_STATUS_FULL 1 port

/-- The record of the first refused flit since EVT_STATUS bits 3 and 2 were last clear (R299). -/
def State.discardInfo (s : State) (port : Nat) (f : Flit) (core reason : Nat) : State :=
  s.record1 R.LNK_DISCARD_INFO_VALID port (fun s =>
    ((s.wr R.LNK_DISCARD_INFO_CORE core port).wr R.LNK_DISCARD_INFO_WINDOW f.window port).wr R.LNK_DISCARD_INFO_REASON reason port)

/-- A window fault of a core, at most once in each dealing (R281). -/
def State.windowFault (s : State) (core code : Nat) : State :=
  match s.partOf core with
  | some p =>
    if (s.core p).winFault then s
    else (s.coreFault p code 0 0xFFFFFFFF 0 []).onCore p (fun c => { c with winFault := true })
  | none => s

/-- A flit refused under R274 or R275 (R281). -/
def State.refuseFlit (s : State) (port : Nat) (f : Flit) (raw : List Byte) (reason : Nat) : State :=
  let r := s.route f.route
  let s1 := ((s.discardInfo port f (if reason = 4 then 0xFF else r.core) reason).binPut port raw).bump R.LNK_CNT_DISCARD port
  let s2 := if reason = 0 then s1.raiseEvt .lnk port 2 0x0402 else s1.raiseEvt .lnk port 3 0x0403
  let s3 := if reason = 4 then s2 else s2.refuseTile port f
  if reason = 0 then s3.windowFault r.core 0x0402
  else if reason < 4 then s3.windowFault r.core 0x0403
  else s3

/-- A stale flit (R276): counted, binned, and silent; a tile of the dealing being aborted is one written in part (R209). -/
def State.staleFlit (s : State) (port : Nat) (f : Flit) (raw : List Byte) : State :=
  let s1 := (s.binPut port raw).bump R.LNK_CNT_STALE port
  match s.partOf (s.route f.route).core with
  | some p => if (s.core p).tag = f.tag ∧ (s.core p).member.isSome then s1.refuseTile port f else s1
  | none => s1

/-! ## Receiving (R255, R262, R263, R265, R274) -/

/-- A flit that passed enters the elastic buffer with the state of its tile (R209). -/
def State.enqueue (s : State) (port : Nat) (f : Flit) (raw : List Byte) (forward : Bool) (checked : Option Nat) : State :=
  let r := s.route f.route
  let t := (s.port port).tileOf r.core f
  let data := !forward && r.kind == 2 && (f.ty == 1 || f.ty == 2) && checked.isSome
  let x : Elastic := ⟨f, raw, forward, checked.isSome, false, checked.getD 0, data && t.refused, true⟩
  s.onPort port (fun p =>
    let p1 := { p with elastic := p.elastic ++ [x], headAt := if p.elastic.all (·.forward) then s.tick else p.headAt }
    if data then
      p1.setTile r.core f (if f.ty = 2 then none else some { t with addr := some (checked.getD 0 / 4096 * 4096) })
    else p1)

/-- Where an accepted flit goes (R274, R293, R317, R346); `none` when the elastic buffer has no room for it (R278). -/
def State.place (s : State) (port : Nat) (f : Flit) (raw : List Byte) : Option State :=
  let full := decide (256 ≤ (s.port port).elastic.length)
  let done (t : State) : Option State := some (t.retire port f.seq)
  let room (checked : Option Nat) (forward : Bool) : Option State :=
    if full then none else some (s.enqueue port f raw forward checked)
  if f.ty = 5 then
    let t := TrickFlit.of f.payload
    if !s.dealerUp then done s
    else if t.kind = 0 ∨ 7 < t.kind then done (s.bump R.TRK_CNT_BAD)
    else done { s with trickIn := s.trickIn ++ [(port, t)] }
  else if f.ty = 2 ∧ f.partner then
    let t := PartnerFlit.of f.payload
    if !s.dealerUp then done s
    else if t.kind = 0 ∨ 3 < t.kind then done (s.bump R.XPK_CNT_BAD)
    else done { s with partnerIn := s.partnerIn ++ [t] }
  else if s.misroute f then done (s.refuseFlit port f raw 4)
  else if (s.route f.route).kind = 1 then
    (room none true).map (fun t => if t.rd R.LNK_STATUS_STATE (s.route f.route).port = 6 then
        (((t.wr R.LNK_REDEAL_INFO_CAUSE 7 port).wr R.LNK_REDEAL_INFO_FAILED 0 port).wr R.LNK_REDEAL_INFO_SEQ 0 port).linkDown 16 port
      else t)
  else if (s.port port).elastic.any (fun x => !x.forward && !x.checked) then room none false
  else
    match s.verdict f with
    | .pass a => room (some a) false
    | .wait => room none false
    | .stale => done (s.staleFlit port f raw)
    | .refuse k => done (s.refuseFlit port f raw k)

/-- A sequenced flit that decodes (R262, R278). -/
def State.accept (s : State) (port : Nat) (f : Flit) (raw : List Byte) : State :=
  let l := s.lastOf port
  match (f.seq + 65536 - l) % 65536 with
  | 1 =>
    match (s.onPort port (fun p => { p with acc := p.acc ++ [⟨f.seq, false, none⟩] })).place port f raw with
    | some t =>
      -- L and N as of the acceptance; a LINK_DOWN that it set off leaves them as they are
      (t.wr R.LNK_SEQ_RX_LAST f.seq port).wr R.LNK_STATUS_NAK 0 port
    | none =>
      ((s.wr R.LNK_STATUS_NAK 1 port).bump R.LNK_CNT_OVERRUN port).onPort port (fun p => { p with due := p.due ++ [(1, l)] })
  | d => if d ≤ 32767 then s.wr R.LNK_STATUS_NAK 1 port else s

/-- The header of a flit that decodes (R263, R265): ACK releases, NAK starts a replay unless the holdoff of one from the same
number runs. -/
def State.header (s : State) (port : Nat) (f : Flit) : State :=
  let s1 := s.release' port f.ack
  let held := match (s1.port port).replay with
    | some r => r.from' == f.ack && decide (100 * (s.tick - r.at') < s.holdoff port)
    | none => false
  if f.nak && !held && (s1.port port).pause.isNone then s1.startReplay port f.ack true else s1

/-- A beacon of the followed port waits to be used (R308). -/
def State.noteBeacon (s : State) (port : Nat) (b : Beacon) : State :=
  if s.follows && s.rd R.TIM_STATUS_PORT == port then { s with timing := { s.timing with beacons := s.timing.beacons ++ [(port, b)] } } else s

/-- An unsequenced flit (R259, R260, R284, R308): RETIRED, the DDOWN bit of IDLE, the beacon with TABLE_TIME at the arrival of the flit's
first symbol, `ago` sixteenths of a nanosecond before, the control code. -/
def State.plain (s : State) (port ago : Nat) (f : Flit) : State :=
  let s1 := s.reported port (fieldAt f.payload 0 2)
  match f.ty with
  | 7 =>
    match fieldAt f.payload 2 2 with
    | 1 => s1.backOff port (fieldAt f.payload 4 2)
    | 2 => s1.startRedeal port 3 0
    | _ => s1
  | ty =>
    let b := Beacon.of f.payload ((16 * s.time + s.timing.sub : Nat) - (ago : Int))
    let s2 := (s1.onPort port (fun p => { p with
      beacon := some b, beaconAt := s.tick, stratum := b.stratum, peerTime := b.state, rootChip := b.root })).noteBeacon port b
    if ty = 0 then
      let rose := f.ddown && !s.on R.LNK_STATUS_PEER_DDOWN port
      let s3 := s2.wr R.LNK_STATUS_PEER_DDOWN (ofBool f.ddown) port
      if rose && s3.dealerUp then s3.loseTree port 0x0B01 else s3
    else s2

/-- The lane that carries a symbol (R254). -/
def State.laneOf (s : State) (port k : Nat) : Nat := (s.lanes port).getD (k % max 1 (s.lanes port).length) 0

/-- A flit that decodes (R262, R263): an OVERRUN begins its pause before its own NAK could start a replay (R278). -/
def State.decoded (s : State) (port ago : Nat) (f : Flit) (bs : List Byte) : State :=
  let s1 := s.onPort port (fun p => { p with heard := true })
  if f.sequenced then (s1.accept port f bs).header port f
  else if f.ty = 7 ∧ fieldAt f.payload 2 2 = 1 then (s1.plain port ago f).header port f
  else (s1.header port f).plain port ago f

/-- The levels that the active lanes bring for one flit (R253 to R255, R262): descrambled, corrected and checked. -/
def State.receive (s : State) (port : Nat) (levels : List (List Nat)) (ago : Nat) : State :=
  let r := receiveLanes (s.port port).rxHist levels
  let s0 := (s.onPort port (fun p => { p with rxHist := r.2 })).tally (176 + port / 2) 10 1
  match rsCorrect r.1 with
  | some (c, fixed) =>
    let s1 := fixed.foldl (fun s k => s.bump R.LNK_LANE_CORR port (s.laneOf port k)) (s0.bumpBy R.LNK_CNT_FEC_CORR fixed.length port)
    let bs := symbolBytes c
    match Flit.decode bs with
    | some f => s1.decoded port ago f bs
    | none => (s1.bump R.LNK_CNT_CRC port).wr R.LNK_STATUS_NAK 1 port
  | none => (s0.bump R.LNK_CNT_FEC_UNCORR port).wr R.LNK_STATUS_NAK 1 port

/-- FLIT_RECEIVE (R262); `ago`: sixteenths of a nanosecond since the first symbol arrived (R308). -/
def execFlitReceive (port : Fin 16) (levels : List (List Nat)) (ago : Nat) (s : State) : Host.Outcome State Fault Refusal :=
  .next (if s.flows port then s.receive port levels ago else s)

/-! ## The elastic buffer (R276, R277, R289, R290) -/

/-- The first entry for delivery, its position, and its check made now if it waited for one. -/
def State.elasticHead (s : State) (port : Nat) : Option (Nat × Elastic) :=
  let l := (s.port port).elastic
  (l.findIdx? (fun x => !x.forward)).bind (fun i => (l[i]?).map (fun x => (i, x)))

/-- An entry taken out; the next head begins its wait. -/
def State.dropElastic (s : State) (port i : Nat) : State :=
  s.onPort port (fun p => { p with elastic := p.elastic.eraseIdx i, headAt := s.tick })

/-- An entry replaced. -/
def State.setElastic (s : State) (port i : Nat) (x : Elastic) : State :=
  s.onPort port (fun p => { p with elastic := p.elastic.set i x })

/-- The head for delivery once its checks have passed: `go` with it; a head that waited and is now stale or refused is taken out;
one that still waits stays (R276). -/
def State.withHead (s : State) (port : Nat) (go : State → Nat → Elastic → State) : State :=
  if !s.linkLive then s
  else
    match s.elasticHead port with
    | none => s
    | some (i, x) =>
      if x.checked then go s i x
      else
        match s.verdict x.flit with
        | .pass a =>
          let r := s.route x.flit.route
          let t := (s.port port).tileOf r.core x.flit
          let data := r.kind == 2 && (x.flit.ty == 1 || x.flit.ty == 2)
          let y := { x with checked := true, addr := a, broken := data && t.refused }
          let s1 := (s.setElastic port i y).onPort port (fun p => if data then
              p.setTile r.core x.flit (if x.flit.ty = 2 then none else some { t with addr := some (a / 4096 * 4096) }) else p)
          go s1 i y
        | .wait => s
        | .stale => ((s.dropElastic port i).staleFlit port x.flit x.raw).retireElastic port x
        | .refuse k => ((s.dropElastic port i).refuseFlit port x.flit x.raw k).retireElastic port x

/-- A collision of an access that no instruction of the core made (R123): the fault, when the core holds a dealing. -/
def State.collideFault (s : State) (p : Nat) (f : Option (Nat × Nat)) : State :=
  match f with
  | some (e, pc) => if (s.core p).member.isSome then s.coreFault p 0x0601 e pc 0 [] else s
  | none => s

/-- A DATA or DATA_LAST flit written (R209, R275, R277): its seal with the last line of the tile.  A logical core that has been swapped
since the check receives it in its new part, as a tile written in part that stays poisoned (R71; DESIGN CHOICE, log entry 101). -/
def State.receiveData (s : State) (port i : Nat) (x : Elastic) (part : Nat) : State :=
  let ((lost, f), s1) := s.portWrite part 15 16 x.addr x.flit.payload
  let tile := x.addr / 4096 * 4096
  let s2 := if lost then s1
    else if x.broken then s1.partSeal part tile
    else if x.flit.ty = 2 then s1.portSeal part tile x.flit.carry
    else s1
  let s3 := s2.collideFault part f
  if x.flit.ty = 2 ∧ x.flit.sinc ≠ 0 then s3.setElastic port i { x with written := true }
  else (s3.dropElastic port i).retireElastic port x

/-- A FETCH taken by its responder when it has room (R289). -/
def State.takeFetch (s : State) (port i : Nat) (x : Elastic) (part : Nat) : State :=
  let q := SMap.get [] s.responders part
  if 16 ≤ q.length then s
  else
    let r : FetchReq := ⟨x.addr, fieldAt x.flit.payload 0 2, fieldAt x.flit.payload 2 1 % 8, x.flit.tag, (s.route x.flit.route).ret⟩
    (({ s with responders := SMap.set [] s.responders part (q ++ [r]) }).dropElastic port i).retireElastic port x

/-- LINK_RECEIVE_WRITE (R277): the head for delivery, when it is a write or a FETCH. -/
def execLinkReceiveWrite (port : Fin 16) (s : State) : Host.Outcome State Fault Refusal :=
  .next (s.withHead port (fun s i x =>
    let r := s.route x.flit.route
    match s.partOf r.core with
    | some part =>
      if r.kind ≠ 2 ∨ x.written then s
      else if x.flit.ty = 4 then s.takeFetch port i x part
      else if x.flit.ty = 3 then s
      else s.receiveData port i x part
    | none => s))

/-- REMOTE_SIGNAL_APPLY (R277): the signal of a SIGNAL flit, or of a DATA_LAST whose write has been made. -/
def execRemoteSignalApply (port : Fin 16) (s : State) : Host.Outcome State Fault Refusal :=
  .next (s.withHead port (fun s i x =>
    let r := s.route x.flit.route
    match s.partOf r.core with
    | some part =>
      if r.kind = 2 ∧ (x.flit.ty = 3 ∨ x.written) then
        ((s.onCore part (fun c => c.signal x.flit.sflag x.flit.sinc)).dropElastic port i).retireElastic port x
      else s
    | none => s))

/-- STALE_WAIT_EXPIRE (R276). -/
def execStaleWaitExpire (port : Fin 16) (s : State) : Host.Outcome State Fault Refusal :=
  .next (match s.elasticHead port with
    | some (i, x) =>
      if s.linkLive && !x.checked && decide (s.verdict x.flit = .wait) then
        (((s.waitUntil ((s.port port).headAt + 100000)).dropElastic port i).staleFlit port x.flit x.raw).retireElastic port x
      else s
    | none => s)

/-- Whether a forwarded flit can enter the replay buffer of an output port (R293): no replay and no pause keeps new flits out (R265, R278), and
there is room behind all that waits in its flow and the forwarded flits already handed to the others. -/
def Port.hasRoom (p : Port) (flow : Nat) : Bool :=
  let ahead := (p.flows.map (fun e => (e.2.filter (fun x => e.1 == flow || match x.2 with | .fwd _ _ => true | _ => false)).length)).sum
  decide (p.buffer.length + ahead < 1024) && decide (p.sent.length + ahead < 4096) && p.pause.isNone && p.replay.isNone

/-- FLIT_FORWARD (R293): the oldest flit on a forward entry enters its output port's flow. -/
def execFlitForward (port : Fin 16) (s : State) : Host.Outcome State Fault Refusal :=
  let l := (s.port port).elastic
  .next (match l.findIdx? (fun x => x.forward) with
    | some i =>
      match l[i]? with
      | some x =>
        let r := s.route x.flit.route
        if s.flows r.port && (s.port r.port).hasRoom r.flow then
          (s.onPort port (fun p => { p with elastic := p.elastic.eraseIdx i })).pushFlow r.port r.flow
            [({ x.flit with route := r.next }, if x.live then Owner.fwd port x.flit.seq else Owner.none)]
        else if s.linkLive && s.rd R.LNK_STATUS_STATE r.port == 6 then
          (((s.wr R.LNK_REDEAL_INFO_CAUSE 7 port).wr R.LNK_REDEAL_INFO_FAILED 0 port).wr R.LNK_REDEAL_INFO_SEQ 0 port).linkDown 16 port
        else s
      | none => s
    | none => s)

/-! ## Fetches (R289, R290) -/

/-- An uncorrectable line read for a FETCH (R127, R217): TILE_POISON at the reading core, the responder's, while it holds a dealing. -/
def State.responderPoison (s : State) (p a : Nat) : State :=
  if (s.core p).member.isNone then s
  else (s.sealFault p 4 0x0105 4 5 0 ⟨.spm, a / 4096 * 4096⟩ ((s.core p).sealAt a) true 0 0xFFFFFFFF).coreFault p 0x0105 5 0xFFFFFFFF 0 []

/-- The return flits of one FETCH: each tile read in order, as reads of the LSE that may meet started writes (R115, R121, R123), its seal as
read in its DATA_LAST (R207, R208, R289). -/
def State.serveFetch (s : State) (p : Nat) (r : FetchReq) : State :=
  (List.range r.tiles).foldl (fun s j =>
    let a := r.addr + 4096 * j
    let ((raw, x, f, es), sm) := s.portRead p 5 0xFFFFFFFF a 4096
    let (s0, bad) := (sm.collideFault p f).spmErrors p a 4096 es
    let s1 := if bad = [] then s0 else s0.responderPoison p a
    let carry := if bad = [] then x else (s1.core p).sealAt a
    s1.sendRoute r.route ((tileFlits r.tag (64 * j) r.hand (zeroLines a raw bad) carry (0, 0)).map (fun f => (f, Owner.none)))) s

/-- FETCH_SERVE (R289). -/
def execFetchServe (p : Fin 176) (s : State) : Host.Outcome State Fault Refusal :=
  .next (match SMap.get [] s.responders p with
    | r :: rs => if s.linkLive then ({ s with responders := SMap.set [] s.responders p rs }).serveFetch p r else s
    | [] => s)

/-- A started LFETCH replaced by its tag. -/
def Core.onFetch (c : Core) (tag : Nat) (f : ExecEntry → ExecEntry) : Core :=
  let e := c.engine 5
  c.setEngine 5 { e with exec := e.exec.map (fun x => if x.word.op == some .lfetch && x.remote == tag then f x else x) }

/-- The scratchpad address of tile `j` of an LFETCH (R97, R98), and whether its push, with the first flit of the tile, reaches a queue tile
whose previous pop has not completed (R55). -/
def State.fetchAddr (s : State) (p : Nat) (x : ExecEntry) (j : Nat) : (Nat × Bool) × State :=
  let a := x.slots.getD 1 AdgSlot.zero
  if !a.queue then ((a.addr 4096 j, false), s)
  else
    match (s.core p).queues[a.qnum]? with
    | none => ((0, true), s)
    | some q =>
      let n := x.qbase + j
      if x.begun.contains j then ((4096 * (q.base + n % max 1 q.depth), false), s)
      else if q.head + q.depth ≤ n then ((0, true), s)
      else
        let ((early, _), s1) := if q.depth ≤ n then s.pendingUse p 5 [] a.qnum (n - q.depth) false else ((false, []), s)
        ((4096 * (q.base + n % max 1 q.depth), early), s1)

/-- The landings in a tile of this cycle are over for whoever reads it next: its push has completed (R55, R78). -/
def State.settled (s : State) (p tile : Nat) : State :=
  { s with recent := s.recent.filter (fun r => !(r.part == p && r.code == 15 && r.req.meets .spm tile 4096)) }

/-- The push of tile `j` of an LFETCH completes (R55, R98). -/
def Core.pushed (c : Core) (x : ExecEntry) (j : Nat) : Core :=
  let a := x.slots.getD 1 AdgSlot.zero
  match a.queue, c.queues[a.qnum]? with
  | true, some q => { c with queues := c.queues.set a.qnum { q with owed := q.owed.filter (fun n => n != x.qbase + j) } }
  | _, _ => c

/-- The seal check of an arrived tile with VERIFY 1 (R212, R214): the fault, if any. -/
def fetchCheck (c : Core) (x : ExecEntry) (tile : Nat) : Option Nat :=
  let a := x.slots.getD 1 AdgSlot.zero
  if x.word.verify then sealCheck (c.sealAt tile) (some (c.spmRead tile 4096)) a.gen none (c.slotEpoch a) else none

/-- The seal of an arrived tile written with its last flit, its digest term and its check (R207, R212, R220, R290); an unverified one that
carries poison counts its instruction once (R219, R223); in search mode the digest term joins its RECORD (R348). -/
def State.endFetchTile (s : State) (p : Nat) (x : ExecEntry) (f : Flit) (j tile : Nat) (lost : Bool) : State :=
  let s1 := if lost then s else s.portSeal p tile f.carry
  let s2 := if x.word.digest then s1.addDigest p 0 tile f.carry else s1
  let mark := sealPoison f.carry && !x.word.verify && !x.marked
  let s3 := if mark then (s2.bump R.SEA_CNT_PROPAGATE p).onCore p (fun k => k.onFetch f.window (fun y => { y with marked := true })) else s2
  let s4 := if lost || !s.partner.search then s3
    else
      let t := digestTerm (((s3.core p).member.map (·.logical)).getD 0) 0 tile f.carry
      s3.onCore p (fun k => k.onFetch f.window (fun y => { y with term := (y.term + t) % 2 ^ 64 }))
  match fetchCheck (s4.core p) x tile with
  | some k =>
    let code := match k with | 0 => 0x0101 | 1 => 0x0102 | 2 => 0x0103 | 3 => 0x0104 | _ => 0x0105
    let g := x.slots.getD 1 AdgSlot.zero
    (s4.sealFault p k code k 5 1 ⟨.spm, tile⟩ f.carry false (g.gen + 2 ^ 22 * ((s4.core p).slotEpoch g % 256)) x.pc).coreFault p
      code 5 x.pc 0 []
  | none =>
    let s5 := s4.onCore p (fun k => k.pushed x j)
    if (x.slots.getD 1 AdgSlot.zero).queue then s5.settled p tile else s5

/-- A fetch-return flit written (R290): its queue tile, bounds, bytes after the link-send engine's earlier reads (R77), and with the tile's
last flit its seal. -/
def State.landFetch (s : State) (p : Nat) (x : ExecEntry) (f : Flit) : State :=
  let j := f.offset / 64
  let ((tile, full), s0) := s.fetchAddr p x j
  let a := tile + 256 * (f.offset % 64 / 4)
  if full then s0.coreFault p 0x0302 5 x.pc 0 []
  else if !accessOk s0 (s0.core p) .spm true a 256 then
    ((s0.bump R.SPM_CNT_BOUNDS p).raiseEvt .spm p 1 0x0401).coreFault p 0x0401 5 x.pc 0 []
  else
    let ((lost, met), s1) := s0.portWrite p 15 5 a f.payload
    let s2 := s1.onCore p (fun k => k.onFetch f.window (fun y => { y with
      landed := y.landed + 1, begun := if y.begun.contains j then y.begun else y.begun ++ [j], wrote := if y.wrote.contains ⟨.spm, tile⟩ then y.wrote else y.wrote ++ [⟨.spm, tile⟩] }))
    let s3 := s2.collideFault p met
    if f.ty ≠ 2 || (s3.core p).st == .faulted then s3 else s3.endFetchTile p x f j tile lost

/-- FETCH_RETURN (R290): the head for delivery, when it is on a fetch-return entry; one with no LFETCH of its tag in flight is
dropped and counted as stale. -/
def execFetchReturn (port : Fin 16) (s : State) : Host.Outcome State Fault Refusal :=
  .next (s.withHead port (fun s i x =>
    let r := s.route x.flit.route
    match s.partOf r.core with
    | some part =>
      if r.kind ≠ 3 then s
      else
        let s1 := (s.dropElastic port i).retireElastic port x
        match ((s1.core part).engine 5).exec.find? (fun y => y.word.op == some .lfetch && y.remote == x.flit.window) with
        | some y => s1.landFetch part y x.flit
        | none => s1.bump R.LNK_CNT_STALE port
    | none => s))

/-! ## Host commands of the LNK and RTE pages -/

/-- LNK_BIN_CLEAR (R282). -/
def execLnkBinClear (port : Fin 16) (s : State) : Host.Outcome State Fault Refusal :=
  .next (s.hostCmd .lnk port (fun s => if s.portAbsent port then s else
    ((s.onPort port (fun p => { p with bin := [] })).wr R.LNK_BIN_STATUS_COUNT 0 port).wr R.LNK_BIN_STATUS_FULL 0 port))

/-- ROUTE_ENTRY_WRITE (R301); dropped while a plan image is loaded (R292).  Bits [63:60] are reserved (R291). -/
def execRouteEntryWrite (value : BitVec 32) (s : State) : Host.Outcome State Fault Refusal :=
  .next (s.hostCmd .rte 0 (fun s =>
    if s.loaded then s
    else
      let i := s.rd R.RTE_ADDR
      ({ s with routes := SMap.set 0 s.routes i ((value.toNat + 2 ^ 32 * s.routeHi) % 2 ^ 60) }).wr R.RTE_ADDR ((i + 1) % 4096)))

/-- What a read of RTE_DATA_LO returns; the entry's high word is latched into RTE_DATA_HI (R301). -/
def State.routeData (s : State) : Nat × State :=
  let v := SMap.get 0 s.routes (s.rd R.RTE_ADDR)
  (v % 2 ^ 32, s.wr R.RTE_DATA_HI (v / 2 ^ 32))

/-- ROUTE_ENTRY_READ (R301). -/
def execRouteEntryRead (s : State) : Host.Outcome State Fault Refusal := .next (s.hostLoad .rte 0 State.routeData)

end Sys2Proof.Machine
end

