-- ==== Sys2Proof/Machine/Time.lean ====
section
/-! DEFINITION. Table time and clocks: the time state and the followed port (R305, R309), beacons (R308), steps (R310), the
external reference (R311), die copies (R303), frequency changes (R314), and the system reference (R542). -/

namespace Sys2Proof.Machine

/-- The boot ROM goes on from fetching to verifying (R535): it has as a tick passes, for FW_CHECK_DONE is the end of both (DESIGN CHOICE, log
entry 137). -/
def State.fwFetched (s : State) : State :=
  if s.pkg = .running ∧ s.rd R.HUB_FW_STATUS_STATE = 1 then s.wr R.HUB_FW_STATUS_STATE 2 else s

/-- One tick of an idle package (R302), in which a memory cell may fail (R127, R232). -/
def State.idleTick (s : State) : State := (s.elapse 1).softError.fwFetched

/-! ## The time state (R305, R309) -/

/-- Whether a port meets the conditions for being followed in place of another (R309): ACTIVE, beacons within 100 µs, STRATUM below
255. -/
def State.followable (s : State) (port : Nat) : Bool :=
  s.portActive port && (s.port port).beacon.isSome && decide (s.tick - (s.port port).beaconAt < 100000) && decide ((s.port port).stratum < 255)

/-- The followed port changed (R309, R326). -/
def State.switchTo (s : State) (alt : Bool) : State :=
  let s1 := (s.bump R.TIM_CNT_SWITCH).wr R.TIM_STATUS_ALT (ofBool alt)
  let s2 := s1.wr R.TIM_STATUS_PORT (if alt then s.rd R.TIM_CFG_ALT_PORT else s.rd R.TIM_CFG_PARENT)
  { s2 with timing := { s2.timing with inLimit := none, beacons := [] } }

/-- HOLDOVER entered by a package that is not in it (R305, R326, R327). -/
def State.holdover (s : State) : State :=
  if s.rd R.TIM_STATUS_STATE = 3 then s
  else ((s.wr R.TIM_STATUS_STATE 3).bump R.TIM_CNT_HOLDOVER).wr R.TIM_STATUS_HOLDOVER_SEEN 1

/-- The followed port lost with no other to follow: HOLDOVER, but a package never locked stays in ACQUIRE (R305, R309; DEDUCED, log
entry 26). -/
def State.lost (s : State) : State :=
  let s1 := { s with timing := { s.timing with inLimit := none } }
  if s1.rd R.TIM_STATUS_STATE = 2 then s1.holdover else s1

/-- The followed port can no longer be followed (R309): the other port when it can be, else HOLDOVER. -/
def State.leavePort (s : State) : State :=
  if s.on R.TIM_STATUS_ALT then
    if s.followable (s.rd R.TIM_CFG_PARENT) then s.switchTo false else s.lost
  else if s.on R.TIM_CFG_ALT_VALID && s.followable (s.rd R.TIM_CFG_ALT_PORT) then s.switchTo true
  else s.lost

/-- A package that follows no port (R305): its own count, without a correction (R302). -/
def State.ownTime (s : State) (st stratum : Nat) : State :=
  let s1 := ((s.wr R.TIM_STATUS_STATE st).wr R.TIM_STATUS_STRATUM stratum).wr R.TIM_STATUS_ALT 0
  { s1 with timing := { s1.timing with slew := 0, inLimit := none, beacons := [] } }

/-- The time state that TIM_CFG asks for, taken at once (R305, R327): also the port followed, which ALT is no more once ALT_VALID is
clear (R309). -/
def State.timeConfig (s : State) : State :=
  let st := s.rd R.TIM_STATUS_STATE
  if s.on R.TIM_CFG_ROOT then s.ownTime 4 0
  else if !s.on R.TIM_CFG_PARENT_VALID then s.ownTime 0 255
  else if st = 0 ∨ st = 4 then
    let s1 := (((s.wr R.TIM_STATUS_STATE 1).wr R.TIM_STATUS_STRATUM 255).wr R.TIM_STATUS_ALT 0).wr R.TIM_STATUS_PORT (s.rd R.TIM_CFG_PARENT)
    { s1 with timing := { s1.timing with inLimit := none, beacons := [] } }
  else if s.on R.TIM_STATUS_ALT then
    if s.on R.TIM_CFG_ALT_VALID then s.wr R.TIM_STATUS_PORT (s.rd R.TIM_CFG_ALT_PORT)
    else if s.followable (s.rd R.TIM_CFG_PARENT) then s.switchTo false
    else ((s.wr R.TIM_STATUS_ALT 0).wr R.TIM_STATUS_PORT (s.rd R.TIM_CFG_PARENT)).lost
  else s.wr R.TIM_STATUS_PORT (s.rd R.TIM_CFG_PARENT)

/-- A write of TIM_CFG (R305, R311, R327): the time state, the stage of bring-up, and the external inputs watched from the moment that a
root is given them. -/
def State.timeWrite (s : State) (act : State → State) : State :=
  let ext (x : State) : Bool := x.on R.TIM_CFG_ROOT && x.on R.TIM_CFG_EXT_EN
  let t := (act s).timeConfig
  (if ext t && !ext s then { t with marks := { t.marks with extAt := t.tick, extFrom := t.tick } } else t).stages

/-! ## Beacons (R308) -/

/-- The offset e of a beacon in sixteenths of a nanosecond (R308). -/
def State.offsetOf (s : State) (port : Nat) (b : Beacon) : Int :=
  let asym : Int := let v := s.rd R.TIM_ASYM 0 port; if 32768 ≤ v then (v : Int) - 65536 else v
  (16 * b.stamp + b.frac : Nat) + ((s.port port).rtt16 / 2 : Nat) + asym - b.arrived

/-- A step of TABLE_TIME waits (R310). -/
def State.askStep (s : State) (r : StepReq) : State :=
  { s.wr R.TIM_STATUS_STEP_PENDING 1 with timing := { s.timing with step := some r } }

/-- An offset in use: TIM_OFFSET; above STEP_NS it asks for a step, else the rate is corrected by at most SLEW_PPM towards it, and
the time within LOCK_NS counts (R305, R308, R310).  The offsets are used unfiltered (DESIGN CHOICE, log entry 27). -/
def State.useOffset (s : State) (e : Int) (ppm : Nat) : State :=
  let stepNs := if s.rd R.TIM_LIMITS_STEP_NS = 0 then 0x03E8 else s.rd R.TIM_LIMITS_STEP_NS
  let slew := if s.rd R.TIM_LIMITS_SLEW_PPM = 0 then 0x32 else s.rd R.TIM_LIMITS_SLEW_PPM
  let lock := if s.rd R.TIM_LIMITS_LOCK_NS = 0 then 3 else s.rd R.TIM_LIMITS_LOCK_NS
  let s1 := s.wr R.TIM_OFFSET (e % 4294967296).toNat
  if 16 * stepNs < e.natAbs then
    { s1.askStep (.by (e / 16)) with timing := { (s1.askStep (.by (e / 16))).timing with inLimit := none } }
  else
    let r : Int := min ppm slew
    { s1 with timing := { s1.timing with
      slew := if 0 < e then r else if e < 0 then -r else 0,
      inLimit := if e.natAbs ≤ 16 * lock then some (s1.timing.inLimit.getD s1.tick) else none } }

/-- A beacon of the followed port (R308, R309, R312): a STRATUM of 255 leaves the port, as one of no tree does (DEDUCED, log entry 26);
HOLDOVER is reported with the port; a LOCKED package reports a STRATUM one above its parent's, the hops to the root (R306), as does one in
HOLDOVER. -/
def State.useBeacon (s : State) (port : Nat) (b : Beacon) (ppm : Nat) : State :=
  if b.stratum = 255 ∧ (s.rd R.TIM_STATUS_STATE ≠ 1 ∨ s.on R.TIM_STATUS_ALT) then s.leavePort
  else
    let s1 := s.useOffset (s.offsetOf port b) ppm
    let s2 := if b.state = 3 then s1.holdover else s1
    if s2.rd R.TIM_STATUS_STATE = 2 ∨ s2.rd R.TIM_STATUS_STATE = 3 then s2.wr R.TIM_STATUS_STRATUM (min 255 (b.stratum + 1)) else s2

/-- BEACON (R308, R309): the oldest beacon of the followed port not yet used; the package goes back to its parent port when that can be
followed again.  The table-time logic goes on while the dealer is down and in a hub-only reset (R302, R467). -/
def State.onBeacon (s : State) (ppm : Nat) : State :=
  if !s.follows || !s.linkLive then s
  else
    let s1 := if s.on R.TIM_STATUS_ALT && s.followable (s.rd R.TIM_CFG_PARENT) then s.switchTo false else s
    match s1.timing.beacons with
    | [] => s1
    | (port, b) :: bs =>
      let s2 := { s1 with timing := { s1.timing with beacons := bs } }
      if s2.portActive port && s2.rd R.TIM_STATUS_PORT == port then s2.useBeacon port b ppm else s2

/-- BEACON (R308). -/
def execBeacon (ppm : Nat) (s : State) : Host.Outcome State Fault Refusal := .next (s.onBeacon ppm)

/-- TIME_LOCK (R305): the offset has stayed within LOCK_NS for 1 ms, and the followed port neither reports HOLDOVER nor a STRATUM of
255, which only a package outside the tree reports (R306, R312; DEDUCED, log entry 26). -/
def execTimeLock (s : State) : Host.Outcome State Fault Refusal :=
  .next (match s.timing.inLimit with
    | some t =>
      let port := s.rd R.TIM_STATUS_PORT
      if s.linkLive && (s.rd R.TIM_STATUS_STATE == 1 || s.rd R.TIM_STATUS_STATE == 3) && s.portActive port && (s.port port).peerTime != 3 &&
          decide ((s.port port).stratum < 255) then
        (((s.waitUntil (t + 1000000)).wr R.TIM_STATUS_STATE 2).wr R.TIM_STATUS_STRATUM ((s.port port).stratum + 1)).stages
      else s
    | none => s)

/-- BEACON_LOSS (R309): the followed port is not ACTIVE, or its 100 µs without a beacon elapse. -/
def execBeaconLoss (s : State) : Host.Outcome State Fault Refusal :=
  .next (if !s.follows || !s.linkLive then s
    else
      let port := s.rd R.TIM_STATUS_PORT
      (if s.portActive port then s.waitUntil ((s.port port).beaconAt + 100000) else s).leavePort)

/-! ## Steps (R310, R311) -/

/-- What the stakes have accrued kept at a step back to `t`, from which they go on (R398; DEDUCED, log entry 109). -/
def State.settleStakes (s : State) (t : Nat) : State :=
  if s.time ≤ t then s
  else (List.range 16).foldl (fun s f => if s.on R.SRV_FUNC_EN 0 f then s.onFunc f (fun x => { x with stake := s.stake f, stakeAt := t }) else s) s

/-- TABLE_TIME set on the hub; every die copy takes the change at its next mark (R310), and a beacon not yet used has its arrival in the
new scale. -/
def State.setTime (s0 : State) (t : Nat) : State :=
  let s := s0.settleStakes t
  let d : Int := (t : Int) - (s.time : Int)
  { (List.range 24).foldl (fun s die => s.onDie die (fun x => { x with owed := x.owed + d })) s with
    time := t
    timing := { s.timing with beacons := s.timing.beacons.map (fun e => (e.1, { e.2 with arrived := e.2.arrived + 16 * d })) } }

/-- Whether a member holds a deal time that it has not reached (R310). -/
def State.dealTimePending (s : State) : Bool :=
  s.cores.any (fun e => match e.2.resumeAt with
    | some t => decide ((s.dieTime (e.1 / 11) : Int) < t)
    | none => false)

/-- TIME_STEP_APPLY (R310): the step is applied, then the deal times held back are delivered, if the trick logic has not stopped (R467). -/
def State.applyStep (s : State) : State :=
  match s.timing.step with
  | none => s
  | some r =>
    if !s.linkLive || s.dealTimePending then s
    else
      let t := match r with
        | .by ns => wrap64 ((s.time : Int) + ns)
        | .to ns => ns
      let s1 := (((s.setTime t).bump R.TIM_CNT_STEP).wr R.TIM_STATUS_STEPPED 1).wr R.TIM_STATUS_STEP_PENDING 0
      let s2 := { s1 with timing := { s1.timing with step := none, held := [] } }
      if s.up then s.timing.held.foldl (fun s h => s.deliver h.1 h.2) s2 else s2

/-- TIME_STEP_APPLY (R310). -/
def execTimeStepApply (s : State) : Host.Outcome State Fault Refusal := .next s.applyStep

/-- TIM_STEP (R311): at the root a step to TIM_SET, at the next pulse edge with EXT_EN, else at once. -/
def execTimStep (s : State) : Host.Outcome State Fault Refusal :=
  .next (s.hostCmd .tim 0 (fun s =>
    if s.rd R.TIM_STATUS_STATE ≠ 4 then s
    else if s.on R.TIM_CFG_EXT_EN then { s with timing := { s.timing with atEdge := true } }
    else s.askStep (.to (s.rdPair R.TIM_SET_LO R.TIM_SET_HI))))

/-- TIM_RELOCK (R327): LOCKED or HOLDOVER to ACQUIRE. -/
def execTimRelock (s : State) : Host.Outcome State Fault Refusal :=
  .next (s.hostCmd .tim 0 (fun s =>
    if s.rd R.TIM_STATUS_STATE = 2 ∨ s.rd R.TIM_STATUS_STATE = 3 then
      let s1 := (s.wr R.TIM_STATUS_STATE 1).wr R.TIM_STATUS_STRATUM 255
      { s1 with timing := { s1.timing with inLimit := none } }
    else s))

/-- PPS_EDGE (R311): at a root with EXT_EN a step that waits for the edge takes TABLE_TIME to TIM_SET as of the edge; else the edge is the
nearest whole second, and a TABLE_TIME that says otherwise takes a step (DEDUCED, log entry 28).  After the fall-back to the system
reference an edge marks nothing. -/
def execPpsEdge (s : State) : Host.Outcome State Fault Refusal :=
  .next (if !s.linkLive || s.rd R.TIM_STATUS_STATE != 4 || !s.on R.TIM_CFG_EXT_EN then s
    else
      let s1 := { s with marks := { s.marks with extAt := s.tick } }
      let off (t : Nat) : Int := (t : Int) - (s1.time : Int)
      if s1.timing.atEdge then
        ({ s1 with timing := { s1.timing with atEdge := false } }).askStep (.by (off (s1.rdPair R.TIM_SET_LO R.TIM_SET_HI)))
      else
        let d := off ((s1.time + 500000000) / 1000000000 * 1000000000)
        if s1.on R.TIM_STATUS_PPS_LOST || s1.timing.step.isSome || d == 0 then s1 else s1.askStep (.by d))

/-- The tick at which an input has missed its edges for 2 s (R311, R543): 2 s after the last pulse edge, or sooner where EXT_10M is the one that
fails, of which no row gives the edges: a free value from 2 s after the watch began on (DEDUCED, log entry 139). -/
def State.extFails (s : State) : Nat :=
  let lo := max s.tick (s.marks.extFrom + 2000000000)
  let hi := max lo (s.marks.extAt + 2000000000)
  lo + Config.freeNat s.free % (hi - lo + 1)

/-- EXT_REF_LOSS (R311, R543): an input misses edges for 2 s. -/
def execExtRefLoss (s : State) : Host.Outcome State Fault Refusal :=
  .next (if s.linkLive && s.rd R.TIM_STATUS_STATE == 4 && s.on R.TIM_CFG_EXT_EN then
      ({ s with free := s.free + 1 }.waitUntil s.extFails).wr R.TIM_STATUS_PPS_LOST 1
    else s)

/-! ## Die copies (R303) and core clocks (R314) -/

/-- The table-time references of the members of a die moved: a deal time T by the step `d` (R310), the arrival t_arr by the whole change `e` of
the copy, for its limit counts ticks (R304, R310). -/
def State.moveRefs (s : State) (die : Nat) (d e : Int) : State :=
  (List.range 11).foldl (fun s c =>
    let k := s.core (11 * die + c)
    if k.resumeAt.isNone && k.arrivedAt.isNone then s
    else s.onCore (11 * die + c) (fun k => { k with
      resumeAt := k.resumeAt.map (· + d), arrivedAt := k.arrivedAt.map (· + e) })) s

/-- TIME_MARK (R303): the die's copy follows the hub again and takes the steps it owes. -/
def execTimeMark (die : Fin 25) (s : State) : Host.Outcome State Fault Refusal :=
  .next (if !s.linkLive || !s.awake die || die = 24 || (decide (die.val < 16) && !(s.die die).tested) then s
    else
      let d := (s.die die).owed
      (s.moveRefs die d (d - (s.die die).offset)).onDie die (fun x => { x with offset := 0, owed := 0, isLocal := false }))

/-- FREQ_SWITCH (R314, R329): the PLLs exchange roles at the end of a retune; the stop lasts at most 16 cycles. -/
def execFreqSwitch (die : Fin 16) (stop : Fin 17) (s : State) : Host.Outcome State Fault Refusal :=
  .next (if !s.linkLive || !s.on R.CLK_STATUS_RETUNING die then s
    else
      (((((s.wr R.CLK_STATUS_FREQ (s.rd R.CLK_STATUS_TARGET die) die).wr R.CLK_STATUS_PLL (1 - s.rd R.CLK_STATUS_PLL die) die).wr
        R.CLK_STATUS_RETUNING 0 die).bump R.CLK_SWITCHES die).wr R.CLK_MAX_STOP (max (s.rd R.CLK_MAX_STOP die) stop) die))

/-- A frequency asked of a die (R314): a retune begins or takes the new target; the present frequency cancels it. -/
def State.retune (s : State) (die f : Nat) : State :=
  if f = s.rd R.CLK_STATUS_FREQ die then (s.wr R.CLK_STATUS_TARGET f die).wr R.CLK_STATUS_RETUNING 0 die
  else (s.wr R.CLK_STATUS_TARGET f die).wr R.CLK_STATUS_RETUNING 1 die

/-! ## The system reference (R542) -/

/-- SYSREF_LOSS (R542): the always-on domain runs on its internal oscillator. -/
def execSysrefLoss (s : State) : Host.Outcome State Fault Refusal := .next { s with osc := true }

/-- SYSREF_RETURN (R542). -/
def execSysrefReturn (s : State) : Host.Outcome State Fault Refusal := .next { s with osc := false }

end Sys2Proof.Machine
end

