-- ==== Sys2Proof/Machine/Power.lean ====
section
/-! DEFINITION. The power controller: the account and the estimate (R418 to R421), measurement and drift (R422, R423, R432, R433),
trump order and pacing (R425 to R427), frequency steps and heat (R428, R434), the trip (R435), droop (R436), and sleep and wake
of regions and dies (R437 to R439). -/

namespace Sys2Proof.Machine

/-! ## Settings (R442) -/

/-- A setting cut to its range. -/
def clampTo (lo hi v : Nat) : Nat := max lo (min hi v)

def State.capW (s : State) : Nat := clampTo 1200 5000 (s.rd R.PWR_LIMIT_CAP_W)
/-- WINDOW in power ticks of 10 µs. -/
def State.windowTicks (s : State) : Nat := 10000 * clampTo 5 100 (s.rd R.PWR_LIMIT_WINDOW)
/-- HORIZON in power ticks, never more than WINDOW. -/
def State.horizonTicks (s : State) : Nat := min s.windowTicks (100 * max 10 (s.rd R.PWR_CFG_HORIZON))
def State.fmax (s : State) : Nat := clampTo 7 0x1C (s.rd R.PWR_FREQ)
def State.throttleC (s : State) : Nat := clampTo 60 100 (s.rd R.PWR_THERM_THROTTLE_C)
def State.stepPace (s : State) : Nat := if s.rd R.PWR_CFG_STEP_PACE = 0 then 4 else s.rd R.PWR_CFG_STEP_PACE
def State.gateDelay (s : State) : Nat := 1000000 * (if s.rd R.PWR_GATE = 0 then 10 else s.rd R.PWR_GATE)

/-! ## Frequency (R428, R434, R517) -/

/-- The frequency at which a C-die is to run (R428, R517): the lower of the chosen one and FLIMIT, at most FMAX, and at most 0.7 GHz
while FULL is 0. -/
def State.dieFreq (s : State) (d : Nat) : Nat :=
  let f := min (min (s.die d).freq (s.rd R.PWR_DIE_FLIMIT 0 d)) s.fmax
  if s.on R.HUB_BRINGUP_STATUS_FULL then f else min f 0x0E

/-- A die retuned when it is to run at another frequency (R314). -/
def State.clockDie (s : State) (d : Nat) : State :=
  if s.awake d && decide (s.dieFreq d ≠ s.rd R.CLK_STATUS_TARGET d) then s.retune d (s.dieFreq d) else s

/-- The power ticks of 1 ms (R428, R434). -/
def msTicks : Nat := 100

/-- The cores of a C-die. -/
def dieCores (d : Nat) : List Nat := (List.range 11).map (fun c => 11 * d + c)

/-- FREQ_STEP (R428): down when some busy core of the die has been paced deep in every power tick of 1 ms, else up after 1 ms of ample
budget; the next step needs another 1 ms. -/
def execFreqStep (die : Fin 16) (s : State) : Host.Outcome State Fault Refusal :=
  let x := s.die die
  .next (if !s.linkLive || !s.awake die then s
    else if (dieCores die).any (fun p => decide (msTicks ≤ (s.core p).deepTicks)) then
      if s.dieFreq die ≤ 7 then s
      else
        let s1 := (dieCores die).foldl (fun s p => s.onCore p (fun c => { c with deepTicks := 0 })) s
        ((s1.onDie die (fun x => { x with freq := s1.dieFreq die - 1 })).bump R.PWR_CNT_FSTEP).clockDie die
    else if msTicks ≤ x.richTicks ∧ x.freq < s.fmax then
      (s.onDie die (fun x => { x with freq := x.freq + 1, richTicks := 0 })).clockDie die
    else s)

/-! ## The trip (R435) -/

/-- The package trips: meshes and links stop, memories enter self-refresh, THERMTRIP_N goes low, the supervisor records it and stores JOURNAL and SAVE
(R446, R447, R518).  A package that a sag has stopped trips too, and no MRAM operation starts in it (R522). -/
def State.trip (s : State) : State :=
  if s.pkg = .held ∨ s.pkg = .tripped ∨ (s.pkg = .sagged ∧ s.thermtrip = true) then s
  else
    let s1 := ({ s with pkg := if s.pkg = PkgSt.sagged then PkgSt.sagged else PkgSt.tripped, thermtrip := true, ddrSelf := true }).wr R.PWR_STATUS_TRIPPED 1
    let s2 := (s1.wr R.AON_STATUS_STATE 3).raiseEvt .aon 0 1 0x0A02
    let s3 := cDies.foldl (fun s d => s.wr R.HBM_STATUS_SELF_REFRESH 1 d) s2
    let s4 := s3.jrnPut (JrnEntry.blank s3 0x0A02 6)
    if s.pkg = PkgSt.sagged then s4 else (s4.nvmSuper 5 (s4.capture 5)).nvmSuper 7 (SMap.setRun 0 [] 0 [s4.time, 2])

/-- THERMAL_TRIP (R435). -/
def execThermalTrip (s : State) : Host.Outcome State Fault Refusal := .next s.trip

/-! ## The estimate (R421) -/

/-- Energy of the events counted of the indices chosen [fJ]; dummy load counts with the coefficient of index 4. -/
def State.countE (s : State) (sel : Nat → Bool) : Nat :=
  (s.events.map (fun e => if sel (e.1 % 32) then e.2 * s.coef (if e.1 % 32 = 16 then 4 else e.1 % 32) else 0)).sum

/-- Memory terms: indices 7, 8 and 15 [fJ]. -/
def State.memE (s : State) : Rat :=
  (s.countE (fun i => i == 7 || i == 8) : Rat) +
  ((cDies.filter (fun d => s.awake d && !s.on R.HBM_STATUS_SELF_REFRESH d)).length : Rat) * s.staticE 15

/-- Link terms: indices 10, 13 and 14 [fJ]. -/
def State.linkE (s : State) : Rat :=
  (s.countE (fun i => i == 10) : Rat) + (((List.range 8).filter (fun k => s.awake (16 + k))).length : Rat) * s.staticE 13 + s.staticE 14

/-- Compute terms: the others [fJ]. -/
def State.computeE (s : State) : Rat :=
  (s.countE (fun i => i != 7 && i != 8 && i != 10) : Rat) + ((cDies.filter s.awake).length : Rat) * s.staticE 12 +
  ((List.range 176).map s.regionE).sum

/-- The estimate of the tick in progress [fJ] (R421). -/
def State.tickE (s : State) : Nat := (s.memE + s.linkE + s.computeE).floor.toNat

/-- Dummy-load energy of the cores (R426) [fJ]. -/
def State.dummyE (s : State) : Nat := ((List.range 176).map s.dummyOf).sum

/-- Compute energy of one C-die: its cores and its shared logic [fJ]. -/
def State.dieE (s : State) (d : Nat) : Rat := s.coresE (dieCores d) + (if s.awake d then s.staticE 12 else 0)

/-- The energy of the tick in progress as power [W]. -/
def State.watts (s : State) (e : Rat) : Rat := e / (10000000000 * s.elapsed)

/-! ## The account (R418 to R420) -/

/-- The energy [fJ] of the ticks within the last `n` power ticks. -/
def State.account (s : State) (n : Nat) : Nat :=
  ((s.power.hist.filter (fun x => decide (s.tick < x.1 + 10000 * n))).map (·.2)).sum

/-- A tick's energy taken into the account; what lies 10 s back, the largest WINDOW, or more is dropped. -/
def State.charge (s : State) (e : Nat) : State :=
  { s with power := { s.power with
    hist := (s.tick, e) :: s.power.hist.filter (fun x => decide (s.tick < x.1 + 10000000000)) } }

/-- The energy that the account takes for a tick (R419, R423, R432): the estimate; in drift mode the measured power over the tick, to be
replaced when the period's own measurement comes, and the larger of the two while there is none (DESIGN CHOICE, log entry 104). -/
def State.accountE (s : State) : Nat :=
  let meas := ((s.power.measW : Rat) * 10000000000 * s.elapsed).floor.toNat
  if !s.on R.PWR_STATUS_DRIFT then s.tickE
  else if s.on R.PWR_STATUS_MEAS_LOST then max s.tickE meas else meas

/-- P_s (R420). -/
def State.spendable (s : State) : Rat :=
  let keep := s.account (s.windowTicks - s.horizonTicks)
  let allow : Int := s.capW * s.windowTicks * 10000000000
  max 0 (((allow - (keep : Int) : Int) : Rat) / (s.horizonTicks * 10000000000 : Nat))

/-- What the estimated terms are scaled by (R432). -/
def State.driftK (s : State) : Rat :=
  if s.on R.PWR_STATUS_DRIFT ∧ s.power.estE ≠ 0 then (s.power.measE : Rat) / s.power.estE else 1

/-- B_c from P_s (R425, R426): tiers 1 and 2, then dummy load, come off first. -/
def State.computeBudget (s : State) (ps k : Rat) : Rat :=
  max 0 (max 0 (ps - (s.rd R.PWR_RSV : Rat) - k * s.watts s.memE) - k * s.watts s.dummyE)

/-! ## The division of the spendable power (R425 to R427) -/

/-- Busy cores: those in a dealing in progress (R426). -/
def State.busy (s : State) : List Nat := (s.dealings.flatMap (fun d => d.2.parts)).eraseDups

/-- The privileged phases in progress whose bid is reserved: from their deal time on (R431). -/
def State.reserved (s : State) : List (Dealing × Nat) :=
  s.dealings.filterMap (fun d =>
    let h := s.dealHdr d.2
    if h.priv ∧ d.2.dealAt ≤ s.time then (s.bid h.handId d.2.trick).map (fun b => (d.2, b)) else none)

/-- The pacing level of one core within its share (R426); with no compute power of its own, a core is unpaced when its static term
fits (DESIGN CHOICE, log entry 29). -/
def paceOf (share sc dc : Rat) : Nat :=
  if dc = 0 then (if sc ≤ share then 16 else 1)
  else clampTo 1 16 ((16 * (share - sc) / dc).floor.toNat)

/-- Cores paced within a budget (R426): their targets. -/
def State.paceSet (s : State) (k : Rat) (cs : List Nat) (b : Rat) : State :=
  let share := b / max 1 cs.length
  cs.foldl (fun s p =>
    let sc := k * s.watts (s.regionE p)
    let dc := k * s.watts (s.coreE p - s.regionE p) * 16 / max 1 (s.core p).pace
    s.onCore p (fun c => { c with paceGoal := paceOf share sc dc })) s

/-- The targets of all cores (R426): privileged ones first. -/
def State.pace (s : State) (k bc : Rat) : State :=
  let res := s.reserved
  let rp : Rat := ((res.map (·.2)).sum : Nat)
  let priv := (res.flatMap (fun x => x.1.parts)).eraseDups
  let others := s.busy.filter (fun p => !priv.contains p)
  let idle := (List.range 176).filter (fun p => !s.busy.contains p && (s.core p).paceGoal != 16)
  let s1 := idle.foldl (fun s p => s.onCore p (fun c => { c with paceGoal := 16 })) (s.wr R.PWR_BID_RESERVED_W (min 0xFFFF rp.floor.toNat))
  if rp ≤ bc then
    (priv.foldl (fun s p => s.onCore p (fun c => { c with paceGoal := 16 })) s1).paceSet k others (bc - rp)
  else
    others.foldl (fun s p => s.onCore p (fun c => { c with paceGoal := 1 })) (s1.paceSet k priv bc)

/-! ## The power tick (R419, R420, R424 to R430) -/

/-- The conditions of R428 and R434 on one die, its FLIMIT at most FMAX, and the fields of PWR_DIE (R443), after a tick. -/
def State.dieTick (s : State) (r : PowerReport) (bc : Rat) (d : Nat) : State :=
  let cs := s.busy.filter (fun p => p / 11 == d)
  let depth := cs.foldl (fun m p => max m (16 - (s.core p).paceGoal)) 0
  let temp := (r.temps.filter (fun t => t.1 == d)).foldl (fun m t => max m t.2) 0
  let rich := depth == 0 && decide (11 * s.watts (s.dieE d) ≤ 10 * bc)
  let s1 := ((s.wr R.PWR_DIE_PACE depth 0 d).wr R.PWR_DIE_TEMP temp 0 d).wr R.PWR_DIE_FLIMIT (min (s.rd R.PWR_DIE_FLIMIT 0 d) s.fmax) 0 d
  let s2 := (dieCores d).foldl (fun t p => t.onCore p (fun c => { c with
    deepTicks := if cs.contains p && decide (s.stepPace ≤ 16 - c.paceGoal) then c.deepTicks + 1 else 0 })) s1
  (s2.onDie d (fun x => { x with
    richTicks := if rich then x.richTicks + 1 else 0,
    coolTicks := if temp + 3 ≤ s.throttleC then x.coolTicks + 1 else 0 })).clockDie d

/-- What the power tick takes up is closed: the phases in progress get their share, and the counts start anew (R421, R430). -/
def State.closeTick (s : State) : State :=
  let s1 := s.groups.foldl (fun t g => match g.2.dealing with
    | some d => t.onGroup g.1 (fun x => { x with dealing := some { d with energy := s.phaseEnergy d, base := 0 } })
    | none => t) s
  { s1 with
    events := [],
    power := { s1.power with periodE := s1.power.periodE + s.tickE },
    marks := { s1.marks with powerAt := s.tick } }

/-- POWER_TICK (R426): the account takes the tick's energy; P_s, B_c and the targets follow; dies are sampled; a reading of 115 °C
trips the package (R435). -/
def State.powerTick (s0 : State) (r : PowerReport) : State :=
  if !s0.linkLive then s0
  else
    let s1 := (List.range 176).foldl State.burned (s0.waitUntil (s0.marks.powerAt + 10000))
    let s := s1.charge s1.accountE
    let ps := s.spendable
    let bc := s.computeBudget ps s.driftK
    let s2 := (({ s with power := { s.power with bc := bc } }).wrPair R.PWR_USED_LO R.PWR_USED_HI
      (s.account s.windowTicks / 1000000000000)).wr R.PWR_SPEND_PS (min 0xFFFF ps.floor.toNat)
    let s3 := (s2.wr R.PWR_SPEND_BC (min 0xFFFF bc.floor.toNat)).pace s.driftK bc
    let s4 := (cDies.foldl (fun s d => s.dieTick r bc d) s3).closeTick
    let hot := r.temps.any (fun t => decide (16 ≤ t.1) && decide (s.throttleC ≤ t.2))
    let s5 := if hot then s4.wr R.PWR_STATUS_HOT_SEEN 1 else s4
    if r.temps.any (fun t => decide (115 ≤ t.2)) then s5.trip else s5

/-- POWER_TICK (R426). -/
def execPowerTick (report : PowerReport) (s : State) : Host.Outcome State Fault Refusal := .next (s.powerTick report)

/-- PACING_LEVEL_STEP (R427): one level toward the target, except while a droop holds the die (R436). -/
def execPacingLevelStep (p : Fin 176) (s : State) : Host.Outcome State Fault Refusal :=
  .next (if !s.linkLive || (s.die (p / 11)).droopAt.isSome then s
    else s.onCore p (fun c => { c with
      pace := if c.pace < c.paceGoal then c.pace + 1 else if c.paceGoal < c.pace then c.pace - 1 else c.pace }))

/-! ## Measurement and drift (R422, R423, R432, R433) -/

/-- The value of a PMBus Linear11 word [W] (R422). -/
def linear11 (w : BitVec 16) : Rat :=
  let m : Int := (w.extractLsb' 0 11).toInt
  let x : Int := (w.extractLsb' 11 5).toInt
  if 0 ≤ x then (m : Rat) * (2 ^ x.toNat : Nat) else (m : Rat) / (2 ^ (-x).toNat : Nat)

/-- The regulators that are read, ascending. -/
def State.regulators (s : State) : List Nat := (List.range 8).filter (fun k => s.on R.PWR_VR_VALID 0 k)

/-- The comparison of a period (R432). -/
def State.compareEnergy (s : State) (valid : Bool) : State :=
  let est := s.power.estE
  let meas := s.power.measE
  let diff := (est - meas) + (meas - est)
  if !valid || decide (4 * diff ≤ meas) then s.wr R.PWR_DRIFT_MS 0
  else
    let n := min 0xFFFF (s.rd R.PWR_DRIFT_MS + 1)
    let s1 := s.wr R.PWR_DRIFT_MS n
    if n = 101 ∧ !s.on R.PWR_STATUS_DRIFT then
      let s2 := ((s1.wr R.PWR_STATUS_DRIFT 1).wr R.PWR_STATUS_BID_FROZEN 1).bump R.PWR_CNT_DRIFT
      let s3 := s2.raiseEvt .pwr 0 0 0x0A01
      if s.dealerUp then s3.journal (JrnEntry.blank s2 0x0A01 3) else s3
    else s1

/-- The READ_PIN commands sent to the regulators that are read (R422). -/
def State.readPins (s : State) : State :=
  s.regulators.foldl (fun s k => s.emit (.pmbus (s.rd R.PWR_VR_ADDR 0 k) 0x97)) s

/-- The energy of the period just measured spread over its ticks in the account (R432): over what they took before, in equal parts. -/
def State.spread (s : State) (from' e : Nat) : State :=
  let n := (s.power.hist.filter (fun x => decide (from' < x.1))).length
  { s with power := { s.power with hist := s.power.hist.map (fun x => if from' < x.1 then (x.1, e / n) else x) } }

/-- POWER_MEASURE (R422, R423, R432): the replies of the named regulators in ascending order; `none`, or no reply left, is a failed
read: no answer, a PMBus error, or a reply with a wrong packet error code (R551; log entry 136).  A period without measurement ends a row of
failures. -/
def State.measure (s0 : State) (replies : List (Option (BitVec 16))) : State :=
  if !s0.linkLive then s0
  else
    let s := s0.waitUntil (s0.marks.measAt + 1000000)
    let est := s.power.periodE
    let ns := s.tick - s0.marks.measAt
    let s1 := { s with
      power := { s.power with periodE := 0 },
      marks := { s.marks with measAt := s.tick } }
    let s2 := s1.wr R.PWR_POWER_EST (min 0xFFFF (est / (1000000 * ns)))
    if !s2.on R.PWR_CFG_MEAS_EN then ({ s2 with power := { s2.power with misses := [] } }).compareEnergy false
    else
      let rs := s2.regulators.zipIdx.map (fun x => (x.1, (replies[x.2]?).join))
      let failed := rs.filter (fun x => x.2.isNone)
      let misses : SMap Nat := rs.foldl (fun m x => if x.2.isNone then SMap.set 0 m x.1 (SMap.get 0 s2.power.misses x.1 + 1) else m) []
      let s3 := ({ s2.readPins with power := { s2.power with misses := misses } }).bumpBy R.PWR_CNT_MEAS_ERR failed.length
      if !failed.isEmpty then
        (if misses.any (fun e => decide (3 ≤ e.2)) then s3.wr R.PWR_STATUS_MEAS_LOST 1 else s3).compareEnergy false
      else
        let w : Rat := (rs.map (fun x => (x.2.map linear11).getD 0)).sum
        let e := (w * (1000000 * ns : Nat)).floor.toNat
        let s4 := { s3 with power := { s3.power with estE := est, measE := e, measW := w.floor.toNat } }
        let s5 := ((s4.wr R.PWR_STATUS_MEAS_LOST 0).wr R.PWR_POWER_MEAS (min 0xFFFF w.floor.toNat)).compareEnergy (!rs.isEmpty)
        if !rs.isEmpty && s5.on R.PWR_STATUS_DRIFT then s5.spread s0.marks.measAt e else s5

/-- POWER_MEASURE (R422). -/
def execPowerMeasure (replies : List (Option (BitVec 16))) (s : State) : Host.Outcome State Fault Refusal := .next (s.measure replies)

/-- CLEAR_DRIFT (R433). -/
def execClearDrift (s : State) : Host.Outcome State Fault Refusal :=
  .next (s.hostCmd .pwr 0 (fun s => ((s.wr R.PWR_STATUS_DRIFT 0).wr R.PWR_STATUS_BID_FROZEN 0).wr R.PWR_DRIFT_MS 0))

/-- BID_RESET (R431). -/
def execBidReset (s : State) : Host.Outcome State Fault Refusal :=
  .next (s.hostCmd .pwr 0 (fun s => { s with power := { s.power with bids := [] } }))

/-! ## Heat and droop (R434, R436) -/

/-- THERMAL_THROTTLE_STEP (R434): a hot die's FLIMIT falls every 100 µs, and one that has been cool in every power tick of 1 ms rises; HOT
ends when FLIMIT is back at FMAX (DEDUCED, log entry 74). -/
def execThermalThrottleStep (die : Fin 16) (s : State) : Host.Outcome State Fault Refusal :=
  .next (if !s.linkLive then s
    else
      let temp := s.rd R.PWR_DIE_TEMP 0 die
      let lim := min (s.rd R.PWR_DIE_FLIMIT 0 die) s.fmax
      if s.throttleC ≤ temp then
        let s1 := if s.on R.PWR_DIE_HOT 0 die then s.waitUntil ((s.die die).hotAt + 100000) else s.bump R.PWR_CNT_HOT
        (((s1.wr R.PWR_DIE_HOT 1 0 die).wr R.PWR_DIE_FLIMIT (max 7 (lim - 1)) 0 die).onDie die (fun x => { x with
          hotAt := s1.tick, coolTicks := 0 })).clockDie die
      else if (s.die die).coolTicks < msTicks then s
      else if s.fmax ≤ lim then s.wr R.PWR_DIE_HOT 0 0 die
      else
        let s1 := (s.wr R.PWR_DIE_FLIMIT (lim + 1) 0 die).onDie die (fun x => { x with coolTicks := 0 })
        (if s.fmax ≤ lim + 1 then s1.wr R.PWR_DIE_HOT 0 0 die else s1).clockDie die)

/-- DROOP_DETECT (R436, R545): every core of the die at level 8 at once; one that was paced lower stays so (DEDUCED, log entry 132). -/
def execDroopDetect (die : Fin 16) (s : State) : Host.Outcome State Fault Refusal :=
  .next (if !s.linkLive || !s.awake die then s
    else
      let s1 := (dieCores die).foldl (fun s p => s.onCore p (fun k => { k with pace := min k.pace 8 })) s
      (s1.onDie die (fun x => { x with droopAt := some s.tick })).bump R.PWR_CNT_DROOP)

/-- DROOP_HOLD_EXPIRE (R436): after 1 µs the cores go back level by level. -/
def execDroopHoldExpire (die : Fin 16) (s : State) : Host.Outcome State Fault Refusal :=
  .next (match (s.die die).droopAt with
    | some t => if s.linkLive then (s.waitUntil (t + 1000)).onDie die (fun x => { x with droopAt := none }) else s
    | none => s)

/-! ## Sleep and wake (R437 to R439) -/

/-- Whether a core region is idle (R437): no dealing, no instruction queued or started, no dummy load. -/
def Core.regionIdle (c : Core) : Bool :=
  c.member.isNone && c.eng.all (fun e => e.2.queue.isEmpty && e.2.exec.isEmpty) && c.dummy == 0

/-- REGION_CLOCK_STOP (R437). -/
def execRegionClockStop (p : Fin 176) (s : State) : Host.Outcome State Fault Refusal :=
  .next (if s.linkLive && (s.core p).region == .running && (s.core p).regionIdle then
      s.onCore p (fun c => { c with region := .stopped, regionAt := s.tick })
    else s)

/-- REGION_POWER_GATE (R438, R129): with retention when RETAIN is 1 or the last hand did not end at a checkpoint trick. -/
def execRegionPowerGate (p : Fin 176) (s : State) : Host.Outcome State Fault Refusal :=
  .next (if s.linkLive && s.on R.PWR_CFG_GATE_EN && (s.core p).region == .stopped then
      (s.waitUntil ((s.core p).regionAt + s.gateDelay)).gateRegion p
    else s)

/-- REGION_WAKE_DONE (R438, R130): without retention every line is zero and every seal poison, and LOST reads 1. -/
def execRegionWakeDone (p : Fin 176) (s : State) : Host.Outcome State Fault Refusal :=
  .next (if s.linkLive && (s.core p).region == .waking && s.awake (p / 11) then
      let lost := !(s.core p).retained
      ((s.onCore p (fun c =>
        let c1 := { c with region := .running, regionAt := s.tick }
        if lost then { c1 with spm := [], seals := [], spmErr := [] } else c1)).wr R.SPM_STATUS_POWERED 1 p).wr
        R.SPM_STATUS_LOST (ofBool lost) p
    else s)

/-- Whether a dealing in progress or ready needs a C-die (R439): its cores, a slot of its flows on a wire of the die's bridges, or a bound in
its stack. -/
def State.dieNeeded (s : State) (d : Nat) : Bool :=
  s.dealings.any (fun x => x.2.parts.any (fun p => p / 11 == d) || (s.handAt x.2.hand).any (fun h => h.stacks.contains d)) ||
  s.wheels.any (fun e => decide (e.1 / 64 < 78) && wireTouches (e.1 / 64) d) ||
  s.hands.zipIdx.any (fun h => s.handWaits h.2 h.1 && (h.1.hdr.dies.contains d || h.1.touches.contains d))

/-- Whether a P-die is in use (R439): a port ACTIVE or training, or its channel used by the tier. -/
def State.pDieNeeded (s : State) (k : Nat) : Bool :=
  [2 * k, 2 * k + 1].any (fun p =>
    let st := s.rd R.LNK_STATUS_STATE p
    !s.portAbsent p && ((decide (1 ≤ st) && decide (st ≤ 5)) || (st == 0 && (s.port p).train))) ||
  decide (k < s.ddrChannels)

/-- DIE_POWER_GATE (R439). -/
def execDiePowerGate (die : Fin 24) (s : State) : Host.Outcome State Fault Refusal :=
  .next (if !s.linkLive || !s.on R.PWR_CFG_GATE_EN || (s.die die).power != .awake || bitOf (s.rd R.PWR_HOLD_AWAKE) die then s
    else if die.val < 16 then
      let cs := (List.range 11).map (fun c => s.core (11 * die.val + c))
      if cs.all (fun c => c.region == .gated) && !s.dieNeeded die && (s.die die).tested then
        let s1 := s.waitUntil (cs.foldl (fun m c => max m c.regionAt) 0 + s.gateDelay)
        ((s1.onDie die (fun x => { x with power := .gated })).wr R.PWR_DIE_GATED 1 0 die).wr R.HBM_STATUS_SELF_REFRESH 1 die
      else s
    else if s.pDieNeeded (die.val - 16) then s
    else s.onDie die (fun x => { x with power := .gated }))

/-- DIE_WAKE_DONE (R439, R303): the die is awake, its stack leaves self-refresh, and its copy is LOCAL, its error a free value (log
entry 30), until the next mark; it counts in the new scale, and its members take the steps that it owed (R310). -/
def execDieWakeDone (die : Fin 24) (s : State) : Host.Outcome State Fault Refusal :=
  .next (if s.linkLive && (s.die die).power == .waking then
      let x := s.die die
      let off := (Config.freeNat s.free : Int) - (Config.freeNat (s.free + 1) : Int)
      let s1 := (s.moveRefs die x.owed (x.owed + off - x.offset)).onDie die (fun x => { x with
        power := .awake, isLocal := true, owed := 0, offset := off })
      let s2 := { s1 with free := s.free + 2 }
      if die.val < 16 then
        let f := s2.dieFreq die
        (((s2.wr R.PWR_DIE_GATED 0 0 die).wr R.HBM_STATUS_SELF_REFRESH 0 die).wr R.CLK_STATUS_FREQ f die).wr R.CLK_STATUS_TARGET f die
      else s2
    else s)

/-- PWR_HOLD_AWAKE_WRITE (R442): named dies that are gated begin to wake at once. -/
def execPwrHoldAwakeWrite (dies : BitVec 24) (s : State) : Host.Outcome State Fault Refusal :=
  .next (s.hostCmd .pwr 0 (fun s =>
    ((List.range 24).filter (fun d => bitOf dies.toNat d)).foldl (fun s d => if s.pkg == .running then s.wakeDie d else s)
      (s.wr R.PWR_HOLD_AWAKE dies.toNat)))

end Sys2Proof.Machine
end

