-- ==== Sys2Proof/Machine/Health.lean ====
section
/-! DEFINITION. Health scores over time (R458, R459), the stores of HEALTH and JOURNAL (R446, R458), scrubbing (R233, R242), host
reads that time out (R247, R498), a failed dealer (R467), and a sag with its hold-up save (R522 to R524). -/

namespace Sys2Proof.Machine

/-! ## Health scores (R458) -/

/-- The page counters that add to scores, with their page's instance, the part and the weight of one count (R458). -/
def healthCounters : List (Fld × Nat × Nat × Nat) :=
  (List.range 176).flatMap (fun p => [(R.SPM_CNT_ECC_CORR, p, p, 1), (R.SPM_CNT_ECC_UNCORR, p, p, 4096)]) ++
  (List.range 16).flatMap (fun n =>
    [(R.HBM_CNT_CORR, n, 176 + n, 1), (R.HBM_CNT_UNCORR_READ, n, 176 + n, 1024), (R.HBM_CNT_UNCORR_SCRUB, n, 176 + n, 1024)]) ++
  (List.range 8).flatMap (fun k =>
    [(R.DDR_CNT_CORR, k, 192 + k, 1), (R.DDR_CNT_UNCORR_READ, k, 192 + k, 1024), (R.DDR_CNT_UNCORR_SCRUB, k, 192 + k, 1024)]) ++
  (List.range 16).flatMap (fun q =>
    [(R.LNK_CNT_FEC_UNCORR, q, 200 + q, 2), (R.LNK_CNT_CRC, q, 200 + q, 2), (R.LNK_CNT_REPLAY, q, 200 + q, 4),
     (R.LNK_CNT_REDEAL, q, 200 + q, 256)])

/-- A last counter value of the health sample. -/
def State.sampled (s : State) (k : Nat) : Nat := SMap.get 0 s.flt.sample k

/-- A last counter value set. -/
def State.setSampled (s : State) (k v : Nat) : State := { s with flt := { s.flt with sample := SMap.set 0 s.flt.sample k v } }

/-- The increase of a counter since the last sample; one that reads lower counts from 0 (R458). -/
def State.increase (s : State) (f : Fld) (inst : Nat) : Nat :=
  let v := s.rd f inst
  let old := s.sampled (f.key inst 0)
  if v < old then v else v - old

/-- The increases since the last sample added to the scores by `add`, and the counters sampled (R458).  Of corrected FEC symbols,
what does not fill 65,536 is kept for the next sample (DEDUCED, log entry 31). -/
def State.foldCounters (s : State) (add : State → Nat → Nat → State) : State :=
  let s1 := healthCounters.foldl (fun s x =>
    (add s x.2.2.1 (x.2.2.2 * s.increase x.1 x.2.1)).setSampled (x.1.key x.2.1 0) (s.rd x.1 x.2.1)) s
  (List.range 16).foldl (fun s q =>
    let k := R.LNK_CNT_FEC_CORR.key q 0
    let n := s.increase R.LNK_CNT_FEC_CORR q + s.sampled (k + 1)
    ((add s (200 + q) (n / 65536)).setSampled k (s.rd R.LNK_CNT_FEC_CORR q)).setSampled (k + 1) (n % 65536)) s1

/-- HEALTH_SAMPLE (R458): once a second. -/
def execHealthSample (s : State) : Host.Outcome State Fault Refusal :=
  .next (if !s.dealerUp then s
    else
      let s1 := s.waitUntil (s.marks.sampleAt + 1000000000)
      ({ s1 with marks := { s1.marks with sampleAt := s1.tick } }).foldCounters State.addScore)

/-- A score without its decay (R458): that of a retired core. -/
def State.keepsScore (s : State) (part : Nat) : Bool := decide (part < 176) && s.retired part

/-- HEALTH_DECAY (R458): s − floor(s / 8) every DECAY_H hours, retired cores apart. -/
def execHealthDecay (s : State) : Host.Outcome State Fault Refusal :=
  .next (if !s.dealerUp then s
    else
      let h := if s.rd R.FLT_HEALTH_CFG = 0 then 3 else s.rd R.FLT_HEALTH_CFG
      let s1 := s.waitUntil (s.marks.decayAt + h * 3600000000000)
      (List.range 216).foldl (fun s part => if s.keepsScore part then s else s.setScore part (s.score part - s.score part / 8))
        { s1 with marks := { s1.marks with decayAt := s1.tick } })

/-- HEALTH_STORE (R458): once an hour. -/
def execHealthStore (s : State) : Host.Outcome State Fault Refusal :=
  .next (if !s.dealerUp then s
    else
      let s1 := s.waitUntil (s.marks.storeAt + 3600000000000)
      ({ s1 with marks := { s1.marks with storeAt := s1.tick } }).nvmStore 4)

/-- JOURNAL_STORE (R446): the journal has changed since it was stored. -/
def execJournalStore (s : State) : Host.Outcome State Fault Refusal :=
  .next (if !s.dealerUp || s.flt.dirtyAt.isNone then s
    else ({ s with flt := { s.flt with dirtyAt := none } }).nvmStore 5)

/-! ## Scrubbing (R232, R233, R242, R250) -/

/-- Whether the scrubber of a stack or channel runs; DDR_SCRUB of P0 governs every channel (R233, R250). -/
def State.scrubs (s : State) (ddr : Bool) (u : Nat) : Bool :=
  s.linkLive &&
  if ddr then decide (u < s.ddrChannels) && s.on R.DDR_STATUS_TIER_READY u && s.on R.DDR_SCRUB_SCRUB_EN 0
  else decide (u < 16) && s.on R.HBM_STATUS_TRAINED u && !s.on R.HBM_STATUS_SELF_REFRESH u && s.on R.HBM_CTRL_SCRUB_EN u

/-- A tier of the package. -/
def State.tier (s : State) (ddr : Bool) : Tier := if ddr then s.ddr else s.hbm

/-- A tier of the package replaced. -/
def State.setTier (s : State) (ddr : Bool) (t : Tier) : State := if ddr then { s with ddr := t } else { s with hbm := t }

/-- The error of a word as a scrub meets it: what it finds anew, or what is stored. -/
def foundErr (old : MemErr) : ScrubFind → MemErr
  | .clean => old
  | .transient => .corrected
  | .stuck => .hard
  | .uncorrectable => .uncorr

/-- One word scrubbed (R232, R233): a corrected word is written back, a hard error is counted again, and an uncorrectable one poisons
its tile and raises no fault. -/
def State.scrub (s : State) (ddr : Bool) (u word : Nat) (found : ScrubFind) : State :=
  if !s.scrubs ddr u || decide (s.unitWords ddr ≤ word) then s
  else
    let w := s.unitWord ddr u word
    let t := s.tier ddr
    let corr := if ddr then R.DDR_CNT_CORR else R.HBM_CNT_CORR
    match foundErr (SMap.get MemErr.none t.err w) found with
    | .none => s
    | .corrected => (s.setTier ddr (t.mark w .none)).bump corr u
    | .hard => (s.setTier ddr (t.mark w .hard)).bump corr u
    | .uncorr =>
      let tile := w / 128 * 4096
      let t1 := t.mark w .uncorr
      let s1 := (s.setTier ddr (t1.setSeal tile (sealSetPoison (t.sealAt tile)))).bump
        (if ddr then R.DDR_CNT_UNCORR_SCRUB else R.HBM_CNT_UNCORR_SCRUB) u
      (s1.eccRecord (if ddr then .ddr else .hbm) u w tile true).raiseEvt (if ddr then .ddr else .hbm) u 1 0x0105

/-- SCRUB_PASS (R233): one word of the pass. -/
def execScrubPass (ddr : Bool) (unit word : Nat) (found : ScrubFind) (s : State) : Host.Outcome State Fault Refusal :=
  .next (s.scrub ddr unit word found)

/-! ## Host reads that time out (R247, R403, R498) -/

/-- The operand of a started DMA instruction that lies in host memory and is read: the source, else the index list of DGATHER (R245, R247). -/
def ExecEntry.hostSlot (x : ExecEntry) : Option Nat :=
  let host (i : Nat) : Bool := (x.slots.getD i AdgSlot.zero).space == .host
  if x.word.op == some .dcopy || x.word.op == some .dgather then
    if host 0 then some 0 else if x.word.op == some .dgather && host 2 then some 2 else none
  else none

/-- The started DMA instruction of a core that reads host memory. -/
def Core.hostReader (c : Core) : Option ExecEntry :=
  ((List.range 9).flatMap (fun e => (c.engine e).exec)).find? (fun x => x.hostSlot.isSome)

/-- The bytes of one unit that a host read that fails leaves in the destinations of an instruction (R247): zeros; where it is the index list of
DGATHER that reads as zeros, the source unit of index 0 (R245). -/
def State.failedUnit (s : State) (p : Nat) (x : ExecEntry) : List Byte :=
  let u := unitBytes x.word.unit
  let src := x.slots.getD 0 AdgSlot.zero
  if x.hostSlot = some 2 then s.bytesAt p src.space (src.base % 2 ^ 64 / u * u) u else List.replicate u 0#8

/-- What a started instruction has written outside host memory as a host read that fails leaves it (R247).  The row names no read, so every
destination of the instruction is taken (DESIGN CHOICE, log entry 106). -/
def State.failedWrites (s : State) (p : Nat) (x : ExecEntry) : State :=
  let unit := s.failedUnit p x
  ((x.reqs.filter (·.write)).flatMap (fun r => r.segs.map (fun g => (r.space, g)))).foldl (fun s g =>
    s.store p g.1 (g.2.1, (unit.drop (g.2.1 % unit.length)).take g.2.2)) s

/-- A host read of a function times out (R498): its Completion Timeout Value has elapsed since the read, of which no row gives the moment, so the
clock runs on by a free time within it (DEDUCED, log entry 141); counted, and logged by AER. -/
def State.cplTimeout (s : State) (f : Nat) : State :=
  ((({ s with free := s.free + 1 }).waitUntil (s.tick + Config.freeNat s.free % ((s.fnCfg f).timeoutTicks + 1))).bump
    R.HIF_CNT_CPL_TIMEOUT).aerLog f 14

/-- A host read of a DMA instruction fails: zeros with the poison seal, and TILE_POISON at the reading core (R247). -/
def State.dmaReadFails (s : State) (p : Nat) (x : ExecEntry) : State :=
  let a := (x.slots.getD (x.hostSlot.getD 0) AdgSlot.zero).base
  let t : TileAt := ⟨.host, a / 4096 * 4096⟩
  let s1 := (((s.cplTimeout 0).bump R.DMA_CNT_HOST_ERR p).failedWrites p x).poisonTiles p x.wrote
  (s1.sealFault p 4 0x0105 4 x.word.engine 0 t poisonSeal true 0 x.pc).coreFault p 0x0105 x.word.engine x.pc 0 []

/-- A request whose prompt read failed ends with HOST_ERROR: at once when no dealing holds it, else when its dealing ends or
returns (R403, R408). -/
def State.promptFails (s : State) (r : Req) : State :=
  let s1 := s.cplTimeout r.fn
  if s1.held r then s1.onReq r.order (fun r => { r with ending := some 0x15 }) else s1.finish r 0x15 0

/-- The image rejected with a REASON (R514). -/
def State.fwReject (s : State) (reason : Nat) : State :=
  (s.wr R.HUB_FW_STATUS_STATE 4).wr R.HUB_FW_STATUS_REASON reason

/-- A life-cycle command refused with a REASON (R537). -/
def State.lcsRefuse (s : State) (reason : Nat) : State :=
  { (s.wr R.LCS_STATUS_STATE 3).wr R.LCS_STATUS_REASON reason with life := { s.life with op := none } }

/-- New nonce words after a SUBMIT (R528): free values. -/
def State.newNonce (s : State) : State :=
  { s with life := { s.life with nonce := (List.range 4).map (fun i => Config.freeNat (s.free + i) % 2 ^ 32) }, free := s.free + 4 }

/-- HOST_READ_TIMEOUT (R247, R403, R498, R514, R528): no effect where the named reader has no host read in progress. -/
def execHostReadTimeout (who : HostReader) (s : State) : Host.Outcome State Fault Refusal :=
  .next (match who with
    | .dma p =>
      match (s.core p).hostReader with
      | some x => if (s.core p).st == .faulted || !(s.up || s.pkg == .down) then s else s.dmaReadFails p x
      | none => s
    | .request f slot =>
      match s.reqs.find? (fun r => r.key == 512 * f.val + slot.val && !r.detached) with
      | some r => if s.dealerUp && r.entry.promptSpace != 1 then s.promptFails r else s
      | none => s
    | .rom =>
      if s.rd R.HUB_FW_STATUS_STATE = 1 ∨ s.rd R.HUB_FW_STATUS_STATE = 2 then (s.cplTimeout 0).fwReject 1 else s
    | .lcs =>
      match s.life.op with
      | some (.submit _) => (((s.cplTimeout 0).newNonce).lcsRefuse 1).resetIfDue
      | some .claim => ((s.cplTimeout 0).lcsRefuse 1).resetIfDue
      | some .cert => ((s.cplTimeout 0).lcsRefuse 0xA).resetIfDue
      | none => s)

/-! ## A failed dealer (R467) -/

/-- The message of a dealer-down (R467, R499). -/
def State.downMessage (s : State) : State := if s.on R.HIF_FUNC_BME 0 0 then s.msix 0 (s.rd R.AON_CFG_VECTOR) else s

/-- The steps that a failed dealer and a hub-only reset share (R467 steps 1, 2 and 6, R468): dealing stops, the journal is stored and
AON_DOWN_TIME recorded. -/
def State.dealerStop (s : State) : State :=
  let s1 := { s with pkg := .down, loading := none, trickIn := [], partnerIn := [] }
  let s2 := s1.wrPair R.AON_DOWN_TIME_LO R.AON_DOWN_TIME_HI s1.time
  { s2.nvmSuper 5 (s2.capture 5) with flt := { s2.flt with dirtyAt := none } }

/-- DEALER_LOCKSTEP (R467). -/
def State.dealerDown (s : State) (wdog : Bool) : State :=
  if !s.dealerUp then s
  else
    let s1 := s.jrnPut (JrnEntry.blank s 0x0B01 6)
    let s2 := (((s1.dealerStop.wr R.AON_STATUS_STATE 1).wr R.AON_STATUS_MISMATCH (ofBool !wdog)).wr R.AON_STATUS_WDOG (ofBool wdog)).bump
      R.AON_CNT_DOWN
    (s2.raiseEvt .aon 0 0 0x0B01).downMessage

/-- DEALER_WATCHDOG_EXPIRE (R467). -/
def execDealerWatchdogExpire (s : State) : Host.Outcome State Fault Refusal := .next (s.dealerDown true)

/-- LOCKSTEP_MISMATCH (R467). -/
def execLockstepMismatch (s : State) : Host.Outcome State Fault Refusal := .next (s.dealerDown false)

/-! ## Sag and hold-up save (R522 to R524, R548) -/

/-- The live supply bits of HUB_POWER_EVENT (R535); a low auxiliary input switches the PCI Express port off (R548). -/
def State.supply (s : State) (auxLow pwrFail : Bool) : State :=
  let s1 := (s.wr R.HUB_POWER_EVENT_AUX_LOW (ofBool auxLow)).wr R.HUB_POWER_EVENT_PWR_FAIL (ofBool pwrFail)
  if auxLow then s1.pcieDown else s1

/-- A life-cycle command in progress at a sag ends with nothing erased, burned or stored, for no such operation starts then (R522): it is refused
as R527 has it (DESIGN CHOICE, log entry 134). -/
def State.lcsCut (s : State) : State :=
  match s.life.op with
  | some (.submit _) => s.newNonce.lcsRefuse 9
  | some _ => s.lcsRefuse 9
  | none => s

/-- A sag (R522, R548, R549): the package stops, its memories in self-refresh; with neither supply bit the cause is MAIN_PG or a main rail, as
when the board removes the rails without lowering PWR_FAIL_N first.  A second sag during or after the save only changes the live bits (R523), as
does one after a trip, which changes no stored state (R552; DEDUCED, log entry 50). -/
def State.sag (s : State) (auxLow pwrFail : Bool) : State :=
  let s1 := s.supply auxLow pwrFail
  if s1.pkg = .held ∨ s1.pkg = .sagged ∨ s1.pkg = .tripped then s1
  else
    let s2 := (({ s1 with pkg := .sagged, loading := none, ddrSelf := true }).wr R.HUB_POWER_EVENT_SAG 1).lcsCut
    cDies.foldl (fun s d => s.wr R.HBM_STATUS_SELF_REFRESH 1 d) s2

/-- SAG_DETECT (R522, R548, R549). -/
def execSagDetect (auxLow pwrFail : Bool) (s : State) : Host.Outcome State Fault Refusal := .next (s.sag auxLow pwrFail)

/-- A weight added to a score with no threshold acting, as the supervisor folds it (R522). -/
def State.foldScore (s : State) (part w : Nat) : State := s.setScore part (min (s.score part + w) 0xFFFFFFFF)

/-- SAVE as a hold-up save writes it: TABLE_TIME, and bit 0 saved, bit 1 a thermal trip before it (R518, R524). -/
def State.saveData (s : State) : SMap Nat := SMap.setRun 0 [] 0 [s.time, 1 + 2 * ofBool (s.on R.PWR_STATUS_TRIPPED)]

/-- HOLDUP_SAVE_DONE (R522): after the store or fuse burn in progress, the increases go into the scores, and HEALTH, JOURNAL and SAVE
are stored, in that order. -/
def State.holdupSave (s : State) : State :=
  if s.pkg ≠ .sagged ∨ s.on R.HUB_POWER_EVENT_SAVE_DONE ∨ s.life.nvmNow.isSome ∨ s.life.op.isSome then s
  else
    let s1 := s.foldCounters State.foldScore
    let s2 := s1.nvmPut 4 (s1.capture 4)
    let s3 := s2.nvmPut 5 (s2.capture 5)
    (s3.nvmPut 7 s3.saveData).wr R.HUB_POWER_EVENT_SAVE_DONE 1

end Sys2Proof.Machine
end

