-- ==== Sys2Proof/Machine/Pcie.lean ====
section
/-! DEFINITION. The functions of the PCI Express port as the host sees them: configuration spaces (R474 to R476, R498), the regions of BAR4 with
request logs, MSI-X tables and pending bits (R381, R477, R478, R486), and MSI-X masks (R499). -/

namespace Sys2Proof.Machine

/-! ## Configuration spaces (R474 to R477) -/

/-- The writable address bits of a BAR register: BAR0 of 256 MiB, BAR2 of 64 GiB and BAR4 of 16 MiB, of 64 bits each; of a virtual function's
only BAR4, of 1 MiB (R477). -/
def barMask (vf : Bool) (i : Nat) : Nat :=
  match vf, i with
  | false, 0 => 0xF0000000
  | false, 1 => 0xFFFFFFFF
  | false, 3 => 0xFFFFFFF0
  | false, 4 => 0xFF000000
  | false, 5 => 0xFFFFFFFF
  | true, 4 => 0xFFF00000
  | true, 5 => 0xFFFFFFFF
  | _, _ => 0

/-- The type bits of a BAR register: 64 bits wide, and BAR2 prefetchable (R477). -/
def barType (vf : Bool) (i : Nat) : Nat :=
  match vf, i with
  | false, 0 => 0x4
  | false, 2 => 0xC
  | _, 4 => 0x4
  | _, _ => 0

/-- The identifiers of the capabilities of R474 in its order, the first three of the standard list and the others of the extended one, as the
standard numbers them (PRESUMED, log entry 141). -/
def capabilityIds : List Nat := [0x10, 0x01, 0x11, 0x0001, 0x000E, 0x0010, 0x0025, 0x0026, 0x002A, 0x0031, 0x0027]

/-- A configuration register of a function as it reads (R474 to R477, R498 to R501, R504).  What the table of R474 does not give reads 0; the places
of the fields in a register are the standard's (PRESUMED, log entry 141). -/
def State.cfgRead (s : State) (f : Nat) (r : CfgReg) : Nat :=
  let x := s.fnCfg f
  let pf (v : Nat) : Nat := if f = 0 then v else 0
  match r with
  | .id => if f = 0 then Config.vendorId.toNat + 2 ^ 16 * 0x0250 else 0xFFFFFFFF
  | .command => 2 * s.rd R.HIF_FUNC_MSE 0 f * ofBool (f == 0) + 4 * s.rd R.HIF_FUNC_BME 0 f + 2 ^ 20
  | .classCode => s.rd R.HUB_GRADE_STEP_MINOR + 16 * s.rd R.HUB_GRADE_STEP_MAJOR + 2 ^ 8 * 0x120000
  | .bar i => pf (x.bars.getD i 0 + barType false i)
  | .vfBar i => pf (x.vfBars.getD i 0 + barType true i)
  | .subsystem => s.subsys
  | .capability i => capabilityIds.getD i 0
  | .power => 3 * s.rd R.HIF_FUNC_D3HOT 0 f + 8
  | .devCap => 2 + 2 ^ 28
  | .devCtl => 2 ^ 5 * x.mps + 2 ^ 12 * x.mrrs
  | .devCap2 => Config.timeoutRanges.toNat + 2 ^ 16 + 2 ^ 17
  | .devCtl2 => x.timeout
  | .linkCap => 6 + 2 ^ 4 * 16 + 2 ^ 10 * 2
  | .linkCtl => x.aspm + 2 ^ 16 * s.rd R.HIF_LINK_SPEED + 2 ^ 20 * s.rd R.HIF_LINK_WIDTH
  | .msixCtl => 2 ^ 16 * (msixSize f - 1) + 2 ^ 30 * ofBool (SMap.get false s.msixFnMask f) + 2 ^ 31 * s.rd R.HIF_FUNC_MSIX_EN 0 f
  | .msixTable => 0x80000 + 4
  | .msixPba => 0x88000 + 4
  | .sriovVfs => pf (15 + 2 ^ 16 * 15)
  | .sriovCtl => pf (ofBool x.vfEnable + 8 * ofBool x.vfMse)
  | .sriovNum => pf x.numVfs
  | .sriovOffset => pf (1 + 2 ^ 16)
  | .sriovDevice => pf (2 ^ 16 * 0x0251)
  | .aer => x.aer

/-- Memory Space Enable of the virtual functions, one bit in the physical function's SR-IOV capability (R475, R504). -/
def State.vfMse (s : State) (on : Bool) : State :=
  ((List.range 16).foldl (fun s f => if 1 ≤ f ∧ s.fnPresent f then s.wr R.HIF_FUNC_MSE (ofBool on) 0 f else s) s).onFn 0
    (fun x => { x with vfMse := on })

/-- A write of a configuration register (R475 to R477, R498 to R500, R504): what the register does not let software change stays.  Initiating a
function-level reset is a row of its own. -/
def State.cfgWrite (s : State) (f : Nat) (r : CfgReg) (v : Nat) : State :=
  match r with
  | .command =>
    let s1 := s.wr R.HIF_FUNC_BME (bitsOf v 2 1) 0 f
    if f = 0 then s1.wr R.HIF_FUNC_MSE (bitsOf v 1 1) 0 f else s1
  | .bar i => if f = 0 then s.onFn 0 (fun x => { x with bars := x.bars.set i (v &&& barMask false i) }) else s
  | .vfBar i => if f = 0 then s.onFn 0 (fun x => { x with vfBars := x.vfBars.set i (v &&& barMask true i) }) else s
  | .power =>
    if bitsOf v 0 2 = 0 then s.wr R.HIF_FUNC_D3HOT 0 0 f
    else if bitsOf v 0 2 = 3 ∧ s.rd R.HIF_FUNC_D3HOT 0 f = 0 then s.enterD3hot f
    else s
  | .devCtl => s.onFn f (fun x => { x with mps := bitsOf v 5 3, mrrs := bitsOf v 12 3 })
  | .devCtl2 => s.onFn f (fun x => { x with timeout := bitsOf v 0 4 })
  | .linkCtl => s.onFn f (fun x => { x with aspm := 2 * bitsOf v 1 1 })
  | .msixCtl => s.msixControl f (bitOf v 31) (bitOf v 30)
  | .sriovCtl =>
    if f ≠ 0 then s
    else
      let s1 := if !bitOf v 0 then s.disableVfs 1
        else if (s.fnCfg 0).vfEnable then s else s.enableVfs (s.fnCfg 0).numVfs
      s1.vfMse (bitOf v 3)
  | .sriovNum =>
    let n := min 15 (bitsOf v 0 16)
    if f ≠ 0 then s
    else if !(s.fnCfg 0).vfEnable then s.onFn 0 (fun x => { x with numVfs := n })
    else if n < (s.fnCfg 0).numVfs ∧ 0 < n then s.disableVfs (n + 1)
    else if n = 0 then (s.disableVfs 1).onFn 0 (fun x => { x with numVfs := 0 })
    else s
  | .aer => s.onFn f (fun x => { x with aer := x.aer - (x.aer &&& v) })
  | .id | .classCode | .subsystem | .capability _ | .devCap | .devCap2 | .linkCap | .msixTable | .msixPba | .sriovVfs | .sriovOffset
  | .sriovDevice => s

/-- A configuration read: of a function that is not there as an Unsupported Request, all ones (R475, R486). -/
def State.configLoad (s : State) (f : Nat) (r : CfgReg) : State :=
  if !s.pcieUp then s else s.emit (.readData (if s.fnPresent f then s.cfgRead f r else 0xFFFFFFFF))

/-- A configuration write (R475, R486). -/
def State.configStore (s : State) (f : Nat) (r : CfgReg) (v : Nat) : State := if s.pcieUp && s.fnPresent f then s.cfgWrite f r v else s

/-! ## The regions of BAR4 (R381, R477, R478, R486, R499) -/

/-- A word of an MSI-X table entry as it reads: address, data, and the vector's mask. -/
def State.msixRead (s : State) (f e w : Nat) : Nat :=
  if w = 3 then ofBool (SMap.get true s.msixMask (2048 * f + e)) else SMap.get 0 s.msixEntry (4 * (2048 * f + e) + w)

/-- A word of an MSI-X table entry written (R499): a vector that is no longer masked sends what it holds. -/
def State.msixWrite (s : State) (f e w v : Nat) : State :=
  if w = 3 then ({ s with msixMask := SMap.set true s.msixMask (2048 * f + e) (bitOf v 0) }).unmaskSend f e
  else { s with msixEntry := SMap.set 0 s.msixEntry (4 * (2048 * f + e) + w) (if w = 0 then v / 4 * 4 else v) }

/-- The pending bits of 32 entries of a function from entry `e` on. -/
def State.pendWord (s : State) (f e : Nat) : Nat :=
  ((List.range 32).map (fun i => 2 ^ i * ofBool (SMap.get false s.msixPend (2048 * f + e + i)))).sum

/-- The region that an offset of a function's BAR4 lies in: the physical function's holds one of each function (R477). -/
def regionOf (f off : Nat) : Nat := if f = 0 then off / 2 ^ 20 else f

/-- A word of BAR4 of a function as it reads (R478): the request log and its control line, in the function's own region the MSI-X table and its
pending bits, and 0 elsewhere. -/
def State.bar4Word (s : State) (f off : Nat) : Nat :=
  let o := off % 2 ^ 20
  let own := regionOf f off == f
  if o < 0x10040 then (s.func (regionOf f off)).logAt o 4
  else if own ∧ 0x80000 ≤ o ∧ o < 0x80000 + 16 * msixSize f then s.msixRead f ((o - 0x80000) / 16) (o % 16 / 4)
  else if own ∧ 0x88000 ≤ o ∧ o < 0x88000 + msixSize f / 8 then s.pendWord f (8 * (o - 0x88000))
  else 0

/-- A host read of a word of BAR4 (R486): answered in the normal state and in a dealer-down, else all ones. -/
def State.bar4Load (s : State) (f off : Nat) : State :=
  if !s.fnReached f then s else s.emit (.readData (if s.dealerUp || s.pkg == .down then s.bar4Word f off else 0xFFFFFFFF))

/-- A host write of a word of BAR4 (R478, R479, R486): dropped but in the normal state, and at a reserved offset. -/
def State.bar4Store (s : State) (f off v : Nat) : State :=
  let o := off % 2 ^ 20
  if !s.fnReached f || !s.dealerUp then s
  else if o < 0x10040 then s.logWrite (regionOf f off) o (leBytes 4 v)
  else if regionOf f off = f ∧ 0x80000 ≤ o ∧ o < 0x80000 + 16 * msixSize f then s.msixWrite f ((o - 0x80000) / 16) (o % 16 / 4) v
  else s

/-- MSIX_UNMASK (R499): a vector's mask in the table of the function's BAR4, which takes writes only while the firmware runs (R486) and the function
is not in D3hot (R476), or the function mask in configuration space. -/
def execMsixUnmask (f : Fin 16) (entry : Option (Fin 2048)) (s : State) : Host.Outcome State Fault Refusal :=
  .next (match entry with
    | some e => if s.dealerUp && s.fnReached f && decide (e.val < msixSize f) then s.msixWrite f e 3 0 else s
    | none => if s.pcieUp && s.fnPresent f then s.msixControl f (s.on R.HIF_FUNC_MSIX_EN 0 f) false else s)

end Sys2Proof.Machine
end

