-- ==== Sys2Proof/Machine/Startup.lean ====
section
/-! DEFINITION. Resets and bring-up (R505 to R517): package reset and its release, the PCI Express link, hub-only reset, the results
of self-tests and trainings, and the firmware. -/

namespace Sys2Proof.Machine

/-! ## Package reset (R505 to R507) -/

/-- PACKAGE_RESET (R505, R506): by power-on at once, by PERST_N after an operation that it must not cut short. -/
def execPackageReset (perst : Bool) (s : State) : Host.Outcome State Fault Refusal :=
  .next (if perst && s.perstWaits then { s with life := { s.life with resetDue := some true } } else s.resetNow perst)

/-- HOLDUP_SAVE_DONE (R506, R522). -/
def execHoldupSaveDone (s : State) : Host.Outcome State Fault Refusal := .next s.holdupSave.resetIfDue

/-! ## Stage 1 (R508, R519) -/

/-- Every section sensed (R519): its stored value chosen, and a lost one counted. -/
def State.senseAll (s : State) : State :=
  (List.range 10).foldl (fun s n =>
    if n = 0 then s
    else
      let x := (s.sect n).sense n
      let s1 := s.setSect n x
      if x.failed then s1.bump R.NVM_CNT_DIGEST_FAIL else s1) s

/-- The NV fields of a section take their stored values, or their Reset values when it is blank (R7, R519). -/
def State.loadFields (s : State) (n : Nat) : State :=
  let v := (s.sect n).value
  (nvFields n).foldl (fun s f =>
    s.wr f.1 (match v with
      | some b => SMap.get 0 b.data (f.1.key f.2.1 f.2.2)
      | none => nvReset f.1 f.2.2) f.2.1 f.2.2) s

/-- The equaliser seeds as stored; none while the section is blank (R518, R519). -/
def State.loadSeeds (s : State) : State :=
  { s with life := { s.life with seeds := (List.range 16).foldl (fun m p =>
      SMap.set 0 m p ((((s.sect 2).value).map (fun b => SMap.get 0 b.data (seedKey p))).getD 0)) [] } }

/-- Joker maps as stored, or by R16 (R466). -/
def State.loadMaps (s : State) : State :=
  match (s.sect 1).value with
  | some b =>
    { s with flt := { s.flt with maps := (List.range 16).map (fun d => JokerMap.ofWords (SMap.get 0 b.data (2 * d)) (SMap.get 0 b.data (2 * d + 1))) } }
  | none => { s with flt := { s.flt with maps := s.fuses.cores.map (fun w => JokerMap.ofFuse s.fuses.lcores w) } }

/-- The HI latches of the joker maps take their Reset value, the map as it now is (R466, R482). -/
def State.latchMaps (s : State) : State :=
  { s with latches := (List.range 16).foldl (fun m d => SMap.set noLatch m (Block.page .hub 0 + 0x100 + 8 * d) (s.jmap d).hi) s.latches }

/-- The stored scores, journal and its count (R446, R458). -/
def State.loadRecords (s : State) : State :=
  let s1 := match (s.sect 4).value with
    | some b => { s with flt := { s.flt with health := b.data } }
    | none => s
  match (s.sect 5).value with
  | some b =>
    let es := (List.range 4096).foldl (fun m i =>
      SMap.set JrnEntry.zero m i (JrnEntry.ofWords (fun k => SMap.get 0 b.data (8 + 8 * i + k)))) []
    ({ s1 with flt := { s1.flt with jrn := es } }).wr R.FLT_JRN_COUNT (SMap.get 0 b.data 0)
  | none => s1

/-- The identity key as IDENTITY holds it (R518, R530): the public key, the secret key from index 2,048 on, and the certificate chain from index
4,096 on. -/
def identityData (key secret chain : List Byte) : SMap Nat :=
  SMap.setRun 0 (SMap.setRun 0 (bytesData key) 2048 (secret.length :: secret.map (·.toNat))) 4096 (chain.length :: chain.map (·.toNat))

/-- The secret key as IDENTITY holds it. -/
def secretData (d : SMap Nat) : List Byte := (SMap.getRun 0 d 2049 (SMap.get 0 d 2048)).map (BitVec.ofNat 8)

/-- A byte string of a length that the spec gives. -/
def fixedBytes (n : Nat) (bs : List Byte) : List Byte := (List.range n).map (fun i => bs.getD i 0#8)

/-- The stored certificate chain (R531). -/
def State.chain (s : State) : List Byte :=
  match (s.sect 8).value with
  | some b => (SMap.getRun 0 b.data 4097 (SMap.get 0 b.data 4096)).map (BitVec.ofNat 8)
  | none => []

/-- The stored owner key hash, if any (R529). -/
def State.ownerKey (s : State) : Option (List Byte) := ((s.sect 9).value).map (fun b => dataBytes b.data)

/-- The identity key at a package reset (R530): the stored one, or, in PROVISION, a new pair that the security engine stores: the secret key, held
as its 32-byte seed, is a free value, and the public key follows from it (log entry 5). -/
def State.loadIdentity (s : State) : State :=
  match (s.sect 8).value with
  | some b => { s with life := { s.life with identity := some (dataBytes b.data), secret := secretData b.data } }
  | none =>
    if s.life.lcs = .provision then
      let x := leBytes 32 (Config.freeNat s.free)
      let k := fixedBytes 1952 (Config.mldsaPublic x)
      ({ s with free := s.free + 1, life := { s.life with identity := some k, secret := x } }).nvmAsk
        ⟨8, true, .security, identityData k x []⟩
    else s

/-- The registers that show SAVE (R535). -/
def State.loadSave (s : State) : State :=
  let t := ((s.sect 7).value.map (fun b => SMap.get 0 b.data 0)).getD 0
  let s1 := s.wrPair R.HUB_LAST_TIME_LO R.HUB_LAST_TIME_HI t
  { s1 with latches := SMap.set noLatch s1.latches (Block.page .hub 0 + 0x0C0) (t / 2 ^ 32) }

/-- RESET_RELEASE (R475, R505, R508, R547): stage 1 begins: sections sensed, fields and records taken from them, a new nonce (R528).  That PERST_N and
MAIN_PG are high and 100 µs have passed is what the row says; without SYSREF the package stays in reset. -/
def execResetRelease (s : State) : Host.Outcome State Fault Refusal :=
  .next (if s.pkg ≠ .held ∨ s.osc = true then s
    else
      let s1 := ({ s with pkg := .running }).senseAll
      let s2 := [2, 3, 6].foldl State.loadFields s1
      let s3 := { s2 with subsys := s2.rd R.HIF_SUBSYS_SVID + 2 ^ 16 * s2.rd R.HIF_SUBSYS_SSID }
      (s3.loadSeeds.loadMaps.latchMaps.loadRecords.loadSave.loadIdentity).newNonce)

/-- A function's configuration space as software sets it (R475, R504). -/
def State.configure (s : State) (c : FnConfig) : State :=
  let b (f : Fld) (v : Bool) (s : State) : State := s.wr f (ofBool v) 0 c.fn
  let s1 := if c.fn = 0 then s
    else (b R.HIF_FUNC_PRESENT c.exist s).onFn 0 (fun x => if c.exist then { x with vfEnable := true, numVfs := max x.numVfs c.fn } else x)
  (b R.HIF_FUNC_BME c.bme (b R.HIF_FUNC_MSE c.mse (b R.HIF_FUNC_D3HOT false s1))).msixControl c.fn c.msixEn c.masked

/-- Whether a link has a speed, width and mode of R474. -/
def linkOk (speed width : Nat) (flitMode : Bool) : Bool :=
  decide (1 ≤ speed) && decide (speed ≤ 6) && [1, 2, 4, 8, 16].contains width && (flitMode || speed != 6)

/-- PCIE_LINK_UP (R474, R504, R508): stage 1 completes; the functions that configuration software sets up are brought with the command
(DESIGN CHOICE, log entry 33). -/
def execPcieLinkUp (speed : Fin 16) (width : Fin 32) (flitMode : Bool) (config : List FnConfig) (s : State) :
    Host.Outcome State Fault Refusal :=
  .next (if s.pkg = .held || !linkOk speed width flitMode || (s.pkg == .sagged && s.on R.HUB_POWER_EVENT_AUX_LOW) then s
    else
      let s1 := ((s.wr R.HIF_LINK_SPEED speed).wr R.HIF_LINK_WIDTH width).wr R.HIF_LINK_FLIT (ofBool flitMode)
      (config.foldl State.configure (s1.wr R.HUB_BRINGUP_STATUS_AON_PCIE 1)).stages)

/-! ## Hub-only reset (R468, R469) -/

/-- Whether a field returns to its reset value in a hub-only reset (R6, R468, R469; DEDUCED, log entry 34): plain RW fields of the hub
pages other than AON, WSL, DPL and RTE, and every field but NV ones of the pages that show the plan, tricks, partner mode, digests and
serving. -/
def Fld.hubCleared (f : Fld) : Bool :=
  match f.blk with
  | .pln | .trk | .xpk | .sdg | .srv => f.acc != .nv && f.acc != .rws
  | .hub | .hif | .att | .nvm | .lcs | .pwr | .flt | .tim => f.acc == .rw
  | _ => false

/-- The hub blocks. -/
def hubBlocks : List Block :=
  [.hub, .aon, .pln, .hif, .att, .nvm, .lcs, .srv, .wsl, .dpl, .pwr, .flt, .tim, .trk, .xpk, .sdg, .rte]

/-- Keys of the fields that a hub-only reset clears. -/
def hubKeys : List Nat :=
  (hubBlocks.flatMap Fld.ofBlock).flatMap (fun f => if f.hubCleared then (List.range f.count).map (fun k => f.key 0 k) else [])

/-- A core after its dealing is discarded: contents of the scratchpad stay (R468), and a hand cut off did not end at a checkpoint trick
(R129). -/
def Core.undealt (c : Core) : Core :=
  { c with st := .idle, halted := false, frames := [], member := none, trick := .none, resumeAt := none, eng := [], loops := [],
           windows := [], report := none, arrivedAt := none, signalDue := none, dummy := 0, paceGoal := 16,
           ckptEnd := c.ckptEnd && c.member.isNone }

/-- What a hub-only reset discards (R468), and the slots and seats as R469 leaves them. -/
def State.discard (s : State) : State :=
  { s with
    regs := hubKeys.foldl (fun m k => SMap.clear m k (k + 1)) s.regs
    latches := s.latches.filter (fun e => !hubKeys.contains (e.1 * 32))
    cores := s.cores.map (fun e => (e.1, e.2.undealt))
    image := none
    loading := none
    done := []
    dealt := []
    wheels := []
    groups := []
    trickIn := []
    partnerIn := []
    partner := PartnerSt.reset
    digests := []
    timing := { s.timing with held := [] }
    funcs := []
    reqs := []
    kvUsed := []
    wcmd := none
    wslots := s.wslots.map (fun x => if x.st = .retiring then { x with st := .free, epoch := 0 } else x)
    seats := s.seats.map (fun e => (e.1, if e.2.st = .retired then { e.2 with st := .free } else e.2))
    power := { s.power with bids := [], bidUse := 0 }
    flt := { s.flt with
      due := false, running := none
      midRound := (s.flt.midRound.filter (fun e => (s.core e.1).member.isNone)).map (fun e => (e.1, none)) ++
        ((List.range 176).filter (fun p => (s.core p).member.isSome && s.flt.running != some p)).map (fun p => (p, none)) }
    life := { s.life with mFw := [], mPlan := [], plans := 0, attOp := none, attData := [] } }

/-- HUB_RESET (R468, R473): from the normal state the supervisor first takes the steps of R467, its journal entry among them (log entry 34),
without DEALER_LOCKSTEP.  The seats that fall free are counted (R380, R469), and a weight-slot command that waited is no longer there:
WSL_CMD_STATUS reads idle (DESIGN CHOICE, log entry 34). -/
def State.hubReset (s : State) : State :=
  if s.pkg ≠ .running ∧ s.pkg ≠ .down then s
  else
    let s1 := if s.pkg = .running then ((s.jrnPut (JrnEntry.blank s 0 6)).dealerStop).downMessage else s
    let freed := (s1.seats.filter (fun e => e.2.st == .retired)).length
    let s2 := (({ s1 with pkg := .hubReset }).discard).bumpBy R.DPL_CNT_FREED freed
    let s3 := (((s2.wr R.AON_STATUS_STATE 2).bump R.AON_CNT_HUB_RESET).wr R.HUB_RESET_CAUSE_CAUSE 2).wr R.HUB_BRINGUP_STATUS_FIRMWARE 0
    let s4 := (((s3.wr R.HUB_FW_STATUS_STATE 0).wr R.HUB_FW_STATUS_REASON 0).wr R.HUB_FW_VERSION 0).wr R.HUB_FW_SVN_SVN 0
    let s5 := if s.wcmd.isSome then s4.wslStatus 0 0 else s4
    ((((s5.wr R.FLT_STATUS_PLAN_STOPPED 0).wr R.ATT_STATUS_STATE 0).wr R.ATT_STATUS_LENGTH 0).wr R.PWR_BID_RESERVED_W 0).stages

/-- HUB_RESET (R468, R473). -/
def execHubReset (s : State) : Host.Outcome State Fault Refusal := .next (s.hostCmd .aon 0 State.hubReset)

/-- HUB_RESET_DONE (R468): bring-up goes on from stage 2. -/
def execHubResetDone (s : State) : Host.Outcome State Fault Refusal :=
  .next (if s.pkg = .hubReset then ({ s with pkg := .running }).wr R.AON_STATUS_STATE 0 else s)

/-! ## Self-tests and trainings (R509 to R511, R236 to R241) -/

/-- A one-bit entry of HUB_BRINGUP_DIES set. -/
def State.dieBit (s : State) (f : Fld) (d : Nat) (ok : Bool) : State :=
  if ok then s.wr f (s.rd f ||| 2 ^ d) else s

/-- Marked cores of a die that hold logical cores. -/
def State.markedOn (s : State) (d : Nat) : Nat :=
  ((List.range 11).filter (fun c => SMap.get 0 s.flt.marked (11 * d + c) != 0)).length

/-- BIST_DONE (R509): failing cores are marked; the die passes when its shared logic passes and it can hold every logical core, else
it stays gated.  Cores marked for their scores alone stay in service without a joker and fail no die (R464, R465; DEDUCED, log entry 138). -/
def State.bist (s : State) (d : Nat) (shared : Bool) (failing : List Nat) : State :=
  if !s.dealerUp || !s.awake d || (s.die d).tested then s
  else
    let s1 := (failing.filter (fun c => decide (c < 11))).foldl (fun s c => s.markCore (11 * d + c) 0x0C01) s
    let failed := failing.any (fun c => decide (c < 11) && SMap.get 0 s1.flt.marked (11 * d + c) != 0)
    let fits := !failed || decide (s1.markedOn d ≤ (s1.jmap d).jokers)
    let ok := shared && fits
    let s2 := if fits then s1 else s1.noJoker d
    let s3 := s2.onDie d (fun x => { x with tested := true, passed := ok, power := if ok then x.power else .gated })
    ((if ok then s3 else s3.wr R.PWR_DIE_GATED 1 0 d).dieBit R.HUB_BRINGUP_DIES_BIST_OK d ok).stages

/-- BIST_DONE (R509). -/
def execBistDone (die : Fin 16) (shared : Bool) (failing : List Nat) (s : State) : Host.Outcome State Fault Refusal :=
  .next (s.bist die shared failing)

/-- A stack or tier range made untouched: every seal the poison seal, its content open (R236, R241). -/
def Tier.untouched (t : Tier) (lo hi : Nat) : Tier :=
  { bytes := SMap.clear t.bytes lo hi, seals := SMap.clear t.seals (lo / 4096) (hi / 4096), err := SMap.clear t.err (lo / 32) (hi / 32) }

/-- HBM_TRAINING_DONE (R236, R508, R511). -/
def execHbmTrainingDone (die : Fin 16) (ok : Bool) (s : State) : Host.Outcome State Fault Refusal :=
  let x := s.die die
  .next (if !s.dealerUp || !s.awake die || !x.passed || x.memDone then s
    else
      let s1 := s.onDie die (fun x => { x with memDone := true, trained := ok })
      let s2 := (s1.wr R.HBM_STATUS_TRAINED (ofBool ok) die).wr R.HBM_STATUS_FAILED (ofBool (!ok)) die
      let s3 := if ok then { s2 with hbm := s2.hbm.untouched (die * 2 ^ 36) ((die + 1) * 2 ^ 36) } else s2
      (s3.dieBit R.HUB_BRINGUP_DIES_HBM_OK die ok).stages)

/-- Rates [MT/s] of a supported DIMM, highest first; none for another (R238). -/
def dimmRates (r : DimmReport) : List Nat :=
  if r.mrdimm then (if r.ranks = 2 ∧ [32, 64, 128, 256].contains r.gib then [8800, 8000] else [])
  else if r.ranks = 1 ∨ r.ranks = 2 then (if [16, 24, 32, 48, 64, 96, 128].contains r.gib then [6400, 5600, 4800] else [])
  else if r.ranks = 4 then (if [128, 192, 256].contains r.gib then [5600, 4800] else [])
  else []

/-- The report of a channel that gives none. -/
def noDimm : DimmReport := ⟨false, false, false, 0, 0, 0⟩

/-- Whether a DIMM is there, is of R238, can run at a rate of R238, and has the type, capacity and ranks of channel 0's (R239). -/
def dimmFits (first r : DimmReport) : Bool :=
  r.present && r.mrdimm == first.mrdimm && r.gib == first.gib && r.ranks == first.ranks && (dimmRates r).any (fun v => decide (v ≤ r.speed))

/-- The rate of the tier (R239): the highest that every fitting DIMM of a used channel supports and that MAX_RATE admits; 0: none.  A
DIMM that does not fit fails its own channel and sets no rate (R241; DEDUCED, log entry 35). -/
def tierRate (rs : List DimmReport) (maxRate : Nat) : Nat :=
  let first := rs.headD ⟨false, false, false, 0, 0, 0⟩
  let there := rs.filter (dimmFits first)
  ((dimmRates first).find? (fun v => decide (v ≤ 100 * maxRate) && there.all (fun r => decide (v ≤ r.speed)))).getD 0

/-- Whether a channel of the tier trains (R238, R239, R241): a supported DIMM of the type, capacity and ranks of channel 0's, and its
own training (DEDUCED, log entry 35). -/
def channelOk (first r : DimmReport) (rate : Nat) : Bool :=
  dimmFits first r && r.ok && (dimmRates r).contains rate

/-- One DDR page after training (R251). -/
def State.ddrPage (s : State) (k : Nat) (r : DimmReport) (used ok ready : Bool) (rate cap : Nat) : State :=
  let s1 := ((s.wr R.DDR_STATUS_PRESENT (ofBool r.present) k).wr R.DDR_STATUS_MRDIMM (ofBool (r.present && r.mrdimm)) k).wr R.DDR_STATUS_SIZE
    (if r.present then r.gib / 8 else 0) k
  let s2 := ((s1.wr R.DDR_STATUS_TRAINED (ofBool (used && ok)) k).wr R.DDR_STATUS_FAILED (ofBool (used && !ok)) k).wr R.DDR_STATUS_RATE
    (if used && ok then rate / 100 else 0) k
  (s2.wr R.DDR_STATUS_TIER_READY (ofBool ready) k).wrPair R.DDR_CAPACITY_LO R.DDR_CAPACITY_HI cap k

/-- DDR_TRAINING_DONE (R238 to R241): the results by channel; with no DIMM on channel 0 the tier is absent and nothing fails (R508). -/
def State.ddrDone (s : State) (results : List DimmReport) : State :=
  if !s.dealerUp || !s.life.ddrTrain then s
  else
    let r (k : Nat) : DimmReport := results.getD k noDimm
    let c := s.ddrAsked
    let rs := (List.range c).map r
    let there := (r 0).present
    let rate := tierRate rs (s.rd R.DDR_CFG_MAX_RATE)
    let oks := rs.map (fun x => channelOk (r 0) x rate)
    let ready := there && oks.all id
    let cap := if ready then c * (r 0).gib * 2 ^ 30 / 512 * 511 else 0
    let s1 := { s with ddr := Tier.reset, life := { s.life with ddrTrain := false } }
    let s2 := (List.range 8).foldl (fun s k =>
      if k < c then s.ddrPage k (r k) there (oks.getD k false) ready rate cap
      else s.ddrPage k noDimm false false ready rate cap) s1
    (s2.wr R.HUB_BRINGUP_STATUS_DDR5 1).stages

/-- DDR_TRAINING_DONE (R241). -/
def execDdrTrainingDone (results : List DimmReport) (s : State) : Host.Outcome State Fault Refusal := .next (s.ddrDone results)

/-- DDR_RETRAIN (R241): not while a hand with FEATURES.DDR5 is dealt; the contents are discarded. -/
def execDdrRetrain (s : State) : Host.Outcome State Fault Refusal :=
  .next (s.hostCmd .ddr 0 (fun s =>
    if s.dealings.any (fun d => (s.dealHdr d.2).ddr5) then s
    else
      let s1 := (List.range 8).foldl (fun s k => s.ddrPage k noDimm false false false 0 0) s
      { s1 with ddr := Tier.reset, life := { s1.life with ddrTrain := true } }))

/-- ANCHOR_SELFTEST_DONE (R508, R510): failing cores are marked. -/
def execAnchorSelftestDone (die : Fin 16) (failing : List Nat) (s : State) : Host.Outcome State Fault Refusal :=
  let x := s.die die
  .next (if !s.dealerUp || !x.passed || !x.trained || x.anchored then s
    else
      ((((failing.filter (fun c => decide (c < 11))).foldl (fun s c => s.markCore (11 * die.val + c) 0x0C01) s).onDie die
        (fun x => { x with anchored := true }))).stages)

/-- LINK_WAIT_EXPIRE (R508): stage 5 completes LINK_WAIT after the start of Evkai training. -/
def execLinkWaitExpire (s : State) : Host.Outcome State Fault Refusal :=
  .next (if !s.dealerUp || s.on R.HUB_BRINGUP_STATUS_EVKAI then s
    else
      let w := if s.rd R.HUB_BRINGUP_CFG = 0 then 0x01F4 else s.rd R.HUB_BRINGUP_CFG
      ((s.waitUntil (s.marks.linkAt + 1000000 * w)).wr R.HUB_BRINGUP_STATUS_EVKAI 1).stages)

/-! ## Firmware (R512 to R514) -/

/-- GO (R512): acts while STATE is waiting or rejected. -/
def execGo (s : State) : Host.Outcome State Fault Refusal :=
  .next (s.hostCmd .hub 0 (fun s =>
    if s.pkg = .running ∧ (s.rd R.HUB_FW_STATUS_STATE = 0 ∨ s.rd R.HUB_FW_STATUS_STATE = 4) then
      (s.wr R.HUB_FW_STATUS_STATE 1).wr R.HUB_FW_STATUS_REASON 0
    else s))

/-- Bytes `i` to `i + n − 1` of a byte list. -/
def slice (bs : List Byte) (i n : Nat) : List Byte := (bs.drop i).take n

/-- A little-endian field of a byte list. -/
def field (bs : List Byte) (i n : Nat) : Nat := leNat (slice bs i n)

/-- Whether a range of bytes is 0. -/
def zeroAt (bs : List Byte) (i n : Nat) : Bool := (slice bs i n).all (fun b => b == 0#8)

/-- The code of a life-cycle state (R525). -/
def Lcs.code : Lcs → Nat
  | .raw => 0
  | .test => 1
  | .provision => 2
  | .field => 3
  | .fieldDebug => 4
  | .ret => 5
  | .void => 6

/-- The first 32 bytes of SHAKE256 of a message. -/
def digest32 (m : List Byte) : List Byte := shake256 32 m

/-- Whether a key is an unrevoked firmware key (R514). -/
def Fuses.fwKeyOk (f : Fuses) (key : List Byte) : Bool :=
  f.fwKeys.zipIdx.any (fun k => k.1 == digest32 key && !f.revoked.contains k.2)

/-- The REASON for which the boot ROM rejects an image, 0 when it accepts it (R513, R514); the length has been checked. -/
def State.fwReason (s : State) (bs : List Byte) (len : Nat) : Nat :=
  let d := shake256 64 (slice bs 0 0x0800 ++ bs.drop 0x2000)
  if slice bs 0 4 != ascii "JFW1" || field bs 4 2 != 1 || field bs 0x10 4 != len || !zeroAt bs 0xE 2 || !zeroAt bs 0x18 40 ||
    !zeroAt bs 0x7E0 32 || !zeroAt bs 0x14ED 2835 then 2
  else if !s.fuses.fwKeyOk (slice bs 0x40 1952) then 3
  else if !Config.mldsaVerify (slice bs 0x40 1952) d (slice bs 0x800 3309) then 4
  else if field bs 0xC 2 < s.fuses.minSvn then 5
  else if !bitOf (field bs 6 2) s.life.lcs.code || s.life.lcs == .void then 6
  else 0

/-- A port's training started when it has not been (R508, R269). -/
def State.beginTraining (s : State) (port : Nat) : State :=
  if s.rd R.LNK_STATUS_STATE port = 0 ∧ !(s.port port).train then s.startTraining port else s

/-- A die woken for bring-up (R508): the P-dies, and the C-dies not yet tested. -/
def State.bringUpDie (s : State) (d : Nat) : State := if 16 ≤ d || !(s.die d).tested then s.wakeDie d else s

/-- Cores to be retired again after the JOKER section was lost to failed digests, in either mode (R465), or whose stored score is at or above
the threshold in health mode (R459). -/
def State.remark (s : State) : State := if (s.sect 1).failed then s.markWorn else s.rescore

/-- Accepted firmware starts (R508, R514, R533): stage 2 completes; dies, self-tests and trainings start. -/
def State.fwStart (s : State) (bs : List Byte) : State :=
  let s1 := ((s.wr R.HUB_FW_STATUS_STATE 3).wr R.HUB_FW_VERSION (field bs 8 4)).wr R.HUB_FW_SVN_SVN (field bs 0xC 2)
  let s2 := s1.wr R.HUB_BRINGUP_STATUS_FIRMWARE 1
  let m := s2.marks
  let t := s2.tick
  let s3 := { s2 with
    life := { s2.life with mFw := digest32 bs, mPlan := List.replicate 32 0#8, plans := 0,
                           ddrTrain := s2.life.ddrTrain || !s2.on R.HUB_BRINGUP_STATUS_DDR5 }
    marks := { m with checkAt := t, linkAt := t, extAt := t, extFrom := t, sampleAt := t, decayAt := t, storeAt := t } }
  let s4 := s3.presentPorts.foldl State.beginTraining ((List.range 24).foldl State.bringUpDie s3)
  (s4.remark.timeConfig).autos.stages

/-- FW_CHECK_DONE (R513, R514): the image is fetched as the physical function, and checked in order. -/
def execFwCheckDone (s : State) : Host.Outcome State Fault Refusal :=
  .next (if s.pkg ≠ .running ∨ !(s.rd R.HUB_FW_STATUS_STATE == 1 || s.rd R.HUB_FW_STATUS_STATE == 2) then s
    else
      let len := s.rd R.HUB_FW_LEN
      if len < 0x2001 ∨ 0x400000 < len then s.fwReject 1
      else
        match s.hostRead 0 (s.rdPair R.HUB_FW_ADDR_LO R.HUB_FW_ADDR_HI) len with
        | (none, s1) => s1.fwReject 1
        | (some bs, s1) =>
          let r := s1.fwReason bs len
          if r = 0 then s1.fwStart bs else s1.fwReject r)

end Sys2Proof.Machine
end

