-- ==== Sys2Proof/Machine/Plan.lean ====
section
/-! DEFINITION. Loading and unloading a plan image (R30 to R43, R58, R59, R104 to R107, R494, R495): the load check with its
reasons, the measurement and sealing of an accepted image, and the load vote (R338 to R340). -/

namespace Sys2Proof.Machine

/-! ## Rejections (R107) -/

/-- A rejected field: REASON, image offset, hand index and logical index (R107). -/
structure Reject where
  reason : Nat
  offset : Nat
  hand   : Nat
  core   : Nat
  deriving DecidableEq, Repr

/-- A rejection that names no hand. -/
def Reject.image (reason offset : Nat) : Reject := ⟨reason, offset, 0xFFFF, 0xFF⟩

/-- The first rule that fails, in the order given. -/
def checkAll : List (Bool × Reject) → Except Reject Unit
  | [] => .ok ()
  | (ok, r) :: rs => if ok then checkAll rs else .error r

/-- What the load check reads: the image by offset and length, and the settings it is compared with. -/
structure LoadEnv where
  rd      : Nat → Nat → Nat
  addr    : Nat
  lcores  : Nat
  engines : Nat
  absent  : Nat
  chip    : Nat
  check   : Option Nat
  partner : Option Nat
  routes  : SMap Nat

/-- Whether a logical index exists (R14). -/
def LoadEnv.core (e : LoadEnv) (i : Nat) : Bool := decide (i < 160) && decide (i % 10 < e.lcores)

/-- Whether a range of device memory lies in the data range of one stack (R227, R494). -/
def inStack (a n : Nat) : Bool := decide (a + n ≤ 2 ^ 40) && decide (a % 2 ^ 36 + n ≤ stackEnd)

/-! ## Image and hand headers (R32, R34, R35) -/

/-- The rules of the image header, by offset (R27, R32, R105 item 9, R330, R344, R494). -/
def LoadEnv.header (e : LoadEnv) : List (Bool × Reject) :=
  let count := e.rd 6 2
  let size := e.rd 0x10 8
  [(e.rd 0 2 == 1, .image 1 0), (e.rd 2 2 == 0, .image 1 2),
   (e.rd 4 2 == e.chip && decide (e.rd 4 2 < e.rd 8 4), .image 0xC 4), (count != 0, .image 1 6),
   (decide (1 ≤ e.rd 8 4) && decide (e.rd 8 4 ≤ 65536), .image 1 8),
   (e.rd 0xC 2 &&& e.absent == 0, .image 6 0xC),
   ((e.partner.map (fun p => !bitOf (e.rd 0xC 2) p)).getD true, .image 0xE 0xC), (e.rd 0xE 2 == 0, .image 1 0xE),
   (decide (256 ≤ size) && inStack e.addr size, .image 1 0x10),
   (decide (e.rd 0x18 8 + 128 * count ≤ size), .image 1 0x18), (decide (e.rd 0x20 8 + 8 * count ≤ size), .image 1 0x20),
   (e.rd 0x28 216 == 0, .image 1 0x28)]

/-- Package-wide logical indices of a CORE_SET, ascending (R39). -/
def coresOf (set : Nat) : List Nat := (List.range 160).filter (fun i => bitOf set i)

/-- The rules of a hand header at offset `b`, by offset (R34, R35, R68, R345, R455). -/
def LoadEnv.handRules (e : LoadEnv) (h b : Nat) : List (Bool × Reject) :=
  let w := e.rd (b + 4) 4
  let f := e.rd (b + 8) 4
  let cls := bitsOf w 0 4
  let ckpt := bitOf w 9
  let set := e.rd (b + 0x40) 32
  let r (reason off : Nat) : Reject := ⟨reason, b + off, h, 0xFF⟩
  [(decide (cls ≤ 6) && decide (bitsOf w 4 4 ≤ if cls = 0 then 1 else 0) && bitsOf w 16 16 != 0 && (cls != 0 || ckpt), r 2 4),
   (e.check != some (bitsOf w 10 6), r 0xF 4), (!(e.partner.isSome && cls == 5 && !ckpt), r 0xE 4),
   (bitsOf f 0 16 &&& e.engines == 0, r 6 8), (bitsOf f 20 12 == 0, r 2 8), (e.rd (b + 0x2C) 4 == 0, r 2 0x2C),
   (decide (e.rd (b + 0x30) 8 + 32 * (coresOf set).length ≤ e.rd 0x10 8), r 2 0x30), (e.rd (b + 0x38) 8 == 0, r 2 0x38),
   (set != 0 && decide (set < 2 ^ 160), r 2 0x40), ((coresOf set).all e.core, r 6 0x40), (e.rd (b + 0x60) 32 == 0, r 2 0x60)]

/-- A hand header read (R34). -/
def LoadEnv.readHdr (e : LoadEnv) (b : Nat) : HandHdr :=
  let w := e.rd (b + 4) 4
  let f := e.rd (b + 8) 4
  { handId := e.rd b 4, cls := bitsOf w 0 4, variant := bitsOf w 4 4, priv := bitOf w 8, ckpt := bitOf w 9, group := bitsOf w 10 6,
    trickCount := bitsOf w 16 16, engines := bitsOf f 0 16, anchored := bitOf f 16, ddr5 := bitOf f 17, remote := bitOf f 18,
    digest := bitOf f 19, waitLimit := e.rd (b + 0xC) 4, wslots := e.rd (b + 0x10) 8, claims := e.rd (b + 0x18) 8,
    energyEst := e.rd (b + 0x20) 4, durationEst := e.rd (b + 0x24) 4, dealLimit := e.rd (b + 0x28) 4,
    streamTable := e.rd (b + 0x30) 8, coreSet := e.rd (b + 0x40) 32 }

/-! ## Stream table and resource blocks (R39, R58, R59, R228) -/

/-- The rules of a stream table entry at offset `b` (R39, R101, R105 item 8). -/
def LoadEnv.entryRules (e : LoadEnv) (h core b : Nat) : List (Bool × Reject) :=
  let size := e.rd 0x10 8
  let so := e.rd b 8
  let len := e.rd (b + 8) 4
  let r (reason off : Nat) : Reject := ⟨reason, b + off, h, core⟩
  [(so % 4096 == 0 && decide (so + len ≤ size), r 3 0), (len != 0 && len % 32 == 0, r 0xB 8), (e.rd (b + 0xC) 4 == 0, r 3 0xC),
   (decide (e.rd (b + 0x10) 8 + 512 ≤ size), r 3 0x10), (e.rd (b + 0x18) 8 == 0, r 3 0x18)]

/-- Whether an enabled region bound stays within its space (R59, R228); with TILES 0 the entry is disabled and its BASE is not checked
(R58; DESIGN CHOICE, log entry 113), and a misaligned BASE of an enabled one fails in every SPACE, which R58 states for all and R228 for none
(DESIGN CHOICE, log entry 130). -/
def boundOk (space base tiles : Nat) : Bool :=
  tiles == 0 || (base % 4096 == 0 &&
    (match space with
     | 0 => decide (base + 4096 * tiles ≤ 0x800000)
     | 1 => inStack base (4096 * tiles)
     | 2 => true
     | _ => decide (base + 4096 * tiles ≤ 2 ^ 64)))

/-- The rules of a resource block at offset `b` (R58, R59, R228). -/
def LoadEnv.resRules (e : LoadEnv) (h core b : Nat) : List (Bool × Reject) :=
  let r (off : Nat) : Reject := ⟨4, b + off, h, core⟩
  (List.range 16).flatMap (fun i =>
    let o := b + 16 * i
    [(boundOk (e.rd (o + 12) 1 % 4) (e.rd o 8) (e.rd (o + 8) 4), r (16 * i)), (e.rd (o + 12) 4 / 16 == 0, r (16 * i + 12))]) ++
  (List.range 32).map (fun i =>
    let q := e.rd (b + 0x100 + 8 * i) 8
    let depth := bitsOf q 11 9
    (decide (q < 2 ^ 20) && decide (depth ≤ 256) && (depth == 0 || decide (bitsOf q 0 11 + depth ≤ 2048)), r (0x100 + 8 * i)))

/-- A resource block read (R58). -/
def LoadEnv.readRes (e : LoadEnv) (b : Nat) : ResBlock where
  bounds := (List.range 16).map (fun i =>
    let k := e.rd (b + 16 * i + 12) 1
    ⟨e.rd (b + 16 * i) 8, e.rd (b + 16 * i + 8) 4, Space.ofCode (k % 4), bitOf k 2, bitOf k 3⟩)
  queues := (List.range 32).map (fun i =>
    let q := e.rd (b + 0x100 + 8 * i) 8
    ⟨bitsOf q 0 11, bitsOf q 11 9, 0, 0, []⟩)

/-! ## Streams (R40, R89 to R91, R104, R105) -/

/-- The REASON for a route index that an instruction names, if any (R105 item 5, R292). -/
def LoadEnv.routeReason (e : LoadEnv) (r : Nat) : Option Nat :=
  let v := SMap.get 0 e.routes r
  let port := bitsOf v 2 4
  if v % 4 ≠ 1 then some 0xD
  else if bitOf e.absent port then some 6
  else if !bitOf (e.rd 0xC 2) port then some 0xD
  else none

/-- The route indices that an instruction names (R82, R100), each with the byte of its field. -/
def Slot.routes (w : Slot) : List (Nat × Nat) :=
  (if w.stgt = 3 then [(10, w.starget)] else []) ++ (if w.op = some .lput ∨ w.op = some .lfetch then [(16, w.route)] else [])

/-- The REASON of an illegal field (R107). -/
def IllegalBy.reason : IllegalBy → Nat
  | .instruction => 7
  | .featureMask => 8
  | .addressGen => 0xA

/-- The first offending field of one instruction in slot `i` of `n`, if any: its byte and its REASON (R105 items 1 to 5 and 7, R90, R104);
`depth` loops are open.  An ADG in the last slot of a stream, or of a page, breaks item 7 (which of items 7 and 8 the last slot breaks is
the model's reading, DEDUCED, log entry 37). -/
def LoadEnv.slotReason (e : LoadEnv) (env : LegalEnv) (i n depth : Nat) (w w2 : Slot) : Option (Nat × Nat) :=
  lowest (failing 6 [(0, !bitOf e.engines w.engine)] ++ failing 8 [(0, bitOf env.hdr.engines w.engine)] ++
    (illegalFields w w2 env).map (fun x => (x.1, x.2.reason)) ++
    failing 0xA [(1, !(w.op == some .adg && (i % 512 == 511 || decide (n ≤ i + 1))))] ++
    failing 7 [(18, !(w.op == some .setp && w.src == 1 && decide (depth ≤ w.sel % 4)))] ++
    failing 6 [(10, w.stgt != 2 || e.core w.starget)] ++
    w.routes.filterMap (fun r => (e.routeReason r.2).map (fun k => (r.1, k))))

/-- The scan of a stream (R89, R105 item 6): the starts of its instructions with the loops that are open there, or a REASON and the offset
of the field in the stream. -/
def LoadEnv.scan (e : LoadEnv) (env : LegalEnv) (slot : Nat → Slot) (n : Nat) :
    Nat → Nat → List (Nat × Nat) → List (Nat × List Nat) → Except (Nat × Nat) (List (Nat × List Nat))
  | 0, _, _, acc => .ok acc
  | f + 1, i, loops, acc =>
    if n ≤ i then
      match loops with
      | [] => .ok acc
      | l :: _ => .error (9, 32 * l.1 + 20)
    else
      let w := slot i
      match e.slotReason env i n loops.length w (slot (i + 1)) with
      | some r => .error (r.2, 32 * i + r.1)
      | none =>
        let acc' := acc ++ [(i, loops.map (·.1))]
        match w.op with
        | some .adg => e.scan env slot n f (i + 2) loops acc'
        | some .loop =>
          let stop := i + w.body
          if loops.length = 4 then .error (9, 32 * i + 1)
          else if w.body = 0 ∨ (loops.any (fun l => decide (l.2 < stop))) then .error (9, 32 * i + 20)
          else e.scan env slot n f (i + 1) ((i, stop) :: loops) acc'
        | some .endl =>
          match loops with
          | l :: ls => if l.2 = i then e.scan env slot n f (i + 1) ls acc' else .error (9, 32 * i + 1)
          | [] => .error (9, 32 * i + 1)
        | _ => e.scan env slot n f (i + 1) loops acc'

/-- The stream checks of one stream (R91, R105): the first failure as REASON and offset in the stream.  Targets of BRP are tested once every
slot has passed, and the last slot after that (DEDUCED, log entry 37). -/
def LoadEnv.streamReason (e : LoadEnv) (env : LegalEnv) (stream n : Nat) : Option (Nat × Nat) :=
  let slot (i : Nat) : Slot := Slot.ofNat (e.rd (stream + 32 * i) 32)
  match e.scan env slot n (n + 1) 0 [] [] with
  | .error r => some r
  | .ok starts =>
    match starts.find? (fun x => (slot x.1).op == some .brp &&
        !(starts.any (fun y => decide ((y.1 : Int) = x.1 + (slot x.1).brOffset) && y.2 == x.2))) with
    | some x => some (9, 32 * x.1 + 20)
    | none =>
      match starts.getLast? with
      | some x => if x.1 + 1 = n ∧ (slot x.1).op = some .trick then none else some (0xB, 32 * (n - 1) + 1)
      | none => some (0xB, 32 * (n - 1) + 1)

/-! ## The hand graph (R41 to R43) -/

/-- Whether a simple cycle through hand `r` and hands above it, with offsets that sum to at least its edge count, can be closed from
hand `b` (R43); `w` is the sum of the offsets less the number of edges so far. -/
def closesCycle (edges : Nat → List Edge) (r : Nat) : Nat → List Nat → Nat → Int → Bool
  | 0, _, _, _ => false
  | f + 1, seen, b, w =>
    (edges b).any (fun x =>
      if x.pred = r then decide (0 ≤ w + x.d - 1)
      else decide (r < x.pred) && !seen.contains x.pred && closesCycle edges r f (x.pred :: seen) x.pred (w + x.d - 1))

/-- The edges of a hand (R41). -/
def LoadEnv.readEdges (e : LoadEnv) (h : Nat) : List Edge :=
  let g := e.rd (e.rd 0x20 8 + 8 * h) 8
  (List.range (bitsOf g 32 16)).map (fun i =>
    let x := e.rd (bitsOf g 0 32 + 8 * i) 8
    ⟨bitsOf x 0 16, signedOf 16 (bitsOf x 16 16)⟩)

/-- The rules of one graph entry and its edges (R41, R43). -/
def LoadEnv.graphRules (e : LoadEnv) (h : Nat) : List (Bool × Reject) :=
  let at' := e.rd 0x20 8 + 8 * h
  let g := e.rd at' 8
  let n := bitsOf g 32 16
  (bitsOf g 48 16 == 0 && decide (bitsOf g 0 32 + 8 * n ≤ e.rd 0x10 8), ⟨5, at', h, 0xFF⟩) ::
  (List.range n).map (fun i =>
    let x := e.rd (bitsOf g 0 32 + 8 * i) 8
    (decide (bitsOf x 0 16 < e.rd 6 2) && bitsOf x 32 32 == 0, ⟨5, bitsOf g 0 32 + 8 * i, h, 0xFF⟩))

/-! ## The whole check (R33) -/

/-- The streams of a hand with their checks (R39, R58, R105). -/
def LoadEnv.readHand (e : LoadEnv) (h : Nat) : Except Reject Hand := do
  let hdr := e.readHdr (e.rd 0x18 8 + 128 * h)
  let mut ss : List StreamEnt := []
  for c in (hdr.cores).zipIdx do
    let b := hdr.streamTable + 32 * c.2
    checkAll (e.entryRules h c.1 b)
    checkAll (e.resRules h c.1 (e.rd (b + 0x10) 8))
    ss := ss ++ [⟨c.1, e.rd b 8, e.rd (b + 8) 4, e.readRes (e.rd (b + 0x10) 8)⟩]
  return ⟨hdr, ss, e.readEdges h⟩

/-- The load check (R33): image header, hand headers, stream tables and resource blocks, hand graph, streams, deliver entries; the
first field that fails is reported (DEDUCED, log entry 37: the order, and OFFSET 0 with HAND 0xFFFF for a deliver entry, which is no field
of the image). -/
def LoadEnv.check' (e : LoadEnv) : Except Reject Image := do
  checkAll e.header
  let count := e.rd 6 2
  for h in List.range count do
    checkAll (e.handRules h (e.rd 0x18 8 + 128 * h))
  let mut hands : List Hand := []
  for h in List.range count do
    let x ← e.readHand h
    hands := hands ++ [x]
  for h in List.range count do
    checkAll (e.graphRules h)
  for h in List.range count do
    checkAll [(!closesCycle e.readEdges h count [h] h 0, ⟨5, e.rd 0x20 8 + 8 * h, h, 0xFF⟩)]
  for x in hands.zipIdx do
    for s in x.1.streams do
      match e.streamReason ⟨x.1.hdr, s.res⟩ s.stream (s.length / 32) with
      | some r => throw ⟨r.1, s.stream + r.2, x.2, s.core⟩
      | none => pure ()
  checkAll [(e.routes.all (fun r => !(decide (2 ≤ r.2 % 4)) || e.core (bitsOf r.2 24 8)), .image 0xD 0)]
  return ⟨e.addr, e.rd 4 2, e.rd 8 4, e.rd 0xC 2, e.rd 0x10 8, hands⟩

/-- Bytes of device memory as a load reads them: 0 where there is none (R491). -/
def State.imageRd (s : State) (addr off n : Nat) : Nat :=
  if s.on R.HBM_STATUS_TRAINED (stackOf addr) then leNat (s.hbm.delivered (addr + off) n) else 0

/-- The bytes of an image that the load check reads: all of it, or its header when its size is not in order; what the reads do to words and
seals (R217, R218; DESIGN CHOICE, log entry 107). -/
def State.readImage (s : State) (addr : Nat) : State :=
  let size := s.imageRd addr 0x10 8
  (s.dealerRead addr (if 256 ≤ size ∧ inStack addr size then size else 256)).2

/-- The settings that the load check compares an image with. -/
def State.loadEnv (s : State) (addr : Nat) : LoadEnv where
  rd := s.imageRd addr
  addr := addr
  lcores := s.fuses.lcores
  engines := s.fuses.engines
  absent := s.fuses.ports
  chip := s.chipId
  check := if s.on R.FLT_CFG_CHECK_EN then some (s.rd R.FLT_CFG_CHECK_GROUP) else none
  partner := if s.on R.XPK_PCFG_EN then some (s.rd R.XPK_PCFG_PORT) else none
  routes := s.routes

/-! ## The commands (R494, R495) -/

/-- PLN_LOAD_STATUS, OFFSET and WHERE (R107). -/
def State.loadStatus (s : State) (st : Nat) (r : Reject) : State :=
  let s1 := ((s.wr R.PLN_LOAD_STATUS_STATE st).wr R.PLN_LOAD_STATUS_REASON r.reason).wr R.PLN_LOAD_STATUS_CODE
    (if r.reason = 6 then 0x0503 else 0)
  ((s1.wrPair R.PLN_LOAD_OFFSET_LO R.PLN_LOAD_OFFSET_HI r.offset).wr R.PLN_LOAD_WHERE_HAND r.hand).wr R.PLN_LOAD_WHERE_CORE r.core

/-- Whether the life-cycle state in force admits plans (R525). -/
def Lcs.plans : Lcs → Bool
  | .test | .field | .fieldDebug | .ret => true
  | .raw | .provision | .void => false

/-- LOAD (R494): ignored while an image is held or being checked, and in a state without plans (R525; DEDUCED, log entry 36). -/
def execLoad (s : State) : Host.Outcome State Fault Refusal :=
  .next (s.hostCmd .pln 0 (fun s =>
    if s.rd R.PLN_IMAGE_STATE ≠ 0 ∨ s.rd R.PLN_LOAD_STATUS_STATE = 1 ∨ !s.life.lcs.plans then s
    else
      ({ s with loading := some ⟨s.rd R.PLN_IMAGE_LO * 4096 + 2 ^ 32 * s.rd R.PLN_IMAGE_HI⟩ }).loadStatus 1 (.image 0 0)))

/-- UNLOAD (R495). -/
def execUnload (s : State) : Host.Outcome State Fault Refusal :=
  .next (s.hostCmd .pln 0 (fun s => if s.rd R.PLN_IMAGE_STATE = 1 then s.unload else s))

/-- A rejected image (R33, R339): the package withdraws when its trees name a port; one that has withdrawn already keeps the first ABORT of
its XPK_LOAD (R340). -/
def State.rejectImage (s : State) (r : Reject) : State :=
  let s1 := s.loadStatus 3 r
  if s1.allTreePorts = [] then s1
  else
    let code := s1.rd R.PLN_LOAD_STATUS_CODE
    let s2 := s1.sendWithdraw code s1.chipId none
    if s.rd R.XPK_LOAD_STATE = 3 then s2 else s2.withdraw code s1.chipId

/-- The measurement of an accepted image (R533). -/
def State.measureImage (s : State) (im : Image) : State :=
  let d := digest32 (s.life.mPlan ++ digest32 (s.hbm.delivered im.addr im.size))
  { s with life := { s.life with mPlan := d, plans := s.life.plans + 1 } }

/-- The host seals of an image's tiles (R103, R210); a tile that holds an uncorrectable word keeps its poison (R217; DESIGN CHOICE, log entry
107). -/
def State.sealImage (s : State) (im : Image) : State :=
  (List.range ((im.size + 4095) / 4096)).foldl (fun s i =>
    let a := im.addr + 4096 * i
    if errsIn s.hbm.err (a / 32) (a / 32 + 128) .uncorr ≠ [] then s else { s with hbm := s.hbm.setSeal a (hostSeal (s.hbm.read a 4096)) }) s

/-- An accepted image (R33, R42, R338, R431): measured, sealed, its counts at 0; the load vote begins, or the image is withdrawn at once
for an ABORT that came before it (R340). -/
def State.acceptImage (s : State) (im : Image) : State :=
  let s1 := ((s.loadStatus 2 (.image 0 0)).measureImage im).sealImage im
  let s2 := { s1 with
    image := some im
    done := []
    dealt := []
    digests := []
    power := { s1.power with bids := [], bidUse := 0 } }
  let multi := (List.range 64).filter s2.multi
  let s3 := (s2.wr R.PLN_IMAGE_STATE 1).wr R.XPK_LOAD_STATE (if multi = [] then 2 else 1)
  if s.on R.XPK_LOAD_ABORT_HELD then s3.withdraw (s3.rd R.XPK_LOAD_CODE) (s3.rd R.XPK_LOAD_ORIGIN)
  else multi.foldl State.loadCheck s3

/-- PLAN_LOAD_DONE (R33, R340). -/
def execPlanLoadDone (s : State) : Host.Outcome State Fault Refusal :=
  .next (match s.loading with
    | none => s
    | some l =>
      if !s.dealerUp then s
      else
        let s1 := { s with loading := none }
        if s1.rd R.XPK_LOAD_STATE = 3 then s1.rejectImage (.image 0x10 0)
        else
          let s2 := if s1.on R.HBM_STATUS_TRAINED (stackOf l.addr) then s1.readImage l.addr else s1
          match (s1.loadEnv l.addr).check' with
          | .error r => s2.rejectImage r
          | .ok im => s2.acceptImage im)

end Sys2Proof.Machine
end

