-- ==== Sys2Proof/Machine/Lifecycle.lean ====
section
/-! DEFINITION. MRAM commands (R520, R521), life-cycle transitions, claim and certificate chain (R525 to R531), and the attestation
mailbox (R503, R532 to R534). -/

namespace Sys2Proof.Machine

/-! ## NVM_CMD (R521, R536) -/

/-- NVM_STATUS (R536). -/
def State.nvmStatus (s : State) (st reason sect : Nat) : State :=
  ((s.wr R.NVM_STATUS_STATE st).wr R.NVM_STATUS_REASON reason).wr R.NVM_STATUS_SECTION sect

/-- A host command on a section (R521, R522): refused while one is in progress, whose STATE stays busy (DEDUCED, log
entry 38), after a sag, and with the REASON given. -/
def State.nvmHost (s : State) (sect : Nat) (store : Bool) (reason : Nat) : State :=
  if s.rd R.NVM_STATUS_STATE = 1 then (s.wr R.NVM_STATUS_REASON 2).wr R.NVM_STATUS_SECTION sect
  else if reason ≠ 0 then s.nvmStatus 3 reason sect
  else if s.pkg = .sagged then s.nvmStatus 3 4 sect
  else (s.nvmStatus 1 0 sect).nvmAsk ⟨sect, store, .host, []⟩

/-- STORE (R521): sections 0x1 to 0x6. -/
def execStore (sect : Fin 16) (s : State) : Host.Outcome State Fault Refusal :=
  .next (s.hostCmd .nvm 0 (fun s => s.nvmHost sect true (if 1 ≤ sect.val ∧ sect.val ≤ 6 then 0 else 1)))

/-- ERASE (R521): sections 0x2 to 0x6, and JOKER in TEST and RETURN. -/
def execErase (sect : Fin 16) (s : State) : Host.Outcome State Fault Refusal :=
  .next (s.hostCmd .nvm 0 (fun s => s.nvmHost sect false
    (if sect.val = 1 then (if s.life.lcs = .test ∨ s.life.lcs = .ret then 0 else 3)
     else if 2 ≤ sect.val ∧ sect.val ≤ 6 then 0 else 1)))

/-- An MRAM operation ends (R520, R521): a store puts its data in the other bank, an erase blanks both; a failed one leaves the stored
value. -/
def State.nvmEnd (s : State) (o : NvmOp) (ok : Bool) : State :=
  let s1 := { s with life := { s.life with nvmNow := none } }
  let s2 :=
    if !ok then s1.nvmFailed o.sect
    else if o.store then s1.nvmPut o.sect o.data
    else s1.setSect o.sect Section.blank
  if o.by' = .host then (s2.wr R.NVM_STATUS_STATE (if ok then 2 else 3)).wr R.NVM_STATUS_REASON (if ok then 0 else 5) else s2

/-- NVM_OPERATION_DONE (R506, R520, R521): the next operation starts, or a package reset that waited takes effect. -/
def execNvmOperationDone (ok : Bool) (s : State) : Host.Outcome State Fault Refusal :=
  .next (match s.life.nvmNow with
    | some o =>
      let s1 := s.nvmEnd o ok
      if s1.life.resetDue.isSome then s1.resetIfDue else s1.nvmNext
    | none => s)

/-! ## Life-cycle commands (R526 to R531, R537) -/

/-- The state of a code (R525). -/
def Lcs.ofCode : Nat → Option Lcs
  | 0 => some .raw
  | 1 => some .test
  | 2 => some .provision
  | 3 => some .field
  | 4 => some .fieldDebug
  | 5 => some .ret
  | 6 => some .void
  | _ => none

/-- Whether R527 refuses a command: while a sag holds or the auxiliary input is low. -/
def State.lcsStopped (s : State) : Bool := s.pkg == .sagged || s.on R.HUB_POWER_EVENT_AUX_LOW

/-- A life-cycle command that needs a read begins (R537): one at a time. -/
def State.lcsBegin (s : State) (o : LcsOp) : State :=
  { (s.wr R.LCS_STATUS_STATE 1).wr R.LCS_STATUS_REASON 0 with life := { s.life with op := some o } }

/-- Whether a life-cycle command is in progress. -/
def State.lcsBusy (s : State) : Bool := s.rd R.LCS_STATUS_STATE == 1

/-- SUBMIT (R527, R528): refused under R527 before the token is read, and then too with a new nonce; with an image loaded only a
transition to FIELD_DEBUG, which the token names, is left to the checks. -/
def execSubmit (s : State) : Host.Outcome State Fault Refusal :=
  .next (s.hostCmd .lcs 0 (fun s =>
    if s.lcsBusy then s
    else if s.lcsStopped || (s.loaded && s.life.lcs != .field) then s.newNonce.lcsRefuse 9
    else s.lcsBegin (.submit s.loaded)))

/-- A life-cycle command ends well (R537). -/
def State.lcsEnd (s : State) : State :=
  { (s.wr R.LCS_STATUS_STATE 2).wr R.LCS_STATUS_REASON 0 with life := { s.life with op := none } }

/-- EXIT_DEBUG (R526): done at once (DEDUCED, log entry 38). -/
def execExitDebug (s : State) : Host.Outcome State Fault Refusal :=
  .next (s.hostCmd .lcs 0 (fun s =>
    if !s.lcsBusy && s.life.lcs == .fieldDebug then ({ s with life := { s.life with lcs := .field } }).lcsEnd else s))

/-- CLAIM (R527, R529): refused with REASON 0xA when an owner key is stored (R537). -/
def execClaimOwner (s : State) : Host.Outcome State Fault Refusal :=
  .next (s.hostCmd .lcs 0 (fun s =>
    if s.lcsBusy then s
    else if s.lcsStopped then s.lcsRefuse 9
    else if s.ownerKey.isSome then s.lcsRefuse 0xA
    else s.lcsBegin .claim))

/-- CERT (R527, R531, R537): only in PROVISION and with no chain stored. -/
def execCert (s : State) : Host.Outcome State Fault Refusal :=
  .next (s.hostCmd .lcs 0 (fun s =>
    if s.lcsBusy then s
    else if s.lcsStopped then s.lcsRefuse 9
    else if s.life.lcs ≠ .provision ∨ s.chain ≠ [] then s.lcsRefuse 0xA
    else s.lcsBegin .cert))

/-- Whether R526 has a transition; `owner` says that the owner signs. -/
def transition (src dst : Lcs) (owner owned : Bool) : Bool :=
  match src, dst with
  | .raw, .test | .test, .provision | .provision, .field => !owner
  | .field, .fieldDebug | .field, .ret | .fieldDebug, .ret => owner || !owned
  | .void, .void => false
  | .field, .void | .fieldDebug, .void => true
  | _, .void => !owner
  | _, _ => false

/-- Bytes of a token (R528). -/
def tokenLen : Nat := 5296

/-- The 64-byte digest that a token's signature covers (R528). -/
def tokenDigest (t : List Byte) : List Byte := shake256 64 (slice t 0 0x7C0)

/-- Whether a token's key is accepted: the fused Ovusto key for SIGNER 0, the owner key for SIGNER 1 (R528). -/
def State.tokenKeyOk (s : State) (t : List Byte) : Bool :=
  let d := digest32 (slice t 0x20 1952)
  match field t 6 1 with
  | 0 => d == s.fuses.lcsKey
  | 1 => s.ownerKey == some d
  | _ => false

/-- The nonce words as bytes (R528). -/
def State.nonceBytes (s : State) : List Byte := s.life.nonce.flatMap (leBytes 4)

/-- REASONs 0x1 to 0x4 of a token, 0 when it passes them (R528). -/
def State.tokenForm (s : State) (t : List Byte) : Nat :=
  if slice t 0 4 != ascii "JLC1" || !zeroAt t 7 1 || !zeroAt t 0x14AD 3 then 1
  else if field t 8 8 ≠ s.fuses.deviceId then 2
  else if slice t 0x10 16 != s.nonceBytes then 3
  else if field t 4 1 ≠ s.life.lcs.code then 4
  else 0

/-- The REASON for which a token is refused before its effect, 0 when it is accepted (R526, R528). -/
def State.tokenReason (s : State) (t : List Byte) : Nat :=
  let r := s.tokenForm t
  if r ≠ 0 then r
  else
    match Lcs.ofCode (field t 5 1) with
    | none => 5
    | some dst =>
      if !transition s.life.lcs dst (field t 6 1 == 1) s.ownerKey.isSome || decide (1 < field t 6 1) then 5
      else if dst = .field ∧ s.chain = [] then 5
      else if !s.tokenKeyOk t then 6
      else if !Config.mldsaVerify (slice t 0x20 1952) (tokenDigest t) (slice t 0x7C0 3309) then 7
      else 0

/-- Sections erased before the burn (R526). -/
def erasures : Lcs → List Nat
  | .ret => [6, 9, 5, 7]
  | .void => [1, 2, 3, 4, 5, 6, 7, 8, 9]
  | _ => []

/-- Sections erased. -/
def State.eraseAll (s : State) (ns : List Nat) : State := ns.foldl (fun s n => s.setSect n Section.blank) s

/-- An accepted transition (R526): FIELD_DEBUG at once; the others erase, burn the fuse word and take effect at the next package
reset.  One that fails leaves the fuses as they were: where sections are to be erased, it is the erase of the first that fails, and is counted
(R536; DESIGN CHOICE, log entry 134). -/
def State.doTransition (s : State) (dst : Lcs) (ok : Bool) : State :=
  if dst = .fieldDebug then { s with life := { s.life with lcs := .fieldDebug } }
  else if ok then
    let s1 := s.eraseAll (erasures dst)
    let s2 := if dst = .void then { s1 with life := { s1.life with identity := none, secret := [] } } else s1
    { s2 with fuses := { s2.fuses with lcs := dst } }
  else match erasures dst with
    | n :: _ => s.nvmFailed n
    | [] => s

/-- The end of a SUBMIT (R526 to R528); `loaded`: an image was loaded when it was written (R527); `ok`: the erase and the fuse burn
succeed.  One that erases sections waits for the MRAM operations before it (R521). -/
def State.submitDone (s : State) (loaded ok : Bool) : State :=
  match s.hostRead 0 (s.rdPair R.LCS_TOKEN_ADDR_LO R.LCS_TOKEN_ADDR_HI) tokenLen with
  | (none, s1) => s1.newNonce.lcsRefuse 1
  | (some t, s1) =>
    let r := s1.tokenReason t
    if loaded && decide (field t 5 1 ≠ 4) then s1.newNonce.lcsRefuse 9
    else if r ≠ 0 then s1.newNonce.lcsRefuse r
    else
      let dst := (Lcs.ofCode (field t 5 1)).getD .void
      if s.mramBusy && !(erasures dst).isEmpty then s else
      let s2 := s1.newNonce.doTransition dst ok
      if ok ∨ dst = .fieldDebug then s2.lcsEnd else s2.lcsRefuse 8

/-- The end of a CLAIM (R529); `ok`: the store of OWNER_KEY succeeds.  It waits for the MRAM operations before it (R521). -/
def State.claimDone (s : State) (ok : Bool) : State :=
  match s.hostRead 0 (s.rdPair R.LCS_TOKEN_ADDR_LO R.LCS_TOKEN_ADDR_HI) tokenLen with
  | (none, s1) => s1.lcsRefuse 1
  | (some t, s1) =>
    let r := s1.tokenForm t
    if r ≠ 0 then s1.lcsRefuse r
    else if field t 4 1 ≠ 3 ∨ field t 5 1 ≠ 3 ∨ field t 6 1 ≠ 1 then s1.lcsRefuse 5
    else if !Config.mldsaVerify (slice t 0x20 1952) (tokenDigest t) (slice t 0x7C0 3309) then s1.lcsRefuse 7
    else if s.mramBusy then s
    else if !ok then (s1.nvmFailed 9).lcsRefuse 8
    else (s1.nvmPut 9 (bytesData (digest32 (slice t 0x20 1952)))).lcsEnd

/-- The longest certificate chain that IDENTITY holds beside the key (R518). -/
def chainMax : Nat := 65536 - 8192

/-- Certificates, each preceded by its 4-byte length (R531); none where the bytes are no such list of `n`. -/
def takeCerts : Nat → List Byte → Option (List (List Byte))
  | 0, bs => if bs = [] then some [] else none
  | n + 1, bs =>
    let l := leNat (bs.take 4)
    if bs.length < 4 + l then none else (takeCerts n (bs.drop (4 + l))).map (fun cs => (bs.drop 4).take l :: cs)

/-- The conditions on a chain (R531): device, intermediate and root certificate in this order, the device's subject key that of the identity key,
each verifying under the next, and the root's key the fused one. -/
def chainOk (key root c : List Byte) : Bool :=
  match takeCerts 3 c with
  | some [dev, mid, top] =>
    Config.certKey dev == key && Config.certSigned dev mid && Config.certSigned mid top && digest32 (Config.certKey top) == root
  | _ => false

/-- The end of a CERT (R531): the chain is read by its length and stored when it meets its conditions.  It waits for the MRAM operations before
it (R521). -/
def State.certDone (s : State) (ok : Bool) : State :=
  let a := s.rdPair R.LCS_TOKEN_ADDR_LO R.LCS_TOKEN_ADDR_HI
  match s.hostRead 0 a 4 with
  | (none, s1) => s1.lcsRefuse 0xA
  | (some l, s1) =>
    let n := leNat l
    if chainMax < n then s1.lcsRefuse 0xA
    else
      match s1.hostRead 0 (a + 4) n with
      | (none, s2) => s2.lcsRefuse 0xA
      | (some c, s2) =>
        let k := s2.life.identity.getD []
        if !chainOk k s2.fuses.rootKey c then s2.lcsRefuse 0xA
        else if s.mramBusy then s
        else if !ok then (s2.nvmFailed 8).lcsRefuse 0xA
        else (s2.nvmPut 8 (identityData k s2.life.secret (l ++ c))).lcsEnd

/-- LCS_OPERATION_DONE (R506, R526 to R531); `ok`: the erase, burn or store that it needs succeeds. -/
def execLcsOperationDone (ok : Bool) (s : State) : Host.Outcome State Fault Refusal :=
  .next (match s.life.op with
    | none => s
    | some o =>
      (match o with
        | .submit loaded => s.submitDone loaded ok
        | .claim => s.claimDone ok
        | .cert => s.certDone ok).resetIfDue)

/-! ## The attestation mailbox (R503, R530 to R534) -/

/-- A request of a KIND (R503): the nonce is captured; without an identity key it fails. -/
def State.attAsk (s : State) (kind : Nat) : State :=
  if s.rd R.ATT_STATUS_STATE = 1 then s
  else
    let n := (List.range 8).flatMap (fun i => leBytes 4 (s.rd R.ATT_NONCE 0 i))
    let s1 := s.wr R.ATT_STATUS_LENGTH 0
    if s1.life.identity.isNone then
      { s1.wr R.ATT_STATUS_STATE 3 with life := { s1.life with attData := [], attOp := none } }
    else
      { s1.wr R.ATT_STATUS_STATE 1 with life := { s1.life with attNonce := n, attOp := some kind, attData := [] } }

/-- ATTESTATION_REPORT (R503, R532). -/
def execAttestationReport (s : State) : Host.Outcome State Fault Refusal := .next (s.hostCmd .att 0 (fun s => s.attAsk 0))

/-- CERTIFICATE_CHAIN (R503, R530, R531). -/
def execCertificateChain (s : State) : Host.Outcome State Fault Refusal := .next (s.hostCmd .att 0 (fun s => s.attAsk 1))

/-- Every fuse word, in an order that stands for their addresses, which the spec does not give (R532; DESIGN CHOICE, log entry 135). -/
def Fuses.words (f : Fuses) : List Byte :=
  [f.grade, f.lcores, f.stepMinor, f.stepMajor, f.engines, f.ports, f.minSvn, f.lcs.code].flatMap (leBytes 4) ++
    f.cores.flatMap (leBytes 4) ++ (f.fwKeys.flatMap id) ++ f.revoked.flatMap (leBytes 1) ++ f.lcsKey ++ f.rootKey ++ leBytes 8 f.deviceId

/-- The report without its signature (R532). -/
def State.report (s : State) : List Byte :=
  let lcs := s.life.lcs.code
  let owner := s.ownerKey.getD []
  ascii "JAT1" ++ leBytes 2 1 ++ leBytes 2 0 ++ leBytes 8 s.fuses.deviceId ++ s.life.attNonce ++ leBytes 1 lcs ++
    leBytes 1 (s.fuses.grade + 16 * s.fuses.lcores) ++ leBytes 2 (s.rd R.HUB_FW_SVN_SVN) ++ leBytes 4 (s.rd R.HUB_FW_VERSION) ++
    leBytes 8 s.time ++ digest32 Config.bootRom ++ s.life.mFw ++ s.life.mPlan ++
    digest32 (leBytes 1 lcs ++ leBytes 1 s.fuses.lcs.code ++ owner) ++ digest32 s.fuses.words ++
    leBytes 4 s.life.plans ++ List.replicate 12 0#8

/-- The report signed with the identity key (R530, R532). -/
def State.signedReport (s : State) : List Byte :=
  let r := s.report
  r ++ fixedBytes 3309 (Config.mldsaSign s.free s.life.secret (shake256 64 r))

/-- The result of KIND 0b01 (R530, R531): the stored chain, or in PROVISION the public key alone. -/
def State.chainResult (s : State) : List Byte := if s.life.lcs = .provision then s.life.identity.getD [] else s.chain

/-- ATT_RESULT_READY (R503, R532, R534). -/
def execAttResultReady (s : State) : Host.Outcome State Fault Refusal :=
  .next (match s.life.attOp with
    | none => s
    | some k =>
      let d := if k = 0 then s.signedReport else s.chainResult
      { (s.wr R.ATT_STATUS_STATE 2).wr R.ATT_STATUS_LENGTH d.length with
        free := s.free + 1, life := { s.life with attOp := none, attData := d } })

end Sys2Proof.Machine
end

