-- ==== Sys2Proof/Machine/Views.lean ====
section
/-! DEFINITION. What a read of a register returns (R480 to R487): which register lies at a BAR0 offset, the fields that show state held
elsewhere in `State`, the common page header, and the latched pairs. -/

namespace Sys2Proof.Machine

/-! ## The page map (R485) -/

/-- The blocks of the hub's pages, by page index (R485). -/
def hubPages : List Block :=
  [.hub, .aon, .pln, .hif, .att, .nvm, .lcs, .srv, .wsl, .dpl, .pwr, .flt, .tim, .trk, .xpk, .sdg, .rte]

/-- The block and instance of the page at a BAR0 offset; none where R485 assigns none (R480). -/
def pageAt (addr : Nat) : Option (Block × Nat) :=
  let d := addr / 0x800000
  let i := addr % 0x800000 / 0x1000
  if d < 16 then
    if i = 0 then some (.clk, d)
    else if i = 1 then some (.hbm, d)
    else if 0x100 ≤ i ∧ i < 0x1B0 then
      let p := 11 * d + (i - 0x100) / 0x10
      match i % 0x10 with
      | 0 => some (.seq, p) | 1 => some (.spm, p) | 2 => some (.mxu, p)
      | 3 => some (.cmp, p) | 4 => some (.sea, p) | 5 => some (.dma, p)
      | _ => none
    else none
  else if d < 24 then
    if i = 0 then some (.ddr, d - 16)
    else if i = 1 ∨ i = 2 then some (.lnk, 2 * (d - 16) + (i - 1))
    else none
  else if d = 24 then (hubPages[i]?).map (fun b => (b, 0))
  else none

/-- TYPE of a block (R485). -/
def Block.type : Block → Nat
  | .hub => 0x01 | .aon => 0x02 | .pln => 0x03 | .hif => 0x04 | .att => 0x05 | .nvm => 0x06 | .lcs => 0x07 | .srv => 0x08
  | .wsl => 0x09 | .dpl => 0x0A | .pwr => 0x0B | .flt => 0x0C | .tim => 0x0D | .trk => 0x0E | .xpk => 0x0F | .sdg => 0x10
  | .rte => 0x11 | .clk => 0x20 | .hbm => 0x21 | .ddr => 0x28 | .lnk => 0x29 | .seq => 0x30 | .spm => 0x31 | .mxu => 0x32
  | .cmp => 0x33 | .sea => 0x34 | .dma => 0x35

/-- Codes of the page events of a block, lowest bit first (R132, R199, R223, R250, R296, R352, R440, R470). -/
def Block.events : Block → List Nat
  | .aon => [0x0B01, 0x0A02]
  | .flt => [0x0C01, 0x0C02, 0x0C03, 0x0C04, 0x0C05, 0x0B02]
  | .pwr => [0x0A01]
  | .xpk => [0x0801, 0x0801]
  | .lnk => [0x0701, 0x0702, 0x0402, 0x0403]
  | .sea => [0x0101, 0x0102, 0x0103, 0x0104, 0x0105]
  | .mxu => [0x0201, 0x0202, 0x0502]
  | .cmp => [0x0202, 0x0202]
  | .hbm | .ddr => [0x0105, 0x0105]
  | .spm => [0x0601, 0x0401, 0x0105]
  | _ => []

/-- The record registers of a block, by their VALID field, each with the event bits that it counts from (R134, R201, R224, R250, R299). -/
def Block.records : Block → List (Fld × Nat)
  | .spm => [(R.SPM_COLLIDE_INFO_VALID, 1), (R.SPM_ECC_INFO_VALID, 4)]
  | .sea => [(R.SEA_FAULT_INFO_VALID, 0x1F)]
  | .mxu => [(R.MXU_ABFT_INFO_VALID, 1)]
  | .hbm => [(R.HBM_ECC_INFO_VALID, 3)]
  | .ddr => [(R.DDR_ECC_INFO_VALID, 3)]
  | .lnk => [(R.LNK_DISCARD_INFO_VALID, 0xC)]
  | _ => []

/-- INSTANCE of a page (R485): the die, stack or channel, port, physical core, or 0. -/
def Block.instance' (b : Block) (inst : Nat) : Nat :=
  match b with
  | .seq | .spm | .mxu | .cmp | .sea | .dma => inst % 11
  | _ => inst

/-- Whether a page belongs to a port that is fused off (R19). -/
def State.pageAbsent (s : State) (b : Block) (inst : Nat) : Bool := b == .lnk && s.portAbsent inst

/-- PAGE_ID (R483). -/
def Block.pageId (b : Block) (inst : Nat) : Nat := b.type + 2 ^ 8 + 2 ^ 16 * b.instance' inst + 2 ^ 24 * b.die inst

/-- The counters of a block (R483). -/
def Block.counters (b : Block) : Nat := ((Fld.ofBlock b).filter (fun f => decide (0x20 ≤ f.off) && decide (f.off < 0x40))).length

/-! ## Fields that show state held elsewhere -/

/-- Whether JTAG and the debug pages are open (R525); where they are closed the TAP answers only IDCODE and BYPASS. -/
def State.debugOpen (s : State) : Bool :=
  match s.life.lcs with
  | .test | .fieldDebug | .ret => true
  | _ => false

/-- An instruction of the TAP (R525): one of the two that it always answers, another of IEEE 1149.1, or one of vendor test access. -/
inductive TapInstr where
  | idcode
  | bypass
  | boundary
  | vendor
  deriving DecidableEq, Repr

/-- Whether the TAP answers an instruction in the life-cycle state in force (R525).  No row of the table sends one (log entry 140). -/
def State.tapAnswers (s : State) : TapInstr → Bool
  | .idcode | .bypass => true
  | .boundary => s.debugOpen
  | .vendor => s.life.lcs == .test || s.life.lcs == .ret

/-- Code of a sequencer state (R108). -/
def SeqSt.code : SeqSt → Nat
  | .idle => 0 | .running => 1 | .atTrick => 2 | .faulted => 3

/-- Code of a trick group's state (R328). -/
def GroupSt.code : GroupSt → Nat
  | .idle => 0 | .dealing => 1 | .collecting => 2 | .arrived => 3 | .released => 4 | .aborting => 5

/-- Code of a weight slot's state (R355). -/
def SlotSt.code : SlotSt → Nat
  | .empty => 0 | .ready => 1 | .free => 2 | .staged => 3 | .retiring => 4

/-- Code of a delta seat's state (R380). -/
def SeatSt.code : SeatSt → Nat
  | .free => 0 | .loading => 1 | .live => 2 | .retired => 3

/-- Fields of the HUB page (R22 to R25, R466, R535). -/
def State.viewHub (s : State) (off lsb idx : Nat) : Option Nat :=
  match off with
  | 0x040 => some (match lsb with | 0 => s.fuses.grade | 4 => s.fuses.lcores | 8 => s.fuses.stepMinor | _ => s.fuses.stepMajor)
  | 0x044 => some s.fuses.engines
  | 0x048 => some s.fuses.ports
  | 0x060 => some (s.fuses.cores.getD idx 0)
  | 0x0B8 => if lsb = 16 then some s.fuses.minSvn else none
  | 0x100 => some (bitsOf (s.jmap idx).lo lsb 4)
  | 0x104 => some (bitsOf (s.jmap idx).hi lsb 32)
  | _ => none

/-- Fields of the pages of a core (R108, R134, R135). -/
def State.viewCore (s : State) (b : Block) (p off lsb : Nat) : Option Nat :=
  let c := s.core p
  match b, off with
  | .seq, 0x040 => some (match lsb with
      | 0 => c.st.code | 2 => ofBool c.halted | 3 => c.loops.length | _ => c.preds)
  | .seq, 0x044 => some c.pc
  | .spm, 0x044 => if lsb = 0 then some (ofBool (s.regionAwake p))
      else if lsb = 2 then some (ofBool (c.region == .waking && !c.retained)) else none
  | .spm, 0x060 => if s.debugOpen then none else some 0
  | _, _ => none

/-- Fields of the trick, digest, time and route pages (R222, R301, R327, R328).  ROOT is the root package of a multi-package group (R316):
a local group, as every group is after a package reset, has the hub for its root, and its ROOT reads 0. -/
def State.viewTime (s : State) (b : Block) (off lsb idx : Nat) : Option Nat :=
  match b, off with
  | .tim, 0x04C => some (s.time % 2 ^ 32)
  | .tim, 0x050 => some (s.time / 2 ^ 32)
  | .trk, 0x200 => some (match lsb with
      | 0 => (s.group idx).serial
      | 16 => (((s.group idx).dealing).map (·.trick)).getD 0
      | 24 => (s.group idx).st.code
      | _ => ofBool (s.multi idx && (s.parentPort idx).isNone))
  | .sdg, 0x100 => some (s.digest idx % 2 ^ 32)
  | .sdg, 0x104 => some (s.digest idx / 2 ^ 32)
  | .rte, 0x04C => some (ofBool s.loaded)
  | _, _ => none

/-- Fields of the weight, delta and serving pages (R379, R380, R414, R416). -/
def State.viewServe (s : State) (b : Block) (off lsb idx : Nat) : Option Nat :=
  match b, off with
  | .wsl, 0x200 => some (s.wslot idx).epoch
  | .wsl, 0x300 => some (match lsb with
      | 0 => (s.wslot idx).st.code | 3 => (s.wslot idx).seat | _ => min (s.refs idx) 0xFFFF)
  | .dpl, 0x058 =>
    let x := s.seat (s.rd R.DPL_SEAT_SEL)
    some (if lsb = 0 then x.st.code else x.version)
  | .dpl, 0x05C => some (s.seat (s.rd R.DPL_SEAT_SEL)).id
  | .dpl, 0x060 => some (s.seatRefs (s.rd R.DPL_SEAT_SEL))
  | .srv, 0x050 => some (s.rd R.SRV_KV_PAGES - s.kvUsed.length)
  | .srv, 0x054 => some (s.reqs.filter (fun r => r.admitted)).length
  | .srv, 0x100 => if lsb = 2 then some (ofBool (s.disabling idx)) else none
  | .srv, 0x10C => some (s.stake idx / 1000000000)
  | _, _ => none

/-- Fields of the power and fault pages (R442, R446, R457, R458, R472). -/
def State.viewHealth (s : State) (b : Block) (off lsb : Nat) : Option Nat :=
  match b, off with
  | .pwr, 0x060 => if lsb = 3 then some (ofBool (cDies.any (fun d => s.on R.PWR_DIE_HOT 0 d))) else none
  | .pwr, 0x07C => if lsb = 0 then some s.power.bids.length else none
  | .flt, 0x048 => if lsb = 2 then some (ofBool !s.healthMode)
      else if lsb = 3 then some (ofBool (s.flt.maps.any (·.waits)))
      else if lsb = 4 then some (s.nextCheck.getD 0) else none
  | .flt, 0x058 => some ((SMap.get JrnEntry.zero s.flt.jrn (s.rd R.FLT_JRN_SEL_ENTRY)).word (s.rd R.FLT_JRN_SEL_WORD))
  | .flt, 0x06C => some (s.score (s.rd R.FLT_HEALTH_SEL))
  | _, _ => none

/-- Fields of the host, attestation, MRAM and life-cycle pages (R503, R504, R536, R537). -/
def State.viewLife (s : State) (b : Block) (off lsb idx : Nat) : Option Nat :=
  match b, off with
  | .hif, 0x100 => if lsb = 0 ∧ idx = 0 then some 1
      else if lsb = 4 then some (ofBool (decide (s.tick < (s.fnCfg idx).flrEnd))) else none
  | .hif, 0x048 => some ((List.range 25).map (fun d => if s.awake d then 2 ^ d else 0)).sum
  | .att, 0x04C => some (if s.rd R.ATT_STATUS_STATE = 2 then leNat ((s.life.attData.drop (4 * s.rd R.ATT_SEL)).take 4) else 0)
  | .nvm, 0x080 =>
    let x := s.sect idx
    some (if idx = 0 then 0 else match lsb with
      | 0 => ofBool x.stored.isSome
      | 1 => ofBool (x.stored == some true)
      | 2 => ofBool x.stored.isNone
      | _ => ((x.value).map (·.seq)).getD 0)
  | .lcs, 0x040 => some (match lsb with
      | 0 => s.life.lcs.code | 4 => s.fuses.lcs.code | _ => ofBool s.ownerKey.isSome)
  | .lcs, 0x044 => some (s.fuses.deviceId % 2 ^ 32)
  | .lcs, 0x048 => some (s.fuses.deviceId / 2 ^ 32)
  | .lcs, 0x04C => some (s.life.nonce.getD idx 0)
  | _, _ => none

/-- The value of a field as a read shows it. -/
def State.view (s : State) (f : Fld) (inst idx : Nat) : Nat :=
  let shown : Option Nat := match f.blk with
    | .hub => s.viewHub f.off f.lsb idx
    | .seq | .spm => s.viewCore f.blk inst f.off f.lsb
    | .tim | .trk | .sdg | .rte => s.viewTime f.blk f.off f.lsb idx
    | .wsl | .dpl | .srv => s.viewServe f.blk f.off f.lsb idx
    | .pwr | .flt => s.viewHealth f.blk f.off f.lsb
    | .hif | .att | .nvm | .lcs => s.viewLife f.blk f.off f.lsb idx
    | .clk => if f.off = 0x040 ∧ f.lsb = 12 then some (ofBool (s.die inst).isLocal) else none
    | .lnk =>
      if f.off = 0x07C then
        let w := s.rd R.LNK_BIN_ADDR inst
        some (leNat (((((s.port inst).bin.getD (w / 72) []).drop (4 * (w % 72)))).take 4))
      else none
    | _ => none
  match f.acc with
  | .wo => 0
  | _ => (shown.getD (s.rd f inst idx)) % 2 ^ f.width

/-! ## Registers at an offset -/

/-- The fields of the register at an offset of a block's page, each with its index among the instances of the register. -/
def Block.fieldsAt (b : Block) (off : Nat) : List (Fld × Nat) :=
  (Fld.ofBlock b).filterMap (fun f =>
    if f.stride = 0 then (if f.off = off then some (f, 0) else none)
    else if f.off ≤ off ∧ (off - f.off) % f.stride = 0 ∧ (off - f.off) / f.stride < f.count then some (f, (off - f.off) / f.stride)
    else none)

/-- Registers of the DDR page that exist only on P0: the tier registers (R251) and DDR_SCRUB (R250). -/
def ddrOnly (b : Block) (inst off : Nat) : Bool := b == .ddr && inst != 0 && decide (0x044 ≤ off) && decide (off < 0x058)

/-- The word that a register holds, latches apart. -/
def State.word (s : State) (b : Block) (inst off : Nat) : Nat :=
  if off = 0 then b.pageId inst
  else if s.pageAbsent b inst || ddrOnly b inst off then 0
  else if off = 4 then b.events.length + 2 ^ 6 * b.counters + 2 ^ 31
  else if off = 0xC then ofBool (s.pagePending b inst)
  else ((b.fieldsAt off).map (fun x => 2 ^ x.1.lsb * s.view x.1 inst x.2)).sum

/-- The word that a register has after a package reset. -/
def Block.resetWord (b : Block) (off : Nat) : Nat := ((b.fieldsAt off).map (fun x => 2 ^ x.1.lsb * x.1.reset)).sum

/-- The LO registers of the pairs whose HI is latched when LO is read (R482): offset, stride and number. -/
def Block.latched : Block → List (Nat × Nat × Nat)
  | .hub => [(0x0C0, 0, 1), (0x100, 8, 16)]
  | .aon => [(0x04C, 0, 1)]
  | .pln => [(0x044, 0, 1)]
  | .pwr => [(0x068, 0, 1)]
  | .tim => [(0x04C, 0, 1)]
  | .xpk => [(0x04C, 0, 1), (0x074, 0, 1), (0x07C, 0, 1)]
  | .sdg => [(0x100, 8, 64)]
  | .hbm => [(0x04C, 0, 1)]
  | .ddr => [(0x050, 0, 1), (0x064, 0, 1)]
  | .seq => [(0x064, 0, 1)]
  | .spm => [(0x054, 0, 1)]
  | .mxu => [(0x04C, 0, 1), (0x054, 0, 1)]
  | .sea => [(0x048, 0, 1), (0x050, 0, 1)]
  | _ => []

/-- Whether the register at an offset is the LO half of a latched pair. -/
def Block.isLo (b : Block) (off : Nat) : Bool :=
  b.latched.any (fun x => if x.2.1 = 0 then off == x.1
    else decide (x.1 ≤ off) && (off - x.1) % x.2.1 == 0 && decide ((off - x.1) / x.2.1 < x.2.2))

/-- What a read of a register returns: of a HI half, what the last read of its LO half latched, and the Reset value before one
(R482). -/
def State.readWord (s : State) (b : Block) (inst off : Nat) : Nat :=
  if 4 ≤ off ∧ b.isLo (off - 4) then
    let v := SMap.get noLatch s.latches (b.page inst + off - 4)
    if v = noLatch then b.resetWord off else v
  else s.word b inst off

/-- The effect of a read on the latches: the LO half latches its HI half (R482). -/
def State.latch (s : State) (b : Block) (inst off : Nat) : State :=
  if b.isLo off then { s with latches := SMap.set noLatch s.latches (b.page inst + off) (s.word b inst (off + 4)) } else s

end Sys2Proof.Machine
end

