-- ==== Sys2Proof/Machine/Host.lean ====
section
/-! DEFINITION. What the host does through the port: register writes and reads (R5, R6, R480 to R488), page events (R484), the debug pages
(R94, R131, R135), and device memory through BAR2 (R210, R490 to R493). -/

namespace Sys2Proof.Machine

/-! ## Register writes -/

/-- An access that R480 or R481 refuses. -/
def State.badAccess (s : State) : State := s.bump R.HIF_CNT_BAD_ACCESS

/-- Whether writes of a field are dropped in the present state: while a plan image is loaded (R292 with R301, R300, R316, R330, R344, R379,
R414, R455; RTE_ADDR still takes one, so that every entry can be read, log entry 39), while a function is enabled (R414), while a seat is not FREE (R380), while
the firmware runs (R535), and while debug pages are closed (R131). -/
def State.locked (s : State) (f : Fld) (idx : Nat) : Bool :=
  match f.blk, f.off with
  | .rte, 0x044 => s.loaded
  | .rte, 0x048 => s.loaded
  | .lnk, 0x100 => s.loaded
  | .trk, 0x100 => s.loaded
  | .xpk, 0x040 => s.loaded
  | .xpk, 0x058 => s.loaded
  | .wsl, 0x04C => s.loaded && f.lsb == 12
  | .wsl, 0x050 => s.loaded
  | .wsl, 0x100 => s.loaded
  | .srv, 0x040 => s.loaded
  | .srv, 0x044 => s.loaded
  | .srv, 0x048 => s.loaded
  | .srv, 0x04C => s.loaded
  | .srv, 0x080 => s.loaded
  | .srv, 0x300 => s.loaded
  | .srv, 0x110 => s.on R.SRV_FUNC_EN 0 idx
  | .srv, 0x114 => s.on R.SRV_FUNC_EN 0 idx
  | .srv, 0x118 => s.on R.SRV_FUNC_EN 0 idx
  | .flt, 0x040 => s.loaded && (f.lsb == 5 || f.lsb == 8)
  | .dpl, 0x040 => s.loaded || s.seats.any (fun e => e.2.st != .free)
  | .dpl, 0x044 => s.loaded || s.seats.any (fun e => e.2.st != .free)
  | .dpl, 0x100 => s.loaded || s.seats.any (fun e => e.2.st != .free)
  | .dpl, 0x104 => s.loaded || s.seats.any (fun e => e.2.st != .free)
  | .hub, 0x0A0 => s.rd R.HUB_FW_STATUS_STATE == 3
  | .hub, 0x0A4 => s.rd R.HUB_FW_STATUS_STATE == 3
  | .hub, 0x0A8 => s.rd R.HUB_FW_STATUS_STATE == 3
  | .spm, 0x060 => !s.debugOpen
  | _, _ => false

/-- Fields whose write is a command of its own: PAGE_CTRL, EVT_ENABLE, SRV_FUNC.EN, SRV_STAKE_BURST, PWR_HOLD_AWAKE, RTE_DATA_LO and
SPM_DBG_DATA. -/
def Fld.ownCommand (f : Fld) : Bool :=
  f.off == 0x008 || f.off == 0x014 || f == R.SRV_FUNC_EN || f == R.SRV_STAKE_BURST || f == R.PWR_HOLD_AWAKE || f == R.RTE_DATA_LO ||
  f == R.SPM_DBG_DATA

/-- A write of one field with the written word, by its access code (R6). -/
def State.writeField (s : State) (f : Fld) (inst idx word : Nat) : State :=
  let v := bitsOf word f.lsb f.width
  if s.locked f idx || f.ownCommand then s
  else match f.acc with
    | .ro | .wo => s
    | .rw | .rws | .nv => s.wr f v inst idx
    | .w1c => s.wr f ((s.rd f inst idx) - ((s.rd f inst idx) &&& v)) inst idx
    | .w1s => s.wr f ((s.rd f inst idx) ||| v) inst idx

/-- The record registers of a page whose event bits have all become clear hold their first record no longer: the next one is recorded
(R134, R201, R224, R250, R299). -/
def State.forgetRecords (s : State) (b : Block) (inst : Nat) : State :=
  b.records.foldl (fun s x =>
    if (s.rd (R.EVT_STATUS b) inst) &&& x.2 = 0 then { s with recs := SMap.set false s.recs (x.1.key inst 0) false } else s) s

/-- What a write changes beside the fields of its register: the level of a stake counts with the old rate up to the write (R398), and a
write of TIM_CFG takes its time state at once (R305); a pool command of no row is refused (R372; its REASON is log entry 110); a pair set to AUTO has its FREE back slot staged (R365); a write of WSL_CONVERT may let a waiting STAGE convert (R369); a new retirement threshold acts on the scores as they stand (R459); a value written to RTE_DATA_HI is kept for the next entry (R301). -/
def State.aroundWrite (b : Block) (inst idx : Nat) (off word : Nat) (act : State → State) (s : State) : State :=
  match b, off with
  | .srv, 0x104 => act (s.setStake idx (s.stake idx))
  | .tim, 0x044 => s.timeWrite act
  | .dpl, 0x048 => if 1 ≤ word % 16 ∧ word % 16 ≤ 4 then act s else (act s).dplStatus 3 (if bitOf s.fuses.engines 7 then 3 else 1)
  | .flt, 0x064 => (act s).rescore
  | .xpk, 0x058 => if s.loaded then act s else (act s).wr R.XPK_PSTATUS_STATE (ofBool ((act s).on R.XPK_PCFG_EN))
  | .wsl, 0x054 => if s.dealerUp then (act s).convertWaiting.settle else act s
  | .wsl, 0x100 => if s.loaded then act s else (act s).autos
  | .rte, 0x048 => if s.loaded then act s else { act s with routeHi := (act s).rd R.RTE_DATA_HI }
  | b, 0x010 => (act s).forgetRecords b inst
  | _, _ => act s

/-- A write of the register at an offset of a page (R5, R6, R19, R251). -/
def State.writeWord (s : State) (b : Block) (inst off word : Nat) : State :=
  if s.pageAbsent b inst || ddrOnly b inst off then s
  else match b.fieldsAt off with
    | [] => s
    | x :: xs => State.aroundWrite b inst x.2 (x.1.off) word (fun s => (x :: xs).foldl (fun s y => s.writeField y.1 inst y.2 word) s) s

/-- A host register write at a BAR0 offset with its byte enables (R480, R481, R486, R487): one that is misaligned or does not enable all four bytes
is dropped and counted.  An access of 64 bits is two of these. -/
def State.registerWrite (s : State) (addr : Nat) (enable : BitVec 4) (word : Nat) : State :=
  match pageAt addr with
  | none => if s.answers .hif then s.badAccess else s
  | some (b, inst) =>
    if addr % 4 ≠ 0 ∨ enable ≠ 0xF#4 then (if s.answers b then s.badAccess else s)
    else s.hostCmd b inst (fun s => s.writeWord b inst (addr % 0x1000) word)

/-- REGISTER_WRITE (R6), and the host's other writes of 32 bits: to BAR4 and to configuration space (DESIGN CHOICE, log entry 84). -/
def execRegisterWrite (addr : HostAddr) (value : BitVec 32) (s : State) : Host.Outcome State Fault Refusal :=
  .next (match addr with
    | .bar0 a enable => s.registerWrite a enable value.toNat
    | .bar4 f off => s.bar4Store f off value.toNat
    | .config f r => s.configStore f r value.toNat)

/-! ## Page events (R484) -/

/-- A command on the page header at a BAR0 offset; dropped on a page that raises no events (R483). -/
def State.pageCmd (s : State) (page : Nat) (act : Block → Nat → State → State) : State :=
  match pageAt page with
  | none => if s.answers .hif then s.badAccess else s
  | some (b, inst) =>
    s.hostCmd b inst (fun s => if b.events.isEmpty || s.pageAbsent b inst then s else act b inst s)

/-- The event bits of a written word that the page has (R5): without a delta-merge engine, DLT_OVERFLOW stays 0 (R202). -/
def State.eventBits (s : State) (b : Block) (word : Nat) : Nat :=
  let v := word % 2 ^ b.events.length
  if b = .cmp ∧ bitOf s.fuses.engines 7 then v % 2 else v

/-- The code of the lowest event of a mask (R484). -/
def Block.firstCode (b : Block) (mask : Nat) : Nat :=
  match (List.range b.events.length).find? (fun i => bitOf mask i) with
  | some i => b.events.getD i 0
  | none => 0

/-- EVT_FORCE (R484). -/
def execEvtForce (page : Nat) (value : BitVec 32) (s : State) : Host.Outcome State Fault Refusal :=
  .next (s.pageCmd page (fun b inst s =>
    if s.eventBits b value.toNat = 0 then s
    else s.setEvents b inst (s.eventBits b value.toNat) (b.firstCode (s.eventBits b value.toNat))))

/-- EVT_ENABLE_WRITE (R484). -/
def execEvtEnableWrite (page : Nat) (value : BitVec 32) (s : State) : Host.Outcome State Fault Refusal :=
  .next (s.pageCmd page (fun b inst s => State.pageMsg s (s.wr (R.EVT_ENABLE b) (s.eventBits b value.toNat) inst) b inst))

/-- PAGE_CTRL_WRITE (R483, R484). -/
def execPageCtrlWrite (page : Nat) (value : BitVec 32) (s : State) : Host.Outcome State Fault Refusal :=
  .next (s.pageCmd page (fun b inst s =>
    State.pageMsg s ((s.wr (R.PAGE_CTRL_VECTOR b) (bitsOf value.toNat 0 11) inst).wr (R.PAGE_CTRL_MSG_EN b)
      (bitsOf value.toNat 11 1) inst) b inst))

/-! ## Debug and test (R94, R131, R135, R201, R224, R488) -/

/-- SEQ_RESUME: resumes a halted core, only where debug pages are open (R94, R108, R525). -/
def execSeqResume (p : Fin 176) (s : State) : Host.Outcome State Fault Refusal :=
  .next (s.hostCmd .seq p (fun s => if s.debugOpen && (s.core p).halted then s.onCore p (fun c => { c with halted := false, stallAt := s.tick }) else s))

/-- A debug access restarts the clock of a stopped region (R437). -/
def State.debugWake (s : State) (p : Nat) : State :=
  if (s.core p).region = .stopped then s.onCore p (fun c => { c with region := .running, regionAt := s.tick }) else s

/-- The scratchpad byte address that SPM_DBG_ADDR names (R135). -/
def State.debugAddr (s : State) (p : Nat) : Nat := 4 * s.rd R.SPM_DBG_ADDR p

/-- The word that a debug read delivers: when it meets a started write in one cycle, which is a free value, the one before that write, and
the collision is recorded (R121, R123); an uncorrectable line as zeros, with no fault, since no core reads (R127). -/
def State.debugRead (s : State) (p : Nat) : Nat × State :=
  let s1 := s.debugWake p
  let a := s1.debugAddr p
  let ((bs, _, met, es), s2) := s1.portRead p 14 0xFFFFFFFF a 4
  let (s3, bad) := s2.spmErrors p a 4 es
  (leNat (zeroLines a bs bad), s3.collideFault p met)

/-- What a read of SPM_DBG_DATA returns (R131, R135, R488): 0 where debug pages are closed, for a gated core too (DEDUCED, log entry 46). -/
def State.dbgData (s : State) (p : Nat) : Nat × State :=
  if !s.debugOpen then (0, s)
  else if (s.core p).gatedNow then (0xFFFFFFFF, s)
  else s.debugRead p

/-- SPM_DBG_READ (R131, R135, R488). -/
def execSpmDbgRead (p : Fin 176) (s : State) : Host.Outcome State Fault Refusal :=
  .next (s.hostLoad .spm p (fun s => s.dbgData p))

/-- SPM_DBG_WRITE: the word stored, which may meet a started access (R121 to R123), and the tile's seal left with VALID 0 (R131, R204). -/
def execSpmDbgWrite (p : Fin 176) (value : Nat) (s : State) : Host.Outcome State Fault Refusal :=
  .next (s.hostCmd .spm p (fun s =>
    if !s.debugOpen || (s.core p).gatedNow then s
    else
      let s1 := s.debugWake p
      let a := s1.debugAddr p
      let ((lost, met), s2) := s1.portWrite p 14 16 a (leBytes 4 value)
      (if lost then s2 else s2.portSeal p (a / 4096 * 4096) (unsealed (sealPoison ((s2.core p).sealAt a)))).collideFault p met))

/-- MXU_INJECT (R201). -/
def execMxuInject (p : Fin 176) (s : State) : Host.Outcome State Fault Refusal :=
  .next (s.hostCmd .mxu p (fun s => s.onCore p (fun c => { c with mxuInject := true })))

/-- SEA_INJECT (R224). -/
def execSeaInject (p : Fin 176) (s : State) : Host.Outcome State Fault Refusal :=
  .next (s.hostCmd .sea p (fun s => s.onCore p (fun c => { c with seaInject := true })))

/-! ## Register reads -/

/-- What a read of a register returns and changes (R482): SPM_DBG_DATA reads the scratchpad (R135), and RTE_DATA_LO the route table (R301). -/
def State.load (s : State) (b : Block) (inst off : Nat) : Nat × State :=
  match b, off with
  | .spm, 0x064 => s.dbgData inst
  | .rte, 0x044 => s.routeData
  | _, _ => (s.readWord b inst off, s.latch b inst off)

/-- The bytes of a word that a read enables (R481); the others, which the host does not get, are written as 0 here. -/
def enabled (enable : BitVec 4) (v : Nat) : Nat :=
  if enable = 0xF#4 then v else ((List.range 4).map (fun i => if enable.getLsbD i then 2 ^ (8 * i) * bitsOf v (8 * i) 8 else 0)).sum

/-- A host register read at a BAR0 offset with its byte enables (R480, R481, R482, R486, R487). -/
def State.registerRead (s : State) (addr : Nat) (enable : BitVec 4) : State :=
  match pageAt addr with
  | none => if !s.reached then s else s.emit (.readData (if s.answers .hif then 0 else 0xFFFFFFFF))
  | some (b, inst) =>
    s.hostLoad b inst (fun s =>
      let r := s.load b inst (addr % 0x1000 / 4 * 4)
      (enabled enable r.1, r.2))

/-- LATCHED_PAIR_READ (R482), and the host's other reads of 32 bits: of BAR4 and of configuration space (DESIGN CHOICE, log entry 84). -/
def execLatchedPairRead (addr : HostAddr) (s : State) : Host.Outcome State Fault Refusal :=
  .next (match addr with
    | .bar0 a enable => s.registerRead a enable
    | .bar4 f off => s.bar4Load f off
    | .config f r => s.configLoad f r)

/-! ## Device memory (R210, R490 to R493) -/

/-- The device address of a BAR2 offset (R490). -/
def State.bar2 (s : State) (o : Nat) : Nat := s.rd R.HIF_APERTURE * 2 ^ 30 + o

/-- The parts of a range of addresses that lie in one tile each: address and length. -/
def tilePieces (a n : Nat) : List (Nat × Nat) := partsOf 4096 a n

/-- Whether an address holds memory that a stack has trained (R227, R491). -/
def State.memAt (s : State) (a : Nat) : Bool := hbmHolds a && s.on R.HBM_STATUS_TRAINED (stackOf a)

/-- Whether the die of an address's stack sleeps (R487). -/
def State.stackAsleep (s : State) (a : Nat) : Bool := decide (a < 2 ^ 40) && !s.awake (stackOf a)

/-- Whether the package stops device memory accesses: tripped or after a sag (R486, R524). -/
def State.memStopped (s : State) : Bool := s.pkg == .tripped || s.pkg == .sagged

/-- A BAR2 access of one tile served against the instructions in progress that touch it: a requester with no flag (R235, R493). -/
def State.bar2Serve (s : State) (write : Bool) (a n : Nat) : List Served × State :=
  let ((vs, _, _), t) := s.serveUnit 176 14 0xFFFFFFFF write .hbm a n ⟨[], [], false⟩ (s.rivals 176 16 .hbm)
  (vs, t)

/-- One part of a BAR2 write: bytes stored, VALID of the tile's seal cleared and POISON kept (R210, R491); stored errors of the words that
it covers go (R232); a line, and the seal, that an instruction in progress writes later stays as that wrote it (R235, R493); dropped where no
memory answers. -/
def State.bar2Put (s : State) (a : Nat) (bs : List Byte) : State :=
  if s.stackAsleep a || !s.memAt a then s
  else
    let (vs, s1) := s.bar2Serve true a bs.length
    let m := (servedPieces vs .hbm a bs).foldl (fun m x => m.write x.1 x.2) s1.hbm
    { s1.tallyHub a bs.length with
      hbm := if sealLost (lastMeets vs) ⟨.hbm, a / 4096 * 4096⟩ then m else m.setSeal a (unsealed (sealPoison (s.hbm.sealAt a))) }

/-- BAR2_WRITE (R210, R491): of the physical function, within the aperture of 64 GiB (R477). -/
def execBar2Write (f : Fin 16) (addr : Nat) (bytes : List Byte) (s : State) : Host.Outcome State Fault Refusal :=
  .next (if f.val ≠ 0 || decide (2 ^ 36 < addr + bytes.length) || !s.reached || s.memStopped then s
    else
      let a := s.bar2 addr
      let ps := tilePieces a bytes.length
      let s1 := ps.foldl (fun s x => s.bar2Put x.1 ((bytes.drop (x.1 - a)).take x.2)) s
      let s2 := if ps.any (fun x => s.stackAsleep x.1) then s1.asleepAccess else s1
      if ps.any (fun x => !s.stackAsleep x.1 && !s.memAt x.1) then s2.bump R.HIF_CNT_NOMEM else s2)

/-- One part of a BAR2 read (R487, R491): its bytes, without what an instruction in progress has yet to write (R235, R493), an uncorrectable
word as zeros, and whether there was one. -/
def State.bar2Get (s : State) (a n : Nat) : (List Byte × Bool) × State :=
  if s.stackAsleep a then ((List.replicate n 0xFF#8, false), s)
  else if !s.memAt a then ((List.replicate n 0#8, false), s)
  else
    let (vs, s0) := s.bar2Serve false a n
    let (s1, bad) := s0.wordErrors .hbm (a / 32) ((a + n + 31) / 32) (servedErrs vs .hbm 32 s0.hbm.err)
    ((((servedBytes vs .hbm a (s1.hbm.read a n)).zipIdx).map (fun x => if bad.contains ((a + x.2) / 32) then 0#8 else x.1), !bad.isEmpty), s1.tallyHub a n)

/-- The parts of a BAR2 read one after another: all bytes, and whether the completion is poisoned. -/
def State.bar2Gets (s : State) : List (Nat × Nat) → (List Byte × Bool) × State
  | [] => (([], false), s)
  | x :: xs =>
    let ((b, bad), s1) := s.bar2Get x.1 x.2
    let ((bs, more), s2) := s1.bar2Gets xs
    ((b ++ bs, bad || more), s2)

/-- BAR2_READ (R486, R487, R491). -/
def execBar2Read (f : Fin 16) (addr : Nat) (len : Nat) (s : State) : Host.Outcome State Fault Refusal :=
  .next (if f.val ≠ 0 || decide (2 ^ 36 < addr + len) || !s.reached then s
    else if s.memStopped then s.emit (.readBytes false (List.replicate len 0xFF#8))
    else
      let ps := tilePieces (s.bar2 addr) len
      let ((bs, bad), s1) := s.bar2Gets ps
      (if ps.any (fun x => s.stackAsleep x.1) then s1.asleepAccess else s1).emit (.readBytes bad bs))

end Sys2Proof.Machine
end

