-- ==== Sys2Proof/Machine/Partner.lean ====
section
/-! DEFINITION. Partner mode (R344 to R349): COMPARE, RECORD and SEARCH flits, and the XPK control register. -/

namespace Sys2Proof.Machine

/-- The oldest partner flit, when it is of a kind, handled by `act` and taken. -/
def State.takePartner (s : State) (kind : Nat) (act : PartnerFlit → State → State) : State :=
  if !s.dealerUp then s
  else
    match s.partnerIn with
    | f :: fs => if f.kind = kind then act f { s with partnerIn := fs } else s
    | [] => s

/-- A differing RECORD (R349): recorded; dealing of the image stops; the group stops as by a hand fault of the core, with its journal entry
(R447), also when its dealing has ended.  A core that holds another dealing goes on (R72). -/
def State.diverge (s : State) (a : PartnerFlit) : State :=
  let s1 := ((((((s.wr R.XPK_DIV_WHERE_CORE a.core).wr R.XPK_DIV_WHERE_ENGINE a.engine).wr R.XPK_DIV_WHERE_VALID 1).wr
    R.XPK_DIV_INDEX a.index).wr R.XPK_DIV_PC a.pc).wr R.XPK_DIV_HAND a.handId).wr R.XPK_DIV_DEAL a.deal
  let s2 := s1.wr R.XPK_PSTATUS_STATE 5
  let s3 := { s2.raiseEvt .xpk 0 1 0x0801 with
    partner := { s2.partner with
      search := false, held := true, mine := [], theirs := [], early := s2.partner.early.filter (fun y => y.group != a.group) } }
  let x := s3.group a.group
  match s3.partOf a.core with
  | some p =>
    let i : AbortInfo := ⟨x.serial, 0x0801, s3.chipId, true, some p, a.engine, a.pc, false⟩
    if x.abort.isSome then s3.abortJournal a.group i
    else if x.busy then
      let s4 := if (s3.core p).member.any (fun m => m.group == a.group && m.number == a.deal) then
          (s3.coreFault p 0x0801 a.engine a.pc 0 []).onCore p (fun c => { c with report := none })
        else s3
      s4.abortGroup a.group i (s3.treePorts a.group)
    else (s3.abortJournal a.group i).returnAll (fun o t => t.abortCheck 64 o) a.group i
  | none => s3

/-- The RECORDs of both sides compared (R348, R349): equal pairs are done with; the first pair that differs is the divergence. -/
def State.matchRecords (s : State) : State :=
  match s.partner.pairs.find? (fun e => decide (e.1.value ≠ e.2.value)) with
  | some (a, _) => s.diverge a
  | none =>
    s.partner.pairs.foldl (fun s e =>
      { s with partner := { s.partner with mine := s.partner.mine.erase e.1, theirs := s.partner.theirs.erase e.2 } }) s

/-- A COMPARE received (R347): met with this package's own of the same dealing, or kept as the group's early one.  RECORDs that differ stop
the group first (R349). -/
def State.onCompare (f : PartnerFlit) (s : State) : State :=
  let early (s : State) : State := { s with partner := { s.partner with early := s.partner.early.filter (fun x => x.group != f.group) ++ [f] } }
  if s.partner.differs then (early s).matchRecords
  else match s.partner.waiting.find? (fun x => x.group == f.group && x.handId == f.handId && x.deal == f.deal) with
  | some mine => s.comparePair mine f
  | none => early s

/-- PARTNER_COMPARE (R347). -/
def execPartnerCompare (s : State) : Host.Outcome State Fault Refusal := .next (s.takePartner 1 State.onCompare)

/-- PARTNER_RECORD (R348, R349): the partner's RECORD taken, then the records of both sides matched; a RECORD of this side that
came later is matched by the same row. -/
def execPartnerRecord (s : State) : Host.Outcome State Fault Refusal :=
  .next (if s.dealerUp then
      (s.takePartner 2 (fun f s => if s.partner.search then
        { s with partner := { s.partner with theirs := s.partner.theirs ++ [f] } } else s)).matchRecords
    else s)

/-- The search of a group begun (R348): it returns to its last checkpoint trick and its round is dealt again with RECORDs.  A
dealing of it in progress is aborted first. -/
def State.startSearch (s : State) (g : Nat) : State :=
  let s1 := { s with partner := { s.partner with
    waiting := s.partner.waiting.filter (fun x => x.group != g), early := s.partner.early.filter (fun x => x.group != g),
    bad := some g, search := true, mine := [], theirs := [], held := false } }
  let s2 := s1.wr R.XPK_PSTATUS_STATE 4
  let x := s2.group g
  if x.abort.isSome then s2
  else if x.busy then s2.abortGroup g ⟨x.serial, 0x0801, s2.chipId, false, none, 0, 0xFFFFFFFF, true⟩ (s2.treePorts g)
  else s2.returnAll (fun o t => t.abortCheck 64 o) g ⟨x.serial, 0x0801, s2.chipId, false, none, 0, 0xFFFFFFFF, true⟩

/-- PARTNER_SEARCH (R348). -/
def execPartnerSearch (s : State) : Host.Outcome State Fault Refusal :=
  .next (s.takePartner 3 (fun f s => s.startSearch f.group))

/-- XPK_CLEAR (R340, R352): the withdrawn state and ABORT_HELD end. -/
def execXpkClear (s : State) : Host.Outcome State Fault Refusal :=
  .next (s.hostCmd .xpk 0 (fun s =>
    let s1 := s.wr R.XPK_LOAD_ABORT_HELD 0
    if s1.rd R.XPK_LOAD_STATE = 3 then s1.wr R.XPK_LOAD_STATE 0 else s1))

/-- XPK_SEARCH (R348, R450): SEARCH goes to the partner and the mismatched group is searched; a hold by another package's
ABORT ends. -/
def execXpkSearch (s : State) : Host.Outcome State Fault Refusal :=
  .next (s.hostCmd .xpk 0 (fun s =>
    if !s.partner.held then s
    else
      match s.partner.bad with
      | some g =>
        if s.rd R.XPK_PSTATUS_STATE ≠ 5 then
          let f : PartnerFlit := { s.partner.last.getD ⟨3, g, 0, 0, 0, 0, 0, 0, 0⟩ with kind := 3, group := g, value := 0 }
          (s.sendTrick (s.rd R.XPK_PCFG_PORT) f.flit).startSearch g
        else s
      | none => { s with partner := { s.partner with held := false } }))

/-- XPK_RESUME (R347, R349, R450): dealing goes on without a search; the checkpoint of a mismatched comparison stands. -/
def execXpkResume (s : State) : Host.Outcome State Fault Refusal :=
  .next (s.hostCmd .xpk 0 (fun s =>
    if !s.partner.held then s
    else
      let s1 := match s.partner.bad with
        | some g => if s.rd R.XPK_PSTATUS_STATE ≠ 5 then s.checkpoint g else s
        | none => s
      { s1.wr R.XPK_PSTATUS_STATE (if !s.on R.XPK_PCFG_EN then 0 else if s.partner.waiting = [] then 1 else 2) with
        partner := { s1.partner with held := false, bad := none, search := false, mine := [], theirs := [] } }))

end Sys2Proof.Machine
end

