-- ==== Sys2Proof/Machine/Dispatch.lean ====
section
/-! DEFINITION. The command dispatch: one arm per constructor of `Instr`. -/

namespace Sys2Proof.Machine

def exec (i : Instr) (s : State) : Host.Outcome State Fault Refusal :=
  match i with
  | .nop p => Sys2Proof.Machine.execNop p s
  | .wait p => Sys2Proof.Machine.execWait p s
  | .signal p => Sys2Proof.Machine.execSignal p s
  | .loop p => Sys2Proof.Machine.execLoop p s
  | .endl p => Sys2Proof.Machine.execEndl p s
  | .setp p => Sys2Proof.Machine.execSetp p s
  | .brp p => Sys2Proof.Machine.execBrp p s
  | .trick p => Sys2Proof.Machine.execTrick p s
  | .adg p => Sys2Proof.Machine.execAdg p s
  | .wopen p => Sys2Proof.Machine.execWopen p s
  | .wclose p => Sys2Proof.Machine.execWclose p s
  | .mark p => Sys2Proof.Machine.execMark p s
  | .halt p => Sys2Proof.Machine.execHalt p s
  | .mload p => Sys2Proof.Machine.execMload p s
  | .mmul p => Sys2Proof.Machine.execMmul p s
  | .mdrain p => Sys2Proof.Machine.execMdrain p s
  | .mburn p => Sys2Proof.Machine.execMburn p s
  | .vop p => Sys2Proof.Machine.execVop p s
  | .vred p => Sys2Proof.Machine.execVred p s
  | .vcvt p => Sys2Proof.Machine.execVcvt p s
  | .fexp p => Sys2Proof.Machine.execFexp p s
  | .flog p => Sys2Proof.Machine.execFlog p s
  | .frsq p => Sys2Proof.Machine.execFrsq p s
  | .fact p => Sys2Proof.Machine.execFact p s
  | .dcopy p => Sys2Proof.Machine.execDcopy p s
  | .dfill p => Sys2Proof.Machine.execDfill p s
  | .dgather p => Sys2Proof.Machine.execDgather p s
  | .lput p => Sys2Proof.Machine.execLput p s
  | .lfetch p => Sys2Proof.Machine.execLfetch p s
  | .lsig p => Sys2Proof.Machine.execLsig p s
  | .radd p => Sys2Proof.Machine.execRadd p s
  | .ranchor p => Sys2Proof.Machine.execRanchor p s
  | .rcvt p => Sys2Proof.Machine.execRcvt p s
  | .spmm p => Sys2Proof.Machine.execSpmm p s
  | .sample p => Sys2Proof.Machine.execSample p s
  | .slogp p => Sys2Proof.Machine.execSlogp p s
  | .engineStart p e => Sys2Proof.Machine.execEngineStart p e s
  | .instructionComplete p e => Sys2Proof.Machine.execInstructionComplete p e s
  | .flagTimeout p e => Sys2Proof.Machine.execFlagTimeout p e s
  | .streamPageFetch p page => Sys2Proof.Machine.execStreamPageFetch p page s
  | .requestPromote p receive waited => Sys2Proof.Machine.execRequestPromote p receive waited s
  | .abortTrick p => Sys2Proof.Machine.execAbortTrick p s
  | .memberArrive p => Sys2Proof.Machine.execMemberArrive p s
  | .deal pick need extra => Sys2Proof.Machine.execDeal pick need extra s
  | .memberResume p => Sys2Proof.Machine.execMemberResume p s
  | .dummyLoadStep p => Sys2Proof.Machine.execDummyLoadStep p s
  | .jokerSwap p => Sys2Proof.Machine.execJokerSwap p s
  | .checkDue => Sys2Proof.Machine.execCheckDue s
  | .groupResume g => Sys2Proof.Machine.execGroupResume g s
  | .flitTimeSend port => Sys2Proof.Machine.execFlitTimeSend port s
  | .flitReceive port levels ago => Sys2Proof.Machine.execFlitReceive port levels ago s
  | .ackTimeout port => Sys2Proof.Machine.execAckTimeout port s
  | .overrunReceive port last => Sys2Proof.Machine.execOverrunReceive port last s
  | .overrunBackoffExpire port => Sys2Proof.Machine.execOverrunBackoffExpire port s
  | .redealReq port => Sys2Proof.Machine.execRedealReq port s
  | .linkSignalLoss port lane => Sys2Proof.Machine.execLinkSignalLoss port lane s
  | .peerTrainingSeen port => Sys2Proof.Machine.execPeerTrainingSeen port s
  | .trainingStateDone port report => Sys2Proof.Machine.execTrainingStateDone port report s
  | .trainingTimeout port => Sys2Proof.Machine.execTrainingTimeout port s
  | .linkReceiveWrite port => Sys2Proof.Machine.execLinkReceiveWrite port s
  | .remoteSignalApply port => Sys2Proof.Machine.execRemoteSignalApply port s
  | .staleWaitExpire port => Sys2Proof.Machine.execStaleWaitExpire port s
  | .flitForward port => Sys2Proof.Machine.execFlitForward port s
  | .fetchServe p => Sys2Proof.Machine.execFetchServe p s
  | .fetchReturn port => Sys2Proof.Machine.execFetchReturn port s
  | .trickArrive port => Sys2Proof.Machine.execTrickArrive port s
  | .trickRelease port => Sys2Proof.Machine.execTrickRelease port s
  | .trickEnd port => Sys2Proof.Machine.execTrickEnd port s
  | .trickDeal port => Sys2Proof.Machine.execTrickDeal port s
  | .trickAbort port => Sys2Proof.Machine.execTrickAbort port s
  | .trickAbortArrive port => Sys2Proof.Machine.execTrickAbortArrive port s
  | .trickAbortDone port => Sys2Proof.Machine.execTrickAbortDone port s
  | .partnerCompare => Sys2Proof.Machine.execPartnerCompare s
  | .partnerRecord => Sys2Proof.Machine.execPartnerRecord s
  | .partnerSearch => Sys2Proof.Machine.execPartnerSearch s
  | .beacon ppm => Sys2Proof.Machine.execBeacon ppm s
  | .timeLock => Sys2Proof.Machine.execTimeLock s
  | .beaconLoss => Sys2Proof.Machine.execBeaconLoss s
  | .timeStepApply => Sys2Proof.Machine.execTimeStepApply s
  | .timeMark die => Sys2Proof.Machine.execTimeMark die s
  | .ppsEdge => Sys2Proof.Machine.execPpsEdge s
  | .extRefLoss => Sys2Proof.Machine.execExtRefLoss s
  | .freqSwitch die stop => Sys2Proof.Machine.execFreqSwitch die stop s
  | .powerTick report => Sys2Proof.Machine.execPowerTick report s
  | .pacingLevelStep p => Sys2Proof.Machine.execPacingLevelStep p s
  | .freqStep die => Sys2Proof.Machine.execFreqStep die s
  | .powerMeasure replies => Sys2Proof.Machine.execPowerMeasure replies s
  | .thermalThrottleStep die => Sys2Proof.Machine.execThermalThrottleStep die s
  | .thermalTrip => Sys2Proof.Machine.execThermalTrip s
  | .droopDetect die => Sys2Proof.Machine.execDroopDetect die s
  | .droopHoldExpire die => Sys2Proof.Machine.execDroopHoldExpire die s
  | .regionClockStop p => Sys2Proof.Machine.execRegionClockStop p s
  | .regionPowerGate p => Sys2Proof.Machine.execRegionPowerGate p s
  | .diePowerGate die => Sys2Proof.Machine.execDiePowerGate die s
  | .dieWakeDone die => Sys2Proof.Machine.execDieWakeDone die s
  | .sweep => Sys2Proof.Machine.execSweep s
  | .requestAdmit f => Sys2Proof.Machine.execRequestAdmit f s
  | .completionWrite f => Sys2Proof.Machine.execCompletionWrite f s
  | .completionMsgTimer f => Sys2Proof.Machine.execCompletionMsgTimer f s
  | .requestLogWrite f offset bytes => Sys2Proof.Machine.execRequestLogWrite f offset bytes s
  | .healthSample => Sys2Proof.Machine.execHealthSample s
  | .healthDecay => Sys2Proof.Machine.execHealthDecay s
  | .healthStore => Sys2Proof.Machine.execHealthStore s
  | .journalStore => Sys2Proof.Machine.execJournalStore s
  | .scrubPass ddr unit word found => Sys2Proof.Machine.execScrubPass ddr unit word found s
  | .hostReadTimeout who => Sys2Proof.Machine.execHostReadTimeout who s
  | .dealerWatchdogExpire => Sys2Proof.Machine.execDealerWatchdogExpire s
  | .lockstepMismatch => Sys2Proof.Machine.execLockstepMismatch s
  | .sagDetect auxLow pwrFail => Sys2Proof.Machine.execSagDetect auxLow pwrFail s
  | .holdupSaveDone => Sys2Proof.Machine.execHoldupSaveDone s
  | .packageReset perst => Sys2Proof.Machine.execPackageReset perst s
  | .bistDone die shared failing => Sys2Proof.Machine.execBistDone die shared failing s
  | .hbmTrainingDone die ok => Sys2Proof.Machine.execHbmTrainingDone die ok s
  | .ddrTrainingDone results => Sys2Proof.Machine.execDdrTrainingDone results s
  | .anchorSelftestDone die failing => Sys2Proof.Machine.execAnchorSelftestDone die failing s
  | .linkWaitExpire => Sys2Proof.Machine.execLinkWaitExpire s
  | .fwCheckDone => Sys2Proof.Machine.execFwCheckDone s
  | .planLoadDone => Sys2Proof.Machine.execPlanLoadDone s
  | .nvmOperationDone ok => Sys2Proof.Machine.execNvmOperationDone ok s
  | .lcsOperationDone ok => Sys2Proof.Machine.execLcsOperationDone ok s
  | .attResultReady => Sys2Proof.Machine.execAttResultReady s
  | .functionLevelReset f => Sys2Proof.Machine.execFunctionLevelReset f s
  | .d3hotEntry f => Sys2Proof.Machine.execD3hotEntry f s
  | .vfDisable keep => Sys2Proof.Machine.execVfDisable keep s
  | .hotReset => Sys2Proof.Machine.execHotReset s
  | .bar2Write f addr bytes => Sys2Proof.Machine.execBar2Write f addr bytes s
  | .bar2Read f addr len => Sys2Proof.Machine.execBar2Read f addr len s
  | .registerWrite addr value => Sys2Proof.Machine.execRegisterWrite addr value s
  | .latchedPairRead addr => Sys2Proof.Machine.execLatchedPairRead addr s
  | .evtForce page value => Sys2Proof.Machine.execEvtForce page value s
  | .evtEnableWrite page value => Sys2Proof.Machine.execEvtEnableWrite page value s
  | .pageCtrlWrite page value => Sys2Proof.Machine.execPageCtrlWrite page value s
  | .seqResume p => Sys2Proof.Machine.execSeqResume p s
  | .spmDbgRead p => Sys2Proof.Machine.execSpmDbgRead p s
  | .spmDbgWrite p value => Sys2Proof.Machine.execSpmDbgWrite p value s
  | .mxuInject p => Sys2Proof.Machine.execMxuInject p s
  | .seaInject p => Sys2Proof.Machine.execSeaInject p s
  | .ddrRetrain => Sys2Proof.Machine.execDdrRetrain s
  | .lnkRedeal port => Sys2Proof.Machine.execLnkRedeal port s
  | .lnkTrain port => Sys2Proof.Machine.execLnkTrain port s
  | .lnkBinClear port => Sys2Proof.Machine.execLnkBinClear port s
  | .routeEntryWrite value => Sys2Proof.Machine.execRouteEntryWrite value s
  | .routeEntryRead => Sys2Proof.Machine.execRouteEntryRead s
  | .timStep => Sys2Proof.Machine.execTimStep s
  | .timRelock => Sys2Proof.Machine.execTimRelock s
  | .xpkClear => Sys2Proof.Machine.execXpkClear s
  | .xpkSearch => Sys2Proof.Machine.execXpkSearch s
  | .xpkResume => Sys2Proof.Machine.execXpkResume s
  | .stage pair => Sys2Proof.Machine.execStage pair s
  | .cut pair => Sys2Proof.Machine.execCut pair s
  | .drop pair => Sys2Proof.Machine.execDrop pair s
  | .cancel => Sys2Proof.Machine.execCancel s
  | .wslPendingDone => Sys2Proof.Machine.execWslPendingDone s
  | .claim seat => Sys2Proof.Machine.execClaim seat s
  | .enlist seat => Sys2Proof.Machine.execEnlist seat s
  | .release seat => Sys2Proof.Machine.execRelease seat s
  | .withdraw seat => Sys2Proof.Machine.execWithdraw seat s
  | .load => Sys2Proof.Machine.execLoad s
  | .unload => Sys2Proof.Machine.execUnload s
  | .clearDrift => Sys2Proof.Machine.execClearDrift s
  | .bidReset => Sys2Proof.Machine.execBidReset s
  | .pwrHoldAwakeWrite dies => Sys2Proof.Machine.execPwrHoldAwakeWrite dies s
  | .resume => Sys2Proof.Machine.execResume s
  | .retire part => Sys2Proof.Machine.execRetire part s
  | .checkNow => Sys2Proof.Machine.execCheckNow s
  | .hubReset => Sys2Proof.Machine.execHubReset s
  | .store sect => Sys2Proof.Machine.execStore sect s
  | .erase sect => Sys2Proof.Machine.execErase sect s
  | .submit => Sys2Proof.Machine.execSubmit s
  | .exitDebug => Sys2Proof.Machine.execExitDebug s
  | .claimOwner => Sys2Proof.Machine.execClaimOwner s
  | .cert => Sys2Proof.Machine.execCert s
  | .attestationReport => Sys2Proof.Machine.execAttestationReport s
  | .certificateChain => Sys2Proof.Machine.execCertificateChain s
  | .go => Sys2Proof.Machine.execGo s
  | .functionEnable f => Sys2Proof.Machine.execFunctionEnable f s
  | .functionDisable f => Sys2Proof.Machine.execFunctionDisable f s
  | .stakeBurstWrite f value => Sys2Proof.Machine.execStakeBurstWrite f value s
  | .resetRelease => Sys2Proof.Machine.execResetRelease s
  | .pcieLinkUp speed width flitMode config => Sys2Proof.Machine.execPcieLinkUp speed width flitMode config s
  | .hubResetDone => Sys2Proof.Machine.execHubResetDone s
  | .regionWakeDone p => Sys2Proof.Machine.execRegionWakeDone p s
  | .sysrefLoss => Sys2Proof.Machine.execSysrefLoss s
  | .sysrefReturn => Sys2Proof.Machine.execSysrefReturn s
  | .msixUnmask f entry => Sys2Proof.Machine.execMsixUnmask f entry s

end Sys2Proof.Machine
end

