-- ==== Sys2Proof/Safety.lean ====
section
/-! DEFINITION. What the statements mean by a sound state: memories in their canonical form, and the parts of the fuses that nothing
changes. -/

namespace Sys2Proof.Machine

/-- A memory is in its canonical form: addresses strictly rising, no entry equal to what an unlisted address reads as. -/
def Memory.wf (m : List Host.Cell) : Bool := SMap.wf 0#8 m

/-- Every addressed memory of the package is in its canonical form: HBM, the DDR5 tier and every scratchpad. -/
def State.memoryWf (s : State) : Bool :=
  Memory.wf s.hbm.bytes && Memory.wf s.ddr.bytes && s.cores.all (fun e => Memory.wf e.2.spm)

/-- The fuses without the fuse-held life-cycle state, which alone changes after manufacture (R21, R526). -/
def Fuses.wired (f : Fuses) : Fuses := { f with lcs := .raw }

/-! ## Frames -/

/-- The register fields that stay as they are between two states: every one whose key is not listed. -/
def FieldsKept (s t : State) (ks : List Nat) : Prop :=
  ∀ (f : Fld) (inst idx : Nat), f.key inst idx ∉ ks → t.rd f inst idx = s.rd f inst idx

/-- Every core but those listed stays as it is. -/
def CoresKept (s t : State) (ps : List Nat) : Prop := ∀ q, q ∉ ps → t.core q = s.core q

/-! ## The sequencer -/

/-- The command of the opcode table that handles an instruction of the opcode map (R86). -/
def Op.row (o : Op) (p : Fin 176) : Instr :=
  match o with
  | .nop => .nop p | .wait => .wait p | .signal => .signal p | .loop => .loop p | .endl => .endl p | .setp => .setp p
  | .brp => .brp p | .trick => .trick p | .adg => .adg p | .wopen => .wopen p | .wclose => .wclose p | .mark => .mark p
  | .halt => .halt p | .mload => .mload p | .mmul => .mmul p | .mdrain => .mdrain p | .mburn => .mburn p | .vop => .vop p
  | .vred => .vred p | .vcvt => .vcvt p | .fexp => .fexp p | .flog => .flog p | .frsq => .frsq p | .fact => .fact p
  | .dcopy => .dcopy p | .dfill => .dfill p | .dgather => .dgather p | .lput => .lput p | .lfetch => .lfetch p
  | .lsig => .lsig p | .radd => .radd p | .ranchor => .ranchor p | .rcvt => .rcvt p | .spmm => .spmm p
  | .sample => .sample p | .slogp => .slogp p

/-- The instructions that the sequencer executes itself, those with ENGINE 0 (R73, R86). -/
def Op.ofSequencer : Op → Bool
  | .nop | .wait | .signal | .loop | .endl | .setp | .brp | .trick | .adg | .wopen | .wclose | .mark | .halt => true
  | _ => false

/-- The sequencer of part `p` issues, and its next slot is `w`, an instruction `o` of a resident page (R73, R101). -/
def State.meets (s : State) (p : Nat) (o : Op) (w : Slot) : Prop :=
  s.issues p = true ∧ ((s.core p).frameAt (s.core p).pc).isSome = true ∧
  (s.core p).slotAt (s.core p).pc = some w ∧ w.op = some o

/-- What the seal check of the page of part `p`'s next slot found, none when it passed (R103). -/
def State.pageBad (s : State) (p : Nat) : Option PageFault := ((s.core p).frameAt (s.core p).pc).bind (fun f => f.bad)

/-- The fault that the decode check of the next slot `w` of part `p` raises before anything is executed, with the engine recorded:
ABSENT_ENGINE, or ILLEGAL_OPCODE (R106); none when the slot passes. -/
def State.slotFault (s : State) (p : Nat) (o : Op) (w : Slot) : Option (Nat × Nat) :=
  let c := s.core p
  if bitOf s.fuses.engines w.engine then some (0x0501, w.engine)
  else if o = .adg ∧ c.pc % 16384 = 16352 then some (0x0502, w.engine)
  else if (illegal w ((c.slotAt (c.pc + 32)).getD (Slot.ofNat 0)) (s.legalEnv p)).isSome then some (0x0502, w.engine)
  else none

/-- The sequencer of part `p` meets slot `w`, a legal instruction `o`, and its wait holds. -/
def State.runs (s : State) (p : Nat) (o : Op) (w : Slot) : Prop :=
  s.meets p o w ∧ s.pageBad p = none ∧ s.slotFault p o w = none ∧ (s.core p).waitHolds w = true

/-- Whether the signal word of `w`, executed on part `p`, names a flag of part `q` (R54, R82). -/
def State.signals (s : State) (p : Nat) (w : Slot) (q : Nat) : Prop :=
  (w.stgt = 1 ∧ q = p) ∨ (w.stgt = 2 ∧ s.partOf w.starget = some q)

/-- What `t` holds after slot `w` of part `p` left the core record `c'`: the flag that the signal word names has the increment added
modulo 65,536 (R53), every other flag, core and piece of state apart from register fields is as in `s`. -/
def Signalled (s t : State) (p : Nat) (w : Slot) (c' : Core) : Prop :=
  t = { s with cores := t.cores, regs := t.regs } ∧
  (∀ q, { t.core q with flags := [] } = { (if q = p then c' else s.core q) with flags := [] }) ∧
  (∀ q i, s.signals p w q → i = w.sflag →
    (t.core q).flag i = ((if q = p then c' else s.core q).flag i + w.sinc) % 65536) ∧
  (∀ q i, ¬(s.signals p w q ∧ i = w.sflag) → (t.core q).flag i = (if q = p then c' else s.core q).flag i)

/-- A core record whose sequencer has handled a slot and goes on at byte offset `n`. -/
def Core.at' (c : Core) (n tick : Nat) : Core := { c with pc := n, stallAt := tick, handled := c.handled + 1 }

/-- A counter field is one higher, or stays at all ones (R133 and the like). -/
def Counted (s t : State) (f : Fld) (inst : Nat) : Prop := t.rd f inst = min (s.rd f inst + 1) (2 ^ f.width - 1)

/-- A register page is answered: its block answers in the package's state and its die is awake (R486, R487). -/
def State.reachable (s : State) (b : Block) (inst : Nat) : Prop := s.answers b = true ∧ s.awake (b.die inst) = true


/-! ## Issue queues and engines -/

/-- The entry that the sequencer of part `p` places for slot `w` (R75). -/
def State.entryFor (s : State) (p : Nat) (o : Op) (w : Slot) : QEntry :=
  let c := s.core p
  ⟨w, c.pc, (List.range 4).map (fun k => if (w.usedSlots o).contains k then c.slot (w.a k) else AdgSlot.zero),
    (c.loops.head?).map (·.idx), c.handled⟩

/-- The state in which slot `w` of part `p` stands at the tail of its engine's queue and the sequencer has gone on (R73, R75); the
engine's wait limit counts from now when the entry is the head (R53). -/
def State.queued (s : State) (p : Nat) (o : Op) (w : Slot) : State :=
  (s.onCore p (fun c => c.at' (c.pc + 32) s.tick)).onCore p (fun c =>
    let en := c.engine w.engine
    c.setEngine w.engine ⟨en.queue ++ [s.entryFor p o w], if en.queue = [] then s.tick else en.headSince, en.exec⟩)

/-- What the body of an engine's head instruction `q` starts from: the head has left the queue `q :: rest` of engine `e`. -/
def State.startCtx (s : State) (p e : Nat) (q : QEntry) (rest : List QEntry) : ECtx :=
  ECtx.start (s.onCore p (fun c => c.setEngine e ⟨rest, s.tick, (c.engine e).exec⟩)) p q

/-- Whether the head instruction `q` of a queue of part `p` may start: the core runs, its wait holds (R76), and the link-send engine has a
tag for an LFETCH and no earlier fetch under way to a tile that it uses (R77, R288). -/
def State.mayStart (s : State) (p : Nat) (q : QEntry) : Prop :=
  s.starts p = true ∧ (s.core p).waitHolds q.word = true ∧ (s.core p).lseFree q = true

/-- The head `q` of the queue of engine `e` is an MMUL whose buffer or blocks do not suit it: it faults where it stands (R173). -/
def State.unready (s : State) (p e : Nat) (q : QEntry) : Prop :=
  ((s.core p).engine e).queue.head? = some q ∧ q.word.op = some .mmul ∧ s.starts p = true ∧
  (s.core p).mmulReady q.word q.loop0 = false

/-- What an engine leaves that has started `q` with the body's outcome `r`: the instruction is listed as started and not completed,
with the tiles it wrote, an LFETCH's pushes reserved; its signal waits for its completion, but for an LPUT's signal on the package,
which is given at once (R51, R78, R98); cycles waited at the bank ports are counted, a free number (R64). -/
def Began (r : ECtx) (u : State) (p e : Nat) (q : QEntry) (stamp : Nat) (x : ExecEntry) : Prop :=
  let s1 : State := { r.s.countWaits p r.reqs with stamp := stamp + 1 }
  let c' := ((r.s.core p).reserve q.word q.slots).setEngine e
    { (r.s.core p).engine e with exec := ((r.s.core p).engine e).exec ++ [x] }
  x.word = q.word ∧ x.pc = q.pc ∧ x.slots = q.slots ∧ x.index = q.index ∧ x.stamp = stamp ∧
  (∀ a, a ∈ x.wrote ↔ a ∈ r.wrote.map (·.at_)) ∧
  (x.signaled = true ↔ q.word.op = some .lput ∧ (q.word.stgt = 1 ∨ q.word.stgt = 2)) ∧
  (if x.signaled then Signalled s1 u p q.word c' else u = { s1 with cores := u.cores } ∧ CoresKept s1 u [p] ∧ u.core p = c')

/-- What a hand fault leaves on part `p` (R69 steps 1 and 2, R108): the core is faulted with its queues discarded and its report left
for the dealer, SEQ_FAULT holds the first fault since the deal, and the seals of the tiles listed are poisoned. -/
def Faulted (s t : State) (p code engine pc : Nat) (tiles : List TileAt) : Prop :=
  (t.core p).st = .faulted ∧ (∀ e, (t.core p).engine e = Engine.empty) ∧ (t.core p).report.isSome = true ∧
  ((s.core p).report = none → ((t.core p).report).map (fun r => (r.code, r.engine, r.pc)) = some (code, engine, pc)) ∧
  (s.rd R.SEQ_FAULT_CODE p = 0 → t.rd R.SEQ_FAULT_CODE p = code % 2 ^ 16 ∧ t.rd R.SEQ_FAULT_ENGINE p = engine % 16 ∧
    t.rd R.SEQ_FAULT_PC p = pc % 2 ^ 32) ∧
  (s.rd R.SEQ_FAULT_CODE p ≠ 0 → t.regs = s.regs) ∧
  (∀ a ∈ tiles, a.space ≠ .host → t.sealOf p a = poisonSeal) ∧
  CoresKept s t [p] ∧ t.hbm.bytes = s.hbm.bytes ∧ t.ddr.bytes = s.ddr.bytes ∧ (t.core p).spm = (s.core p).spm

/-- An engine has started `q`, and the next entry has reached the head: an MMUL that its state does not suit faults there (R76, R173). -/
def Started (r : ECtx) (t : State) (p e : Nat) (q : QEntry) (stamp : Nat) (x : ExecEntry) : Prop :=
  ∃ u, Began r u p e q stamp x ∧ ((∀ n, ¬u.unready p e n) → t = u) ∧
    (∀ n, u.unready p e n → Faulted (u.mxuState p) t p 0x0502 e n.pc (u.core p).startedTiles)

/-- One byte of a memory as core `p` addresses it; 0 for host memory, which is outside the package. -/
def State.byteOf (s : State) (p : Nat) (sp : Space) (a : Nat) : Byte :=
  match sp with
  | .spm => SMap.get 0#8 (s.core p).spm a
  | .hbm => SMap.get 0#8 s.hbm.bytes a
  | .ddr => SMap.get 0#8 s.ddr.bytes a
  | .host => 0#8

/-! ## What engines compute -/

/-- Nothing disturbs the accesses of an instruction: no rival in any space (R235), and no word of the memories it reads holds a stored
error (R127, R232). -/
def ECtx.quiet (c : ECtx) : Prop :=
  (∀ sp, c.s.rivals c.p c.word.engine sp = []) ∧ (c.s.core c.p).spmErr = [] ∧ c.s.hbm.err = [] ∧ c.s.ddr.err = []

/-- The slot copied for an operand position. -/
def ECtx.operandSlot (c : ECtx) (pos : Nat) : AdgSlot := c.slots.getD pos AdgSlot.zero

/-- An operand addresses memory of the package through its slot, not a queue. -/
def ECtx.direct (c : ECtx) (pos : Nat) : Prop := (c.operandSlot pos).queue = false ∧ (c.operandSlot pos).space ≠ .host

/-- The bytes of the first `k` units that an operand addresses, as they stand (R97, R168). -/
def ECtx.operandBytes (c : ECtx) (pos unit k : Nat) : List Byte :=
  (List.range k).flatMap (fun j => c.s.bytesAt c.p (c.operandSlot pos).space ((c.operandSlot pos).addr unit j) unit)

/-- The first `cnt` elements of `wd` bits that an operand addresses, as they stand (R137, R168). -/
def ECtx.operand (c : ECtx) (pos unit wd cnt : Nat) : List Nat :=
  elems wd 0 cnt (c.operandBytes pos unit ((wd * cnt + 8 * unit - 1) / (8 * unit)))

/-- The scale codes of `rows` K-vectors of `nb` blocks as operand 1 addresses them (R171, R172). -/
def ECtx.scaleCodes (c : ECtx) (mode rows nb : Nat) : List Nat :=
  match mode with
  | 1 => c.operand 1 64 8 (rows * nb)
  | 2 => c.operand 1 64 32 rows
  | _ => []

/-- The codes of a result, packed, stand in the units that an operand addresses, the rest of the last unit zero (R137, R168); said of units
that do not repeat. -/
def Landed (c r : ECtx) (pos unit wd : Nat) (cs : List Nat) : Prop :=
  let a := c.operandSlot pos
  let bs := packBytes wd ((wd * cs.length + 7) / 8) cs
  let k := (bs.length + unit - 1) / unit
  c.direct pos → (∀ i j, i < j → j < k → a.addr unit i ≠ a.addr unit j) →
  ∀ j < k, ∀ i < unit, r.s.byteOf c.p a.space (a.addr unit j + i) = bs.getD (unit * j + i) 0#8

/-- No unit of one operand touches a unit of another. -/
def ECtx.apart (c : ECtx) (pos unit pos' unit' : Nat) : Prop :=
  let a := c.operandSlot pos
  let b := c.operandSlot pos'
  a.space ≠ b.space ∨ ∀ i j, a.addr unit i + unit ≤ b.addr unit' j ∨ b.addr unit' j + unit' ≤ a.addr unit i

/-- The operand positions through which an instruction writes memory, each with the bytes of its unit (R100, R168). -/
def Slot.dests (w : Slot) : List (Nat × Nat) :=
  match w.op with
  | some .mdrain => [(0, 4096), (1, 64)]
  | some .vcvt => [(2, 512), (3, 512)]
  | some .vop | some .vred | some .fexp | some .flog | some .frsq | some .fact => [(2, 512)]
  | some .dcopy | some .dfill | some .dgather => [(1, unitBytes w.unit)]
  | some .radd | some .rcvt => [(2, 4096)]
  | some .ranchor | some .sample | some .slogp => [(2, 64)]
  | _ => []

/-- The place of the `j`-th unit that an operand writes to: its queue's next tiles, or the addresses of its slot (R97, R98). -/
def ECtx.destUnit (c : ECtx) (pos unit j : Nat) (u : TileAt) : Prop :=
  let a := c.operandSlot pos
  if a.queue = true then ∃ x, (c.s.core c.p).queues[a.qnum]? = some x ∧ u = ⟨.spm, 4096 * (x.base + (x.tail + j) % x.depth)⟩
  else u = ⟨a.space, a.addr unit j⟩

/-- The line of the panel table that names panel `x` (R377). -/
def ECtx.panelAt (c : ECtx) (x : Nat) : TileAt :=
  let a := c.operandSlot 1
  match a.loops with
  | [(_, str)] => ⟨a.space, (((a.base : Int) + x * str) % ((2 ^ 64 : Nat) : Int)).toNat / 64 * 64⟩
  | _ => ⟨a.space, (a.base + 64 * x) % 2 ^ 64⟩

/-- Panel `x` as it stands in memory: its header and its entries (R375, R377). -/
def ECtx.panelOf (c : ECtx) (x : Nat) : Panel × List PanelEnt :=
  let t := c.panelAt x
  let p := Panel.ofLine t.addr (c.s.bytesAt c.p t.space t.addr 64)
  (p, (elems 64 0 p.nnz ((List.range ((p.nnz + 7) / 8)).flatMap (fun i => c.s.bytesAt c.p t.space (t.addr + 64 * (i + 1)) 64))).map PanelEnt.ofNat)

/-! ## Dealings and tricks -/

/-- A trick of dealing `d` of group `g` released with deal time `tm` (R319, R320): RELEASE goes to every child port, the next trick is
collected from now on, and the local members that wait get the deal time, in the scale of their die's copy, unless a step of TABLE_TIME
holds it back (R310). -/
def Released (s t : State) (g : Nat) (d : Dealing) (tm : Nat) : Prop :=
  (∀ c ∈ s.childPorts g, (t.port c).tricks = (s.port c).tricks ++
    [({ TrickFlit.plain 2 g (s.group g).serial with trick := d.trick, t := tm } : TrickFlit).flit]) ∧
  (t.group g).st = .released ∧ (t.group g).kids = [] ∧ (t.group g).sentUp = false ∧
  (∃ d', (t.group g).dealing = some d' ∧ d'.trick = d.trick + 1 ∧ d'.hand = d.hand ∧ d'.number = d.number ∧ d'.parts = d.parts ∧
    d'.dealAt = tm) ∧
  (s.timing.step = none → ∀ p ∈ d.parts, (t.core p).resumeAt =
    if (s.core p).awaits then some ((tm : Int) - (s.die (p / 11)).owed) else (s.core p).resumeAt) ∧
  (s.timing.step ≠ none → t.timing.held = s.timing.held ++ [(g, tm)] ∧ t.cores = s.cores)

/-- Dealing `d` of group `g` has ended (R42, R320): its hand's completion count is one more, the group deals nothing, its members are
free, and no other core has changed. -/
def DealingEnded (s t : State) (g : Nat) (d : Dealing) : Prop :=
  (t.group g).dealing = none ∧ (t.group g).st = .idle ∧ t.count d.hand = s.count d.hand + 1 ∧
  (∀ p ∈ d.parts, (t.core p).member = none ∧ (t.core p).st = .idle ∧ (t.core p).ckptEnd = (s.dealHdr d).ckpt) ∧
  CoresKept s t d.parts

/-- An abort trick has begun on group `g` (R69 step 3, R323): the ABORT has gone out on `ports`; every local member has stopped with its
issue queues discarded and the tiles of its started instructions poisoned. -/
def AbortBegun (s t : State) (g : Nat) (d : Dealing) (a : AbortInfo) (ports : List Nat) : Prop :=
  (t.group g).st = .aborting ∧ (t.group g).abort = some a ∧ (t.group g).dealing = some d ∧ (t.group g).kids = [] ∧
  (∀ c ∈ ports, (t.port c).tricks = (s.port c).tricks ++
    [({ TrickFlit.plain 4 g a.serial with code := a.code, origin := a.origin } : TrickFlit).flit]) ∧
  (∀ p ∈ d.parts, (t.core p).trick = .aborting ∧ (t.core p).eng = [] ∧ (t.core p).st ≠ .running ∧ (t.core p).resumeAt = none ∧
    ∀ x ∈ (s.core p).startedTiles, x.space ≠ .host → t.sealOf p x = poisonSeal) ∧
  CoresKept s t d.parts

/-- The local members of a dealing are dealt their streams (R47, R48): every one is a member of the group's new dealing, at the start of
its stream with flags, windows, engines and loops clear, its queues and bounds as its resource block has them, and keeps its scratchpad and its
seals. -/
def MembersDealt (s t : State) (g i n serial tm : Nat) (h : Hand) : Prop :=
  ∀ e ∈ h.streams, ∀ p, s.partOf e.core = some p →
    (∃ m, (t.core p).member = some m ∧ m.group = g ∧ m.serial = serial ∧ m.hand = i ∧ m.number = n ∧ m.dealAt = tm ∧
      m.started = false) ∧
    (t.core p).st = .idle ∧ (t.core p).pc = 0 ∧ (t.core p).preds = 0 ∧ (t.core p).loops = [] ∧ (t.core p).flags = [] ∧
    (t.core p).windows = [] ∧ (t.core p).adg = [] ∧ (t.core p).eng = [] ∧ (t.core p).tricks = 0 ∧ (t.core p).spm = (s.core p).spm ∧
    (t.core p).seals = (s.core p).seals ∧
    ((∀ e' ∈ h.streams, s.partOf e'.core = some p → e' = e) → (t.core p).queues = e.res.queues ∧ (t.core p).bounds = e.res.bounds) ∧
    t.rd R.SEQ_FAULT_CODE p = 0

/-- The oldest TRICK flit that port `port` has brought and that waits for the dealer's trick logic. -/
def State.trickAt (s : State) (port : Nat) : Option TrickFlit := (s.trickIn.find? (fun e => e.1 == port)).map (·.2)

/-- The command that handles a TRICK flit of a kind (R317); kinds 0 and above 7 are reserved. -/
def trickRow (kind : Nat) (port : Fin 16) : Option Instr :=
  match kind with
  | 1 => some (.trickArrive port)
  | 2 => some (.trickRelease port)
  | 3 => some (.trickDeal port)
  | 4 => some (.trickAbort port)
  | 5 => some (.trickAbortArrive port)
  | 6 => some (.trickAbortDone port)
  | 7 => some (.trickEnd port)
  | _ => none

/-- The state without the oldest TRICK flit of a port. -/
def State.trickTaken (s : State) (port : Nat) (f : TrickFlit) : State := { s with trickIn := s.trickIn.erase (port, f) }

/-- The children's record with what `port` sent put in (R318). -/
def Group.arrivedFrom (x : Group) (port need : Nat) : Group :=
  { x with kids := x.kids.filter (fun k => k.1 != port) ++ [(port, need)] }

/-- At the deal of serving hands that are ready, their requests that end at the step boundary end, and those that lack stake are paused
(R370, R400). -/
def State.boundaryEnds (s : State) : State :=
  if s.imageRuns then
    s.hands.zipIdx.foldl (fun s h =>
      if decide (h.1.hdr.cls ≤ 1) && s.leads h.1.hdr.group && s.handReady h.2 h.1 then (s.endAtBoundary h.1.hdr).pauseUnpaid h.1.hdr
      else s) s
  else s

/-- The candidates of a deal (R411, R453). -/
def State.dealCands (s : State) (pick : List Nat) : List Cand :=
  (s.hands.zipIdx.filter (fun x => s.candidate x.2 x.1 pick)).map (fun x => (x.1.hdr.kind, x.2)) ++
    (match s.checkPart with | some _ => [(5, checkHand)] | none => [])

/-! ## The Evkai ports -/

/-- A port has sent flit `f`: it leaves with the ACK and NAK of the opposite direction in its header (R263), as the levels of its codeword on
the active lanes, whose scramblers go on from there (R253, R254). -/
def FlitLeft (s t : State) (port : Nat) (f : Flit) : Prop :=
  let bs := ({ f with ack := s.rd R.LNK_SEQ_RX_LAST port, nak := s.on R.LNK_STATUS_NAK port } : Flit).encode
  let lanes := sendLanes (s.port port).txHist (codeword bs)
  t.outbox = s.outbox ++ [.flit port bs (lanes.map (·.1))] ∧ (t.port port).txHist = lanes.map (·.2)

/-- A port has sent a new sequenced flit for owner `o`: it took the next number and a place in the replay buffer (R261, R264). -/
def NewFlitLeft (s t : State) (port : Nat) (f : Flit) (o : Owner) : Prop :=
  let n := s.rd R.LNK_SEQ_TX_NEXT port
  FlitLeft s t port { f with seq := n } ∧ t.rd R.LNK_SEQ_TX_NEXT port = (n + 1) % 65536 ∧
  (t.port port).buffer = (s.port port).buffer ++ [⟨n, { f with seq := n }, 0⟩] ∧
  (t.port port).sent = (s.port port).sent ++ [(n, o)] ∧ FieldsKept s t [R.LNK_SEQ_TX_NEXT.key port 0] ∧ t.cores = s.cores

/-- What a replay of a port has still to send again (R265): its numbers that the replay buffer still holds. -/
def Port.toReplay (p : Port) : List Nat := ((p.replay.map (·.rest)).getD []).filter (fun n => p.buffer.any (fun b => b.seq == n))

/-- Nothing is left to replay, no unsequenced flit is due, and a new sequenced flit may be sent on a port (R264, R278, R286, R294). -/
def State.sendsNew (s : State) (port : Nat) : Prop :=
  (s.port port).toReplay = [] ∧ (s.port port).due = [] ∧ (s.port port).quiet < 1023 ∧ (s.port port).mayNew = true ∧
  (s.rd R.LNK_STATUS_STATE port ≠ 5 ∨ s.tick - (s.port port).timeAt < s.beaconEvery)

/-- The levels of the active lanes bring the word `bs` after the correction of `n` symbols (R253 to R255). -/
def State.brings (s : State) (port : Nat) (levels : List (List Nat)) (bs : List Byte) (n : Nat) : Prop :=
  ∃ c fixed, rsCorrect (receiveLanes (s.port port).rxHist levels).1 = some (c, fixed) ∧ symbolBytes c = bs ∧ fixed.length = n

/-- The descramblers of a port have taken the levels, and nothing else of any port has changed (R253). -/
def OnlyDescrambled (s t : State) (port : Nat) (levels : List (List Nat)) : Prop :=
  ∀ n, t.port n = if n = port then { s.port n with rxHist := (receiveLanes (s.port n).rxHist levels).2 } else s.port n

/-- The header of a received flit `f` with NAK 0 has been taken: the flits it acknowledges have left the replay buffer, which keeps the
others in order (R263). -/
def Acknowledged (s t : State) (port : Nat) (f : Flit) : Prop :=
  (t.port port).buffer = (s.port port).buffer.filter (fun b => !seqLe b.seq f.ack)

/-- The training of a re-deal has begun on a port (R268, R269): QUIET, counted, with its cause; the replay buffer is kept, and MAX_RATE and
LANE_MASK are taken for it. -/
def Redealt (s t : State) (port cause : Nat) : Prop :=
  t.rd R.LNK_STATUS_STATE port = 0 ∧ Counted s t R.LNK_CNT_REDEAL port ∧ t.rd R.LNK_REDEAL_INFO_CAUSE port = cause ∧
  t.rd R.LNK_REDEAL_INFO_FAILED port = 0 ∧ (t.port port).redeal = true ∧ (t.port port).train = true ∧
  (t.port port).since = s.tick ∧ (t.port port).buffer = (s.port port).buffer ∧ (t.port port).pause = none ∧
  (t.port port).maxRate = s.rd R.LNK_CFG_MAX_RATE port ∧ (t.port port).laneMask = s.rd R.LNK_CFG_LANE_MASK port ∧
  (cause ≤ 3 → ∃ x, t.outbox = s.outbox ++ [x]) ∧ (3 < cause → t.outbox = s.outbox)

/-- A port has declared LINK_DOWN (R272): DOWN, with its fresh bit set. -/
def LinkLost (t : State) (port : Nat) : Prop :=
  t.rd R.LNK_STATUS_STATE port = 6 ∧ (t.port port).down = true ∧ (t.port port).fresh = true

/-- Requester `code` of a core's scratchpad meets nobody in a range: no instruction started and not completed there, and no access of the
present cycle, concerns the tile or its rows (R121). -/
def State.rowsFree (s : State) (p code : Nat) (write : Bool) (a n : Nat) : Prop :=
  ∀ x ∈ s.rivals p code .spm, x.concerns write .spm a n = false


/-! ## Time, power and the host's commands -/

/-- A field holds a value, cut to its width. -/
def State.holds (t : State) (f : Fld) (v : Nat) (inst : Nat := 0) (idx : Nat := 0) : Prop := t.rd f inst idx = v % 2 ^ f.width

/-- A LO/HI pair holds a 64-bit value. -/
def State.holdsPair (t : State) (lo hi : Fld) (v : Nat) : Prop := t.rd lo = v % 2 ^ 32 ∧ t.rd hi = v / 2 ^ 32 % 2 ^ 32

/-- The clock has run up to tick `n`, or stands where it was when that has passed (R304; log entry 24). -/
def RanTo (s t : State) (n : Nat) : Prop := t.tick = max s.tick n

/-- Events `mask` stand in a page's EVT_STATUS, and EVT_FIRST holds the code of the first since it was clear (R484). -/
def EventsStand (s t : State) (b : Block) (inst mask code : Nat) : Prop :=
  t.rd (R.EVT_STATUS b) inst = (s.rd (R.EVT_STATUS b) inst ||| mask) % 2 ^ 32 ∧
  t.rd (R.EVT_FIRST_CODE b) inst =
    (if s.rd (R.EVT_FIRST_CODE b) inst = 0 then code % 2 ^ (R.EVT_FIRST_CODE b).width else s.rd (R.EVT_FIRST_CODE b) inst)

/-- The state in which the 100 µs without a beacon from the followed port have elapsed, at once when that port is not ACTIVE
(R309). -/
def State.beaconsLost (s : State) : State :=
  let port := s.rd R.TIM_STATUS_PORT
  if s.portActive port then s.waitUntil ((s.port port).beaconAt + 100000) else s

/-- What XPK_PSTATUS.STATE shows after a COMPARE has met or been given up (R347, R352): a mismatch, a search or a divergence stays
shown; else whether some COMPARE still waits. -/
def State.showsComparing (s t : State) : Prop :=
  t.rd R.XPK_PSTATUS_STATE = (let x := s.rd R.XPK_PSTATUS_STATE
    if x = 3 ∨ x = 4 ∨ x = 5 then x else if t.partner.waiting = [] then 1 else 2)

/-- No group but `g` has a dealing since its last checkpoint trick, so that a return of `g` draws in no other (R69 step 5). -/
def State.returnsAlone (s : State) (g : Nat) : Prop := ∀ o, o ≠ g → (s.group o).sinceCkpt = []

/-- The limit that STEP_NS sets, 1,000 ns when it is 0 (R310, R326). -/
def State.stepNs (s : State) : Nat := if s.rd R.TIM_LIMITS_STEP_NS = 0 then 1000 else s.rd R.TIM_LIMITS_STEP_NS

/-- The limit that SLEW_PPM sets, 50 ppm when it is 0 (R308, R326). -/
def State.slewPpm (s : State) : Nat := if s.rd R.TIM_LIMITS_SLEW_PPM = 0 then 50 else s.rd R.TIM_LIMITS_SLEW_PPM

/-- The limit that LOCK_NS sets, 3 ns when it is 0 (R305, R326). -/
def State.lockNs (s : State) : Nat := if s.rd R.TIM_LIMITS_LOCK_NS = 0 then 3 else s.rd R.TIM_LIMITS_LOCK_NS

/-- What a step of TABLE_TIME asks for: the time after it (R310, R311). -/
def StepReq.apply (r : StepReq) (time : Nat) : Nat :=
  match r with
  | .by ns => wrap64 ((time : Int) + ns)
  | .to ns => ns

/-- A C-die runs, or is being retuned, at the frequency that the limits in force allow it (R314, R428, R517). -/
def State.clocked (t : State) (die : Nat) : Prop := t.awake die = true → t.rd R.CLK_STATUS_TARGET die = t.dieFreq die

/-- Group `g` stands at its last checkpoint trick again: the completion counts of its hands are those saved there (R69 step 5). -/
def AtCheckpoint (s t : State) (g : Nat) : Prop :=
  (∀ h ∈ s.groupHands g, t.count h = SMap.get 0 (s.group g).ckpt h) ∧ (∀ h, h ∉ s.groupHands g → t.count h = s.count h)

/-- The weight slots are 64, and no front slot is RETIRING (R353, R355): an invariant of the model, of the pairs that R353 makes. -/
def State.slotsSound (s : State) : Bool :=
  s.wslots.length == 64 && (List.range 32).all (fun m => (s.wslot (2 * m)).st != .retiring)

/-- The increase that FEC corrections of port `q` add to its score in a health sample, with what the last sample kept (R458). -/
def State.fecScore (s : State) (q : Nat) : Nat :=
  (s.increase R.LNK_CNT_FEC_CORR q + s.sampled (R.LNK_CNT_FEC_CORR.key q 0 + 1)) / 65536

/-- The increase of a part's score in a health sample: the weighted increases of its counters (R458). -/
def State.scoreGain (s : State) (part : Nat) : Nat :=
  ((healthCounters.filter (fun x => x.2.2.1 == part)).map (fun x => x.2.2.2 * s.increase x.1 x.2.1)).sum +
    (if 200 ≤ part then s.fecScore (part - 200) else 0)

/-- The tile of a word of a memory tier. -/
def wordTile (w : Nat) : Nat := w / 128 * 4096

/-- A core is marked for retirement, retired or disabled: no marking of it has a further effect (R462). -/
def State.outOfPlay (s : State) (p : Nat) : Bool := s.retired p || s.fusedOff p || SMap.get 0 s.flt.marked p != 0

/-- The data of the stored value of an MRAM section, if it has one (R518). -/
def State.stored (s : State) (n : Nat) : Option (SMap Nat) := ((s.sect n).value).map (·.data)

/-- No MRAM operation is in progress or waits, and the package is not held by a sag: an operation asked for starts at once
(R521, R522). -/
def State.nvmIdle (s : State) : Prop := s.life.nvmNow = none ∧ s.life.nvmWait = [] ∧ s.pkg ≠ .sagged

/-- The MRAM operation in progress writes section `n` with `data`, at the dealer's request (R520, R521). -/
def State.storing (t : State) (n : Nat) (data : SMap Nat) : Prop := t.life.nvmNow = some ⟨n, true, .dealer, data⟩

/-- A byte range of device memory as it was, and the seals of its tiles. -/
def HbmKept (s t : State) (a : Nat) : Prop :=
  SMap.get 0#8 t.hbm.bytes a = SMap.get 0#8 s.hbm.bytes a ∧ t.hbm.sealAt a = s.hbm.sealAt a

/-- The byte of device memory at an address (R226). -/
def State.hbmByte (s : State) (a : Nat) : Byte := SMap.get 0#8 s.hbm.bytes a

/-- Life-cycle state `x` follows `y`, or is the same (R526): the states that an accepted token leads to, in FIELD_DEBUG and beyond. -/
def lcsFollows (y x : Lcs) : Bool := y == x || transition y x true true || transition y x false false || transition y x true false

/-- The register page on which a command of the host acts, and which drops it when it is not answered (R486, R487); reads, which
answer all ones there, apart. -/
def commandPage (c : Instr) : Option (Block × Nat) :=
  match c with
  | .seqResume p => some (.seq, p) | .spmDbgWrite p _ => some (.spm, p) | .mxuInject p => some (.mxu, p)
  | .seaInject p => some (.sea, p) | .ddrRetrain => some (.ddr, 0) | .lnkRedeal q => some (.lnk, q) | .lnkTrain q => some (.lnk, q)
  | .lnkBinClear q => some (.lnk, q) | .routeEntryWrite _ => some (.rte, 0) | .timStep => some (.tim, 0)
  | .timRelock => some (.tim, 0) | .xpkClear => some (.xpk, 0) | .xpkSearch => some (.xpk, 0) | .xpkResume => some (.xpk, 0)
  | .stage _ => some (.wsl, 0) | .cut _ => some (.wsl, 0) | .drop _ => some (.wsl, 0) | .cancel => some (.wsl, 0)
  | .claim _ => some (.dpl, 0) | .enlist _ => some (.dpl, 0) | .release _ => some (.dpl, 0) | .withdraw _ => some (.dpl, 0)
  | .load => some (.pln, 0) | .unload => some (.pln, 0) | .clearDrift => some (.pwr, 0) | .bidReset => some (.pwr, 0)
  | .pwrHoldAwakeWrite _ => some (.pwr, 0) | .resume => some (.flt, 0) | .retire _ => some (.flt, 0) | .checkNow => some (.flt, 0)
  | .hubReset => some (.aon, 0) | .store _ => some (.nvm, 0) | .erase _ => some (.nvm, 0) | .submit => some (.lcs, 0)
  | .exitDebug => some (.lcs, 0) | .claimOwner => some (.lcs, 0) | .cert => some (.lcs, 0) | .attestationReport => some (.att, 0)
  | .certificateChain => some (.att, 0) | .go => some (.hub, 0) | .functionEnable _ => some (.srv, 0)
  | .functionDisable _ => some (.srv, 0) | .stakeBurstWrite _ _ => some (.srv, 0)
  | _ => none

/-- An access to an asleep die has been counted, with its event, and has delivered `xs`, messages apart; nothing else has changed: it wakes
no die and reaches no memory (R487). -/
def AsleepAccessed (s t : State) (xs : List Out) : Prop :=
  Counted s t R.FLT_CNT_ASLEEP 0 ∧ EventsStand s t .flt 0 32 0x0B02 ∧
  t = { s with regs := t.regs, outbox := t.outbox, msixPend := t.msixPend } ∧
  ∃ l, t.outbox = s.outbox ++ l ++ xs ∧ ∀ x ∈ l, ∃ f v a d, x = .msix f v a d

/-- What a write of `v` leaves in a field that held `old`, by its access code (R6). -/
def Access.after (a : Access) (old v width : Nat) : Nat :=
  match a with
  | .ro | .wo => old
  | .rw | .rws | .nv => v
  | .w1c => (old - (old &&& v)) % 2 ^ width
  | .w1s => (old ||| v) % 2 ^ width

/-- The message condition of a page (R484): PENDING and MSG_EN, with the vectors of function 0 unmasked and enabled. -/
def State.pageSends (s : State) (b : Block) (inst : Nat) : Prop :=
  s.rd R.HIF_FUNC_MSIX_EN 0 0 = 1 ∧ s.rd (R.PAGE_CTRL_VECTOR b) inst < 2048 ∧
  SMap.get true s.msixMask (s.rd (R.PAGE_CTRL_VECTOR b) inst) = false ∧ SMap.get false s.msixFnMask 0 = false

/-- A host access of device memory that reaches it: `n` bytes of one tile at BAR2 offset `o`, in a trained stack of an awake die
(R477, R487, R491). -/
def State.bar2Reaches (s : State) (o n : Nat) : Prop :=
  s.reached = true ∧ s.memStopped = false ∧ 0 < n ∧ o + n ≤ 2 ^ 36 ∧ s.bar2 o / 4096 = (s.bar2 o + n - 1) / 4096 ∧
  s.stackAsleep (s.bar2 o) = false ∧ s.memAt (s.bar2 o) = true

/-- No instruction started and not completed concerns a range of device memory: a host access meets none of their lines there (R235, R493). -/
def State.hbmFree (s : State) (write : Bool) (a n : Nat) : Prop :=
  ∀ x ∈ s.rivals 176 16 .hbm, x.concerns write .hbm a n = false

/-- The fields of HUB_BRINGUP_STATUS that follow the stages (R508, R511, R515). -/
def bringupKeys : List Nat :=
  [R.HUB_BRINGUP_STATUS_BIST, R.HUB_BRINGUP_STATUS_HBM, R.HUB_BRINGUP_STATUS_ANCHOR_OK, R.HUB_BRINGUP_STATUS_EVKAI,
   R.HUB_BRINGUP_STATUS_TIME, R.HUB_BRINGUP_STATUS_DEGRADED, R.HUB_BRINGUP_STATUS_FULL, R.HUB_BRINGUP_STATUS_SHORT].map (fun f => f.key 0 0)

/-- The fields whose values lock registers (R301, R381, R494, R512): PLN_IMAGE.STATE, HUB_FW_STATUS.STATE, and SRV_FUNC.EN. -/
def setsLock (k : Nat) : Prop :=
  k = R.PLN_IMAGE_STATE.key 0 0 ∨ k = R.HUB_FW_STATUS_STATE.key 0 0 ∨ ∃ i, k = R.SRV_FUNC_EN.key 0 i

end Sys2Proof.Machine
end

