-- ==== Sys2Proof/Certificates/Slice0/Obligations.lean ====
section
/-! DEFINITION. The statements for the provers.  Each docstring names the rules that its clauses rest on. -/

open Sys2Proof Sys2Proof.Machine

/-- A step takes the command at the front of the queue and executes it on the state with the queue's rest. -/
def Obligations.StepRunsFrontCommand : Prop :=
  ∀ (s : State) (c : Instr), step { s with pending := c :: s.pending } = exec c s

/-- With no command waiting one tick of the 1 GHz domain passes (R302, R304; that an empty queue lets the clock run is the model's choice, log
entry 1): TABLE_TIME counts it while the reference is present and no correction is in force (while the package is held it stands still,
log entry 25), and registers, cores and the bytes and seals of the memories stay, but that a boot ROM that fetches goes on to verify (log
entry 137); what may change is the list of the array errors of memory cells (log entry 80). -/
def Obligations.IdleStepIsOneTick : Prop :=
  ∀ (s : State), s.pending = [] → ∃ t, step s = .next t ∧ t.tick = s.tick + 1 ∧
    t.regs = (if s.pkg = .running ∧ s.rd R.HUB_FW_STATUS_STATE = 1 then s.wr R.HUB_FW_STATUS_STATE 2 else s).regs ∧
    (∀ p, t.core p = { s.core p with spmErr := (t.core p).spmErr }) ∧ t.hbm = { s.hbm with err := t.hbm.err } ∧
    t.ddr = { s.ddr with err := t.ddr.err } ∧ t.ports = s.ports ∧ t.groups = s.groups ∧ t.outbox = s.outbox ∧ t.pending = [] ∧
    (s.pkg = .held → t.time = s.time) ∧
    (s.pkg ≠ .held → s.osc = false → s.timing.slew = 0 → 0 ≤ s.timing.slewAcc → s.timing.slewAcc < 1000000 → t.time = (s.time + 1) % 2 ^ 64)

/-- After a package reset every register field reads the Reset value of its table (R7), PWR_COEF those of R421, every scratchpad byte 0 and
every seal the poison seal (R130, R236), the package is held and nothing waits; and what the invariants below say holds. -/
def Obligations.ResetIsSound : Prop :=
  (∀ (f : Fld) (inst idx : Nat), (∀ i < 16, f.key inst idx ≠ R.PWR_COEF.key 0 i) → State.reset.rd f inst idx = f.reset) ∧
  (∀ i < 16, State.reset.rd R.PWR_COEF 0 i = coefDefault i) ∧
  (∀ p a, SMap.get 0#8 (State.reset.core p).spm a = 0#8 ∧ (State.reset.core p).sealAt a = poisonSeal) ∧
  (∀ a, State.reset.hbm.sealAt a = poisonSeal ∧ State.reset.ddr.sealAt a = poisonSeal) ∧
  State.reset.pkg = .held ∧ State.reset.pending = [] ∧ State.reset.time = 0 ∧ State.reset.image = none ∧
  State.reset.memoryWf = true ∧ State.reset.slotsSound = true

/-- R19, R21: No step changes a fuse, but for the life-cycle word that R526 burns: a fused-off engine or port stays absent. -/
def Obligations.StepsKeepFuses : Prop :=
  ∀ (s t : State), step s = .next t → t.fuses.wired = s.fuses.wired

/-- Every step keeps the memories of the package in their canonical form, so that equal memories are equal data. -/
def Obligations.StepsKeepMemoriesSound : Prop :=
  ∀ (s t : State), s.memoryWf = true → step s = .next t → t.memoryWf = true

/-- R353, R355: Every step keeps 64 weight slots of which no front slot is RETIRING. -/
def Obligations.StepsKeepSlotsSound : Prop :=
  ∀ (s t : State), s.slotsSound = true → step s = .next t → t.slotsSound = true

/-- R53, R87: NOP, WAIT and SIGNAL have no effect of their own: with the wait satisfied the sequencer goes on at the next slot and the signal
is applied. -/
def Obligations.PlainSequencerSlots : Prop :=
  ∀ (s : State) (p : Fin 176) (w : Slot) (o : Op), o = .nop ∨ o = .wait ∨ o = .signal → s.runs p o w →
    ∃ t, exec (o.row p) s = .next t ∧ Signalled s t p w ((s.core p).at' ((s.core p).pc + 32) s.tick) ∧ t.regs = s.regs

/-- R89, R91: LOOP opens a loop with COUNT passes and iteration index 0, or skips the body when COUNT is 0; ENDL begins the next pass or
closes the loop; with no loop open it goes on at the next slot (the model's choice, log entry 10). BRP continues OFFSET slots from itself
when the predicate, inverted by NEG, is 1, else at the next slot. -/
def Obligations.LoopsAndBranchesRun : Prop :=
  (
  ∀ (s : State) (p : Fin 176) (w : Slot),
    (s.runs p .loop w →
      ∃ t, exec (.loop p) s = .next t ∧ t.regs = s.regs ∧
        Signalled s t p w
          (if w.count = 0 then (s.core p).at' ((s.core p).pc + 32 * w.body + 32) s.tick
           else { (s.core p).at' ((s.core p).pc + 32) s.tick with
                  loops := ⟨(s.core p).pc + 32, (s.core p).pc + 32 * w.body, w.count, 0⟩ :: (s.core p).loops })) ∧
    (∀ l ls, s.runs p .endl w → (s.core p).loops = l :: ls →
      ∃ t, exec (.endl p) s = .next t ∧ t.regs = s.regs ∧
        Signalled s t p w
          (if l.idx + 1 < l.count then
             { (s.core p).at' l.body s.tick with loops := ⟨l.body, l.endl, l.count, l.idx + 1⟩ :: ls }
           else { (s.core p).at' ((s.core p).pc + 32) s.tick with loops := ls })) ∧
    (s.runs p .endl w → (s.core p).loops = [] →
      ∃ t, exec (.endl p) s = .next t ∧ t.regs = s.regs ∧ Signalled s t p w ((s.core p).at' ((s.core p).pc + 32) s.tick))) ∧
  (
  ∀ (s : State) (p : Fin 176) (w : Slot), s.runs p .brp w →
    ∃ t, exec (.brp p) s = .next t ∧ t.regs = s.regs ∧
      Signalled s t p w ((s.core p).at'
        (if (s.core p).pred w.destPred = w.brNeg then (s.core p).pc + 32
         else (((s.core p).pc : Int) + 32 * w.brOffset).toNat) s.tick))

/-- R90: SETP writes predicate DEST from VALUE, a loop index, the dealing number, a scratchpad word or the logic of two predicates; the
scratchpad read changes nothing else but counts: its energy event and the corrected array errors it meets (R127); a loop level that is not
open is illegal. Model's choices, no rule of the spec: corrected array errors come by a free function (log entry 80). -/
def Obligations.SetpWritesPredicate : Prop :=
  ∀ (s : State) (p : Fin 176) (w : Slot), s.runs p .setp w →
    (∀ (s0 : State) (b : Bool),
      ((w.src = 0 ∧ b = (w.value % 2 == 1) ∧ s0 = s) ∨
       (∃ l, w.src = 1 ∧ (s.core p).loops[w.sel % 4]? = some l ∧ b = setpCmp (w.sel / 4 % 4) l.idx w.value ∧ s0 = s) ∨
       (∃ m, w.src = 2 ∧ (s.core p).member = some m ∧ b = setpCmp (w.sel / 4 % 4) (m.number % 65536) w.value ∧ s0 = s) ∨
       (w.src = 3 ∧ accessOk s (s.core p) .spm false w.setpAddr 4 = true ∧ s.rowsFree p 0 false w.setpAddr 4 ∧
         (s.portRead p 0 (s.core p).pc w.setpAddr 4).2.spmErrors p w.setpAddr 4 (s.core p).spmErr = (s0, []) ∧
         b = setpCmp (w.sel / 4 % 4) (leNat ((s.core p).spmRead w.setpAddr 4)) w.value) ∨
       (w.src = 4 ∧ b = setpLogic (w.sel / 64 % 4) ((s.core p).pred (w.sel % 8)) ((s.core p).pred (w.sel / 8 % 8)) ∧ s0 = s)) →
      s0 = { s with regs := s0.regs, recent := s0.recent, events := s0.events } ∧
      ∃ t P, exec (.setp p) s = .next t ∧ t.regs = s0.regs ∧
        Signalled s0 t p w { (s.core p).at' ((s.core p).pc + 32) s.tick with preds := P } ∧
        ∀ i, bitOf P i = if i = w.destPred then b else bitOf (s.core p).preds i) ∧
    (w.src = 1 → (s.core p).loops[w.sel % 4]? = none →
      ∃ t, exec (.setp p) s = .next t ∧ Faulted s t p 0x0502 0 (s.core p).pc (s.core p).startedTiles)

/-- R93, R95, R96: ADG loads every field of its slot, or adds DELTA to its BASE modulo 2^64; it takes two slots of the stream. WOPEN opens its
window with its permissions, base and size; WCLOSE closes its window, or every window with ALL 1; a window that is closed already stays as
it is. -/
def Obligations.AdgAndWindowsAreSet : Prop :=
  (
  ∀ (s : State) (p : Fin 176) (w w2 : Slot), s.runs p .adg w → (s.core p).slotAt ((s.core p).pc + 32) = some w2 →
    ∃ t A, exec (.adg p) s = .next t ∧ t.regs = s.regs ∧
      Signalled s t p w { (s.core p).at' ((s.core p).pc + 64) s.tick with adg := A } ∧
      ∀ i, SMap.get AdgSlot.zero A i =
        if i ≠ w.adgSlot then (s.core p).slot i
        else if w.adgOp = 0 then
          ⟨Space.ofCode w.adgSpace, w.adgQueue, w.adgQnum, w.adgBase, w.adgGen, w.adgWslot, w.adgEpochSrc, w.adgEpochVal,
            (List.range w.adgLevels).map (fun k => (adgCount w w2 k, adgStride w w2 k))⟩
        else { (s.core p).slot i with base := (((s.core p).slot i).base + w.adgBase) % 2 ^ 64 }) ∧
  (
  ∀ (s : State) (p : Fin 176) (w : Slot),
    (s.runs p .wopen w →
      ∃ t W, exec (.wopen p) s = .next t ∧ t.regs = s.regs ∧
        Signalled s t p w { (s.core p).at' ((s.core p).pc + 32) s.tick with windows := W } ∧
        ∀ i, SMap.get Window.closed W i =
          if i = w.win then ⟨true, w.winWrite, w.winFetch, w.winBase, w.winTiles, true⟩ else (s.core p).window i) ∧
    (s.runs p .wclose w →
      ∃ t W, exec (.wclose p) s = .next t ∧ t.regs = s.regs ∧
        Signalled s t p w { (s.core p).at' ((s.core p).pc + 32) s.tick with windows := W } ∧
        ∀ i, SMap.get Window.closed W i =
          if (w.winAll = true ∧ i < 64) ∨ (w.winAll = false ∧ i = w.win) then { (s.core p).window i with isOpen := false }
          else (s.core p).window i))

/-- R94, R108: MARK writes VALUE, its byte offset and TABLE_TIME of its die to the SEQ_MARK registers when MARK_EN is 1, and acts as a NOP
otherwise. HALT sets SEQ_STATUS.HALTED, and while it is set the sequencer handles no instruction. RESUME, on an answered page and where
debug pages are open, lets a halted core issue again; on a core that is not halted, and where they are closed, it changes nothing. -/
def Obligations.MarkAndHalt : Prop :=
  ∀ (s : State) (p : Fin 176) (w : Slot),
    (s.runs p .mark w →
      ∃ t, exec (.mark p) s = .next t ∧
        Signalled s t p w ((s.core p).at' ((s.core p).pc + 32) s.tick) ∧
        (if s.on R.SEQ_CTRL_MARK_EN p = true then
          t.rd R.SEQ_MARK_VALUE p = w.markValue ∧ t.rd R.SEQ_MARK_PC p = (s.core p).pc % 2 ^ 32 ∧
          t.rdPair R.SEQ_MARK_TIME_LO R.SEQ_MARK_TIME_HI p = s.dieTime (p / 11) % 2 ^ 64 ∧
          FieldsKept s t [R.SEQ_MARK_VALUE.key p 0, R.SEQ_MARK_PC.key p 0, R.SEQ_MARK_TIME_LO.key p 0,
            R.SEQ_MARK_TIME_HI.key p 0]
         else t.regs = s.regs)) ∧
    (s.runs p .halt w →
      ∃ t, exec (.halt p) s = .next t ∧ t.regs = s.regs ∧ t.view R.SEQ_STATUS_HALTED p 0 = 1 ∧
        Signalled s t p w { (s.core p).at' ((s.core p).pc + 32) s.tick with halted := true }) ∧
    ((s.core p).halted = true → ∀ o : Op, exec (o.row p) s = .next s) ∧
    (s.reachable .seq p →
      (s.debugOpen = true → (s.core p).halted = true → ∃ t, exec (.seqResume p) s = .next t ∧
        t = s.setCore p { s.core p with halted := false, stallAt := s.tick } ∧ t.view R.SEQ_STATUS_HALTED p 0 = 0) ∧
      (s.debugOpen = false ∨ (s.core p).halted = false → exec (.seqResume p) s = .next s))

/-- R40, R92: TRICK stops the member at its trick with its signal held back until the release; a member whose TRICK ends the stream before
TRICK_COUNT, or is the last one counted and does not end it, is a mismatch. -/
def Obligations.TrickStopsMember : Prop :=
  ∀ (s : State) (p : Fin 176) (w : Slot) (st : StreamEnt), s.runs p .trick w → s.streamOf (s.core p) = some st →
    ∃ t, exec (.trick p) s = .next t ∧ t = { s with cores := t.cores } ∧ CoresKept s t [p] ∧
      t.core p = { (s.core p).at' ((s.core p).pc + 32) s.tick with
        st := .atTrick, tricks := (s.core p).tricks + 1, resumeAt := none, signalDue := some w,
        trick :=
          if ((s.core p).tricks + 1 = (s.hdrOf (s.core p)).trickCount ∧ (s.core p).pc + 32 ≠ st.length) ∨
             ((s.core p).pc + 32 = st.length ∧ (s.core p).tricks + 1 < (s.hdrOf (s.core p)).trickCount) then .mismatched
          else .draining }

/-- R53, R74, R87: A sequencer instruction whose wait does not hold, and any instruction met while the sequencer does not issue, changes
nothing. -/
def Obligations.SequencerStalls : Prop :=
  ∀ (s : State) (p : Fin 176) (w : Slot) (o : Op),
    (s.meets p o w → s.pageBad p = none → s.slotFault p o w = none → o.ofSequencer = true → (s.core p).waitHolds w = false →
      exec (o.row p) s = .next s) ∧
    (s.issues p = false → exec (o.row p) s = .next s)

/-- R73, R75, R76: An engine instruction is placed at the tail of its engine's queue with copies of the slots its opcode uses, and the
sequencer goes on; a full queue stalls the sequencer; an entry that is the head and may not start yet stays, but for an MMUL that its
buffer or blocks do not suit, which faults (R173). -/
def Obligations.EngineInstructionsQueue : Prop :=
  ∀ (s : State) (p : Fin 176) (w : Slot) (o : Op), o.ofSequencer = false → s.meets p o w → s.pageBad p = none →
    s.slotFault p o w = none →
    (16 ≤ ((s.core p).engine w.engine).queue.length → exec (o.row p) s = .next s) ∧
    (((s.core p).engine w.engine).queue.length < 16 →
      ((s.core p).engine w.engine).queue ≠ [] ∨ ¬ s.mayStart p (s.entryFor p o w) →
      (∀ q, ¬(s.queued p o w).unready p w.engine q) → exec (o.row p) s = .next (s.queued p o w)) ∧
    (∀ q, ((s.core p).engine w.engine).queue = [] → (s.queued p o w).unready p w.engine q →
      ∃ t, exec (o.row p) s = .next t ∧ Faulted ((s.queued p o w).mxuState p) t p 0x0502 w.engine (s.core p).pc (s.core p).startedTiles)

/-- R76: An engine instruction whose queue is empty and whose wait holds starts at once; its body, as the rules of its engine give it, ends
without a fault and is done. An engine starts the head of its queue once its wait holds, and examines no later entry; while the wait does
not hold nothing changes. Model's choices, no rule of the spec: an instruction makes all its accesses when it starts (log entry 64). -/
def Obligations.EngineInstructionsRun : Prop :=
  (
  ∀ (s : State) (p : Fin 176) (w : Slot) (o : Op) (r : ECtx), o.ofSequencer = false → s.meets p o w →
    s.pageBad p = none → s.slotFault p o w = none → ((s.core p).engine w.engine).queue = [] → s.mayStart p (s.entryFor p o w) →
    bodyOf w ((s.queued p o w).startCtx p w.engine (s.entryFor p o w) []) = .ok () r → r.hostBad = false →
    (∀ q, ¬(s.queued p o w).unready p w.engine q) →
    ∃ t x, exec (o.row p) s = .next t ∧ Started r t p w.engine (s.entryFor p o w) s.stamp x) ∧
  (
  ∀ (s : State) (p : Fin 176) (e : Fin 9) (q : QEntry) (rest : List QEntry), ((s.core p).engine e).queue = q :: rest →
    (¬ s.mayStart p q → exec (.engineStart p e) s = .next s) ∧
    (∀ r, s.mayStart p q → bodyOf q.word (s.startCtx p e q rest) = .ok () r → r.hostBad = false →
      ∃ t x, exec (.engineStart p e) s = .next t ∧ Started r t p e q s.stamp x))

/-- R69, R103, R106, R125, R247: A slot that fails its page's seal check or the decode check is not executed: its core faults with the code,
the tiles of its started instructions poisoned, and a failed seal check is counted on the SEA page and recorded there. A fault of a
started engine instruction stops its core, poisons every tile that it and the other started instructions wrote, and keeps the writes it
had made; an instruction whose read of host memory failed makes its writes and faults then with TILE_POISON. Model's choices, no rule of
the spec: writes made before a fault inside an instruction stay, and are poisoned (log entry 81), and the fields of the record of a page
fault (log entry 118). -/
def Obligations.FaultsStopCores : Prop :=
  (
  ∀ (s : State) (p : Fin 176) (w : Slot) (o : Op), s.meets p o w →
    (∀ code engine, s.pageBad p = none → s.slotFault p o w = some (code, engine) →
      ∃ t, exec (o.row p) s = .next t ∧ Faulted s t p code engine (s.core p).pc (s.core p).startedTiles) ∧
    (∀ b, s.pageBad p = some b →
      let k := if b.code = 0x0105 then 4 else 0
      let s1 := s.sealFault p k b.code k 0 0 ⟨.hbm, b.addr⟩ b.sl false 0 (s.core p).pc
      ∃ t, exec (o.row p) s = .next t ∧ Faulted s1 t p b.code 0 (s.core p).pc (s.core p).startedTiles ∧
        Counted s t (if b.code = 0x0105 then R.SEA_CNT_POISON else R.SEA_CNT_CRC) p ∧ bitOf (t.rd (R.EVT_STATUS .sea) p) k = true)) ∧
  (
  ∀ (s : State) (p : Fin 176) (e : Fin 9) (q : QEntry) (rest : List QEntry) (r : ECtx),
    ((s.core p).engine e).queue = q :: rest → s.mayStart p q →
    (∀ f : EFault, bodyOf q.word (s.startCtx p e q rest) = .error f r →
      ∃ t, exec (.engineStart p e) s = .next t ∧
        Faulted r.s t p f.code f.engine f.pc ((r.s.core p).startedTiles ++ r.wrote.map (·.at_))) ∧
    (bodyOf q.word (s.startCtx p e q rest) = .ok () r → r.hostBad = true →
      ∃ t, exec (.engineStart p e) s = .next t ∧
        Faulted r.s t p 0x0105 q.word.engine q.pc ((r.s.core p).startedTiles ++ r.wrote.map (·.at_))))

/-- R40, R53, R76, R78: The oldest started instruction of an engine completes, and its signal is applied once: now, or never again when it was
given early; while it waits for the far end of a link nothing changes. A wait at the sequencer, at the head of an issue queue or at a
trick that stays unsatisfied for WAIT_LIMIT of table time raises FLAG_TIMEOUT, no earlier than the limit. Model's choices, no rule of the
spec: a timer's command lets the clock run to its limit (log entry 24), and an instruction has made its accesses when it started (log
entry 64). -/
def Obligations.InstructionsEnd : Prop :=
  (
  ∀ (s : State) (p : Fin 176) (e : Fin 9) (x : ExecEntry) (xs : List ExecEntry), ((s.core p).engine e).exec = x :: xs →
    s.pkg = .running ∨ s.pkg = .down → (s.core p).st ≠ .faulted →
    (x.finished = false → exec (.instructionComplete p e) s = .next s) ∧
    (x.finished = true →
      let s1 := (s.setCore p ((s.core p).setEngine e { (s.core p).engine e with exec := xs })).record p e x
      ∃ t, exec (.instructionComplete p e) s = .next t ∧
        (x.signaled = false → Signalled s1 t p x.word (s1.core p) ∧ t.regs = s1.regs) ∧ (x.signaled = true → t = s1) ∧
        (s.partner.search = false → s1 = s.setCore p ((s.core p).setEngine e { (s.core p).engine e with exec := xs })))) ∧
  (
  ∀ (s : State) (p : Fin 176) (e : Fin 9), s.up = true → (s.core p).member.isSome = true → (s.core p).st ≠ .faulted →
    (s.core p).trick ≠ .aborting → (s.core p).trick ≠ .abortDone →
    (∀ w, e = 0 → (s.core p).st = .running → (s.core p).halted = false → (s.core p).slotAt (s.core p).pc = some w →
      w.engine = 0 → (s.core p).waitHolds w = false →
      ∃ s1 t, exec (.flagTimeout p e) s = .next t ∧
        s1 = s.waitUntil ((s.core p).stallAt + (s.hdrOf (s.core p)).limit) ∧
        Faulted s1 t p 0x0301 0 (s.core p).pc (s.core p).startedTiles ∧
        t.tick = max s.tick ((s.core p).stallAt + (s.hdrOf (s.core p)).limit)) ∧
    (e = 0 → (s.core p).st = .atTrick → (s.core p).resumeAt = none →
      ∃ s1 t, exec (.flagTimeout p e) s = .next t ∧
        s1 = s.waitUntil ((s.core p).stallAt + (s.hdrOf (s.core p)).limit) ∧
        Faulted s1 t p 0x0301 0 ((s.core p).pc - 32) (s.core p).startedTiles ∧
        t.tick = max s.tick ((s.core p).stallAt + (s.hdrOf (s.core p)).limit)) ∧
    (∀ q rest, e ≠ 0 → ((s.core p).engine e).queue = q :: rest → (s.core p).waitHolds q.word = false →
      ∃ s1 t, exec (.flagTimeout p e) s = .next t ∧
        s1 = s.waitUntil (((s.core p).engine e).headSince + (s.hdrOf (s.core p)).limit) ∧
        Faulted s1 t p 0x0301 e q.pc (s.core p).startedTiles ∧
        t.tick = max s.tick (((s.core p).engine e).headSince + (s.hdrOf (s.core p)).limit)))

/-- R101, R102, R103, R117, R118, R134: A later stream page arrives in a frame with the slots that the image holds, an uncorrectable word read
as zeros; where device memory holds no word error, the frame keeps the first fault that the seals of its tiles give. With 16 frames in use
none is lost but the one whose page lies furthest behind the current page, or furthest ahead when none lies behind. A request that has
waited AGE_LIMIT cycles (0 to 7 act as 32) is promoted: it is counted once in SPM_PROMOTED, and nothing else changes; a request that has
waited less, and one of link receive, which never waits, is not. -/
def Obligations.PagesAndRequestsArrive : Prop :=
  (
  ∀ (s : State) (p : Fin 176) (page : Nat) (im : Image) (st : StreamEnt), s.up = true → s.image = some im →
    s.streamOf (s.core p) = some st → (s.core p).st ≠ .faulted →
    (∀ f ∈ (s.core p).frames, f.page ≠ page) → 16384 * page < st.length →
    let cur := (s.core p).pc / 16384
    let base := im.addr + st.stream + 16384 * page
    let bytes := min 16384 (st.length - 16384 * page)
    (16 ≤ (s.core p).frames.length → ∃ g ∈ (s.core p).frames, g.page ≠ cur) →
    ∃ t f, exec (.streamPageFetch p page) s = .next t ∧ f ∈ (t.core p).frames ∧ f.page = page ∧
      (∀ k, k < bytes / 32 → f.slots[k]? = some (Slot.ofNat (leNat (s.hbm.delivered (base + 32 * k) 32)))) ∧
      (s.hbm.err = [] → f.bad = ((List.range ((bytes + 4095) / 4096)).map (fun i => base + 4096 * i)).findSome? (fun a =>
        let code := pageSealCheck (s.hbm.sealAt a) (s.hbm.read a 4096)
        if code = 0 then none else some ⟨code, a, s.hbm.sealAt a⟩)) ∧
      (∀ g ∈ (s.core p).frames, g ∈ (t.core p).frames ∨ (16 ≤ (s.core p).frames.length ∧ g.page ≠ cur ∧
        ((∃ h ∈ (s.core p).frames, h.page < cur) → ∀ h ∈ (s.core p).frames, h.page < cur → g.page ≤ h.page) ∧
        ((∀ h ∈ (s.core p).frames, cur ≤ h.page) → ∀ h ∈ (s.core p).frames, h.page ≤ g.page))) ∧
      CoresKept s t [p] ∧ t.hbm.bytes = s.hbm.bytes ∧
      t.core p = { s.core p with frames := (t.core p).frames }) ∧
  (
  ∀ (s : State) (p : Fin 176) (receive : Bool) (waited : Nat), s.up = true →
    (receive = false →
      (if s.rd R.SPM_CTRL_AGE_LIMIT p < 8 then 32 else s.rd R.SPM_CTRL_AGE_LIMIT p) ≤ waited →
      ∃ t, exec (.requestPromote p receive waited) s = .next t ∧
        t.rd R.SPM_PROMOTED p = min (s.rd R.SPM_PROMOTED p + 1) (2 ^ 32 - 1) ∧
        FieldsKept s t [R.SPM_PROMOTED.key p 0] ∧ t = { s with regs := t.regs }) ∧
    (receive = true ∨ waited < (if s.rd R.SPM_CTRL_AGE_LIMIT p < 8 then 32 else s.rd R.SPM_CTRL_AGE_LIMIT p) →
      exec (.requestPromote p receive waited) s = .next s))

/-- R77, R97, R98, R125, R205: An engine instruction touches nothing of its core but its queues, stationary buffers, accumulator blocks,
scratchpad with its seals and errors, and the two injection marks; no other core; and no byte of any memory outside the units that its
destination operands address, so that an instruction that stores nothing (MLOAD, MMUL, MBURN, SPMM and the link sends) leaves every byte.
What it records as written is the tiles of such units. Model's choices, no rule of the spec: an operand outside the scratchpad is read or
written where its slot says (log entry 112). -/
def Obligations.EngineBodiesFrame : Prop :=
  ∀ (w : Slot) (c r : ECtx), bodyOf w c = .ok () r →
    CoresKept c.s r.s [c.p] ∧
    (let x := c.s.core c.p
     let y := r.s.core c.p
     y = { x with queues := y.queues, bufs := y.bufs, blocks := y.blocks, spm := y.spm, seals := y.seals, spmErr := y.spmErr,
                  seaInject := y.seaInject, mxuInject := y.mxuInject }) ∧
    (∀ sp b, (∀ a ∈ r.wrote.map (·.at_), a.space = sp → ¬(a.addr ≤ b ∧ b < a.addr + 4096)) →
      r.s.byteOf c.p sp b = c.s.byteOf c.p sp b) ∧
    (c.word = w → ∀ sp b, (∀ d ∈ w.dests, ∀ j u, c.destUnit d.1 d.2 j u → u.space = sp → ¬(u.addr ≤ b ∧ b < u.addr + d.2)) →
      r.s.byteOf c.p sp b = c.s.byteOf c.p sp b) ∧
    (c.word = w → c.wrote = [] → ∀ a ∈ r.wrote.map (·.at_), ∃ d ∈ w.dests, ∃ j u, c.destUnit d.1 d.2 j u ∧
      a = ⟨u.space, u.addr / 4096 * 4096⟩) ∧
    r.s = { c.s with regs := r.s.regs, free := r.s.free, outbox := r.s.outbox, cores := r.s.cores, hbm := r.s.hbm, ddr := r.s.ddr,
                     digests := r.s.digests, msixPend := r.s.msixPend, ports := r.s.ports, recs := r.s.recs, events := r.s.events,
                     pcie := r.s.pcie }

/-- R208, R243, R244, R245: DFILL, met by no unordered access, writes its 32-bit pattern to every unit that A1 emits, and no other byte of the
package's memories changes. DCOPY copies each unit that A0 emits to the unit that A1 emits at the same position, as the source was before
the instruction, and a copied tile carries its seal unchanged. DGATHER copies to each unit that A1 emits the unit of A0 that its index
names, or zeros for index 0xFFFFFFFF, as the source was before the instruction, and a copied tile carries its seal unchanged. Model's
choices, no rule of the spec: all reads come before all writes, so what an overlap of source and destination or a destination written
twice holds (log entry 116). -/
def Obligations.TilesAreMoved : Prop :=
  (
  ∀ (c r : ECtx) (sp : Space) (b : Nat), bodyDfill c = .ok () r → (c.slots.getD 1 AdgSlot.zero).queue = false → sp ≠ .host →
    (∀ sp', c.s.rivals c.p c.word.engine sp' = []) →
    let a := c.slots.getD 1 AdgSlot.zero
    let u := unitBytes c.word.unit
    let hit : Prop := a.space = sp ∧ ∃ j < a.period, a.addr u j ≤ b ∧ b < a.addr u j + u
    (hit → r.s.byteOf c.p sp b = BitVec.ofNat 8 (c.word.pattern >>> (8 * (b % 4)))) ∧
    (¬ hit → r.s.byteOf c.p sp b = c.s.byteOf c.p sp b)) ∧
  (
  ∀ (c r : ECtx), bodyDcopy c = .ok () r →
    let a := c.slots.getD 0 AdgSlot.zero
    let d := c.slots.getD 1 AdgSlot.zero
    let u := unitBytes c.word.unit
    a.queue = false → d.queue = false → a.space ≠ .host → d.space ≠ .host →
    (∀ sp', c.s.rivals c.p c.word.engine sp' = []) →
    (c.s.core c.p).spmErr = [] → c.s.hbm.err = [] → c.s.ddr.err = [] →
    (∀ i j, i < j → j < d.period → d.addr u i ≠ d.addr u j) →
    ∀ j < d.period,
      (∀ i < u, r.s.byteOf c.p d.space (d.addr u j + i) = c.s.byteOf c.p a.space (a.addr u j + i)) ∧
      (u = 4096 → r.s.sealOf c.p ⟨d.space, d.addr u j⟩ = c.s.sealOf c.p ⟨a.space, a.addr u j⟩)) ∧
  (
  ∀ (c r : ECtx), bodyDgather c = .ok () r → c.quiet → c.direct 1 → c.direct 2 → (c.operandSlot 0).space ≠ .host →
    let a := c.operandSlot 0
    let d := c.operandSlot 1
    let u := unitBytes c.word.unit
    (∀ i j, i < j → j < c.word.grows → d.addr u i ≠ d.addr u j) →
    ∀ j < c.word.grows, ∀ x, (c.operand 2 64 32 c.word.grows)[j]? = some x →
      let from' := gatherAddr a.base u c.word.istride x
      (∀ i < u, r.s.byteOf c.p d.space (d.addr u j + i) = if x = 0xFFFFFFFF then 0#8 else c.s.byteOf c.p a.space (from' + i)) ∧
      (u = 4096 → x ≠ 0xFFFFFFFF → r.s.sealOf c.p ⟨d.space, d.addr u j⟩ = c.s.sealOf c.p ⟨a.space, from'⟩))

/-- R82, R258, R285, R288: LSIG places one SIGNAL flit on the flow of its route, LFETCH one FETCH flit with its number of tiles and a free
tag; each carries the core's hand tag. LPUT places 16 flits for each tile on the flow of its route, in order, the last of each tile a
DATA_LAST with the tile's seal; the instruction's signal, with STGT 0b11, is in the very last one. -/
def Obligations.LinkEngineSends : Prop :=
  (
  ∀ (c : ECtx),
    (∃ r, bodyLsig c = .ok () r ∧
      let x := c.s.route c.word.starget
      let f : Flit := { Flit.zero with ty := 3, route := x.next, sflag := c.word.sflag, sinc := c.word.sinc,
                                       tag := (c.s.core c.p).handTag }
      (r.s.port x.port).flow x.flow = (c.s.port x.port).flow x.flow ++ [(f, Owner.lse c.p c.s.stamp)] ∧
      r.s = { c.s with ports := r.s.ports } ∧ (∀ n, n ≠ x.port → r.s.port n = c.s.port n)) ∧
    (let a := c.slots.getD 1 AdgSlot.zero
     a.space = .spm → a.period ≤ 2048 →
      ∃ r, bodyLfetch c = .ok () r ∧
        let x := c.s.route c.word.route
        let f : Flit := { Flit.zero with
          ty := 4, route := x.next, window := c.word.rwin, offset := c.word.woffset, tag := (c.s.core c.p).handTag,
          payload := payloadOf [(0, 2, max 1 a.period), (2, 1, (c.s.core c.p).freeTag)] }
        (r.s.port x.port).flow x.flow = (c.s.port x.port).flow x.flow ++ [(f, Owner.none)] ∧
        r.s = { c.s with ports := r.s.ports } ∧ (∀ n, n ≠ x.port → r.s.port n = c.s.port n))) ∧
  (
  ∀ (c r : ECtx), bodyLput c = .ok () r →
    let a := c.slots.getD 0 AdgSlot.zero
    let x := c.s.route c.word.route
    let k := max 1 a.period
    a.queue = false → (∀ sp', c.s.rivals c.p c.word.engine sp' = []) → (c.s.core c.p).spmErr = [] →
    ∃ l : List Flit, l.length = 16 * k ∧
      (r.s.port x.port).flow x.flow = (c.s.port x.port).flow x.flow ++ l.map (fun f => (f, Owner.lse c.p c.s.stamp)) ∧
      (∀ j < k, ∀ i < 16, l[16 * j + i]? = some { Flit.zero with
        ty := if i = 15 then 2 else 1, route := x.next, window := c.word.rwin, offset := c.word.woffset + 64 * j + 4 * i,
        tag := (c.s.core c.p).handTag, payload := (c.s.core c.p).spmRead (a.addr 4096 j + 256 * i) 256,
        carry := if i = 15 then (c.s.core c.p).sealAt (a.addr 4096 j) else Flit.zero.carry,
        sflag := if i = 15 ∧ j + 1 = k ∧ c.word.stgt = 3 then c.word.sflag else 0,
        sinc := if i = 15 ∧ j + 1 = k ∧ c.word.stgt = 3 then c.word.sinc else 0 }))

/-- R152, R155, R156, R157, R158, R159, R161, R162, R163, R165, R171, R172, R174, R175, R176, R185, R186, R187, R188, R189, R190, R193, R194,
R195, R196, R197, R375, R377, R378: MLOAD fills its stationary buffer with the codes, in their transposed order when asked, and the scales
that its operands hold; MMUL adds to element (i, j) the products of row i of its operand with column j of the buffer, each with both
scales, as an anchored or an ordered sum, from nothing when it starts a sum. MDRAIN writes the values of its blocks' elements row by row,
converted to its format and scaled, or as anchored codes with the anchor of each tile, and empties the blocks unless KEEP is 1. The block
sums that enter an anchored element give the same element in every order. SPMM adds to the elements of row i, column by column, the
products of the row's activations with the entries of the panel that its map entry names, but for K-blocks whose entries are all 0; a row
that names no panel receives nothing (log entry 96). The vector engine and the function engine write, element by element, the function of
their operands' elements in the destination format, VRED one result for each group and VCVT with the scales asked for. RADD, RANCHOR and
RCVT write the sums, the anchor records and the conversions of their operands' elements, SAMPLE and SLOGP a token and a log-probability
for each row of logits. Model's choices, no rule of the spec: signs of zeros that no rule names (log entry 114), the product of two
infinities (log entry 128), FP32 added to an anchored sum (log entry 115), roundings and ties left open (log entry 17), empty records and
blocks of stored zeros of SPMM (log entry 96), the pops of one queue by both operands of RADD (log entry 129). -/
def Obligations.EnginesCompute : Prop :=
  (
  ∀ (c r : ECtx), c.quiet → c.direct 0 →
    let w := c.word
    let core := c.s.core c.p
    (c.word.scale = 1 ∨ c.word.scale = 2 → c.direct 1) →
    (bodyMload c = .ok () r →
      let str := c.operand 0 4096 (fmtWidth w.sfmt) (w.krows * w.ncols)
      ∃ codes, (r.s.core c.p).buf w.mlBuf =
          ⟨true, w.sfmt, w.scale, w.krows, w.ncols, codes, c.scaleCodes w.scale w.ncols (kBlocks w.krows)⟩ ∧
        codes.length = w.krows * w.ncols ∧
        (∀ k < w.krows, ∀ j < w.ncols, codes[k * w.ncols + j]? = some (str.getD (if w.mlTrans then j * w.krows + k else k * w.ncols + j) 0)) ∧
        ∀ i, i ≠ w.mlBuf → (r.s.core c.p).buf i = core.buf i) ∧
    (bodyMmul c = .ok () r → (core.buf w.mmBuf).ncols ≤ 256 →
      let buf := core.buf w.mmBuf
      let new := startsSum w.first c.loop0
      let f := (Fmt.ofCode w.sfmt).getD .fp32
      let nb := kBlocks buf.krows
      let a := c.operand 0 4096 f.width (w.mrows * buf.krows)
      let sc := c.scaleCodes w.scale w.mrows nb
      (∀ i < w.mrows,
        let t := w.ablk + i / 64
        let old := core.block t
        let now := (r.s.core c.p).block t
        let rows := (List.range w.mrows).filter (fun k => k / 64 + w.ablk == t)
        now.held = true ∧ now.width = buf.ncols ∧ now.anchored = (if new then w.acc else old.anchored) ∧
        now.anchor = (if new then (if w.acc then newAnchor w f (rows.flatMap (fun k => (List.range nb).map (fun b => sc.getD (k * nb + b) 255))) buf.scales
          else 0) else old.anchor) ∧
        now.nb = (if new then 0 else old.nb) + nb ∧
        ∀ j < buf.ncols,
          let e0 := if new then AccEl.zero else SMap.get AccEl.zero old.els (i % 64 * 256 + j)
          let prods := (List.range buf.krows).map (fun k => (⟨k / 32,
            codeProd f (a.getD (i * buf.krows + k) 0) (buf.codes.getD (k * buf.ncols + j) 0),
            (f.decode (a.getD (i * buf.krows + k) 0)).mul (f.decode (buf.codes.getD (k * buf.ncols + j) 0)),
            (scaleVal w.scale sc nb i (k / 32)).mul (scaleVal w.scale buf.scales nb j (k / 32))⟩ : Prod))
          SMap.get AccEl.zero now.els (i % 64 * 256 + j) =
            if now.anchored then (anchoredAdd now.anchor e0 prods nb).check.1 else orderedAdd e0 prods) ∧
      ∀ t, t ∉ touched w.ablk w.mrows → (r.s.core c.p).block t = core.block t)) ∧
  (
  ∀ (c r : ECtx), bodyMdrain c = .ok () r → (∀ sp, c.s.rivals c.p c.word.engine sp = []) →
    let w := c.word
    let core := c.s.core c.p
    let rows := (List.range w.mrows).map (fun i => (core.block (w.ablk + i / 64), i % 64))
    let f := (Fmt.ofCode w.dfmt).getD .fp32
    let drained := rows.map (fun x => drainRow f w.scale ((List.range x.1.width).map (fun j => x.1.elVal x.2 j)))
    let an : Anch := if w.out = 1 then .a64 else .a128
    let anchored := rows.flatMap (fun x => (List.range x.1.width).map (fun j => x.1.elAnch an x.2 j))
    let owner := rows.flatMap (fun x => List.replicate x.1.width x.1.anchor)
    let tiles := (anchored.length * (8 * an.size) + 32767) / 32768
    (w.out = 0 → (c.apart 0 4096 1 64 → Landed c r 0 4096 f.width (drained.flatMap (·.1))) ∧
      Landed c r 1 64 (if w.scale = 1 then 8 else 32) (drained.flatMap (·.2))) ∧
    (w.out ≠ 0 → (c.apart 0 4096 1 64 → Landed c r 0 4096 (8 * an.size) anchored) ∧
      Landed c r 1 64 16 ((List.range tiles).map (fun t => codeOf 16 (owner.getD (t * (4096 / an.size)) 0)))) ∧
    ∀ t ∈ touched w.ablk w.mrows, (r.s.core c.p).block t = if w.keep then core.block t else AccBlock.empty) ∧
  (
  ∀ (anchor : Int) (e : AccEl) (l m : List Val), l.Perm m →
    l.foldl (fun a v => a.addBlock anchor v) e = m.foldl (fun a v => a.addBlock anchor v) e) ∧
  (
  ∀ (c r : ECtx), bodySpmm c = .ok () r → c.quiet → c.direct 0 → c.direct 1 → c.direct 2 →
    let w := c.word
    let core := c.s.core c.p
    let f := (Fmt.ofCode w.sfmt).getD .bf16
    let maps := c.operand 2 64 32 w.mrows
    let klen := (c.panelOf 0).1.klen
    let pitch := spmmPitch klen f.width
    let raw := c.operandBytes 0 512 ((w.mrows * pitch + 511) / 512)
    let act (i k : Nat) : Nat := if w.scale = 0 then (c.operand 0 512 f.width (w.mrows * klen)).getD (i * klen + k) 0
      else (elems f.width k 1 (raw.drop (i * pitch))).getD 0 0
    let scale (i b : Nat) : Val := if w.scale = 0 then Val.ofRat 1
      else e8m0 ((raw.getD (i * pitch + (klen * f.width + 511) / 512 * 64 + b) 0).toNat)
    ∀ i < w.mrows, ∀ j < 256,
      let old := core.block (w.ablk + i / 64)
      let p := c.panelOf (bitsOf (maps.getD i 0) 0 12)
      let vf := (Fmt.ofCode p.1.vfmt).getD .bf16
      let val (e : PanelEnt) : Val := vf.decode (bitsOf e.value 0 vf.width)
      let prod (e : PanelEnt) : Prod := ⟨e.k / 32, (f.decode (act i e.k)).mul (val e), (f.decode (act i e.k)).mul (val e),
        (scale i (e.k / 32)).mul (Fmt.decode .fp32 p.1.dscale)⟩
      let mine := if bitOf (maps.getD i 0) 31 then [] else p.2.filter (fun e => e.column == j)
      let kept := mine.filter (fun e => mine.any (fun x => x.k / 32 == e.k / 32 && !((val x).isFin && (val x).rat == 0)))
      let e0 := SMap.get AccEl.zero old.els (i % 64 * 256 + j)
      SMap.get AccEl.zero ((r.s.core c.p).block (w.ablk + i / 64)).els (i % 64 * 256 + j) =
        if kept = [] then e0 else (anchoredAdd old.anchor e0 (kept.map prod) (kBlocks klen)).check.1) ∧
  (
  ∀ (c r : ECtx), c.quiet → c.direct 0 →
    let w := c.word
    let sf := fmtOf w.sfmt
    let df := fmtOf w.dfmt
    let n := rowElems (c.operandSlot 2).period df.width
    (bodyVop c = .ok () r → (¬(w.imm8 ∈ [6, 7, 0x0E] ∨ w.bscal = true) → c.direct 1) → (w.imm8 ∈ [3, 0x0D] → c.direct 3) →
      let a := c.operand 0 512 sf.width n
      let b := if w.imm8 ∈ [6, 7, 0x0E] ∨ w.bscal = true then List.replicate n (w.scalar % 2 ^ sf.width) else c.operand 1 512 sf.width n
      let x := if w.imm8 ∈ [3, 0x0D] then c.operand 3 512 sf.width n else []
      Landed c r 2 512 df.width ((List.range n).map (fun i => vopElem w.imm8 sf df (a.getD i 0) (b.getD i 0) (x.getD i 0)))) ∧
    (bodyVred c = .ok () r →
      Landed c r 2 512 df.width ((groupsOf w.len (c.operand 0 512 sf.width (rowElems (c.operandSlot 0).period sf.width))).map
        (vredElem w.imm8 sf df))) ∧
    (let sides := vcvtSides w.sfmt w.dfmt
     bodyVcvt c = .ok () r → (w.scale ≠ 0 ∧ sides.1 = true → c.direct 1) →
      let swd := if w.scale = 1 then 8 else 32
      let gIn := vcvtGroup w.scale sf.width
      let gOut := vcvtGroup w.scale df.width
      let src := c.operand 0 512 sf.width n
      let sc := c.operand 1 512 swd ((n + gIn - 1) / gIn)
      let vals := (List.range n).map (fun i => let v := sf.decode (src.getD i 0)
        if w.scale ≠ 0 ∧ sides.1 = true then v.mul (if w.scale = 1 then e8m0 (sc.getD (i / gIn) 0) else Fmt.decode .fp32 (sc.getD (i / gIn) 0)) else v)
      let parts := (List.range ((n + gOut - 1) / gOut)).map (fun g =>
        if w.scale = 1 then scaleE8m0 df w.vrmode ((vals.drop (g * gOut)).take gOut) else scaleFp32 df w.vrmode ((vals.drop (g * gOut)).take gOut))
      (w.scale ≠ 0 ∧ sides.2 = true → (c.apart 2 512 3 512 → Landed c r 2 512 df.width (parts.flatMap (·.2))) ∧
        Landed c r 3 512 swd (parts.map (·.1))) ∧
      (¬(w.scale ≠ 0 ∧ sides.2 = true) → Landed c r 2 512 df.width (vals.map (df.encode w.vrmode)))) ∧
    (∀ body op, (body, op) ∈ [(bodyFexp, XOp.exp w.base2), (bodyFlog, XOp.log w.base2), (bodyFrsq, XOp.rsqrt), (bodyFact, factOp w.imm8)] →
      body c = .ok () r → Landed c r 2 512 df.width ((c.operand 0 512 sf.width n).map (fun x => op.code df (sf.decode x))))) ∧
  (
  ∀ (c r : ECtx), c.quiet → c.direct 0 → c.direct 1 →
    let w := c.word
    let f := (Fmt.ofCode w.sfmt).getD .fp32
    (bodyRadd c = .ok () r →
      let wd := redWidth w.redMode
      let k := 32768 / wd * (c.operandSlot 2).period
      Landed c r 2 4096 wd (raddTile w.redMode (c.operand 0 4096 wd k) (c.operand 1 4096 wd k)).1) ∧
    (bodyRanchor c = .ok () r →
      (w.acc = false → let k := 32 * (c.operandSlot 2).period
        Landed c r 2 64 16 (List.zipWith recMax (c.operand 0 64 16 k) (c.operand 1 64 16 k))) ∧
      (w.acc = true →
        let n := (c.operandSlot 0).period
        let per := 32768 / f.width
        let src := c.operand 0 4096 f.width (per * n)
        Landed c r 2 64 16 ((List.range n).map (fun t => recMax (recOf (((src.drop (t * per)).take per).map f.decode)) ((c.operand 1 64 16 n).getD t recEmpty)) ++
          List.replicate (32 * ((n + 31) / 32) - n) recEmpty))) ∧
    (bodyRcvt c = .ok () r →
      let an := redForm w.redMode
      let g := (Fmt.ofCode (if w.acc then w.sfmt else w.dfmt)).getD .fp32
      let per := 32768 / g.width
      let n := (c.operandSlot (if w.acc then 0 else 2)).period
      let recs := c.operand 1 64 16 n
      (w.acc = true → Landed c r 2 4096 (8 * an.size) (((c.operand 0 4096 g.width (per * n)).zipIdx).map (fun x =>
        an.encode (an.ofVal (recAnchor (recs.getD (x.2 / per) recEmpty)) (g.decode x.1)).1))) ∧
      (w.acc = false → Landed c r 2 4096 g.width (((c.operand 0 4096 (8 * an.size) (per * n)).zipIdx).map (fun x =>
        g.encode w.rrmode (an.toVal (recAnchor (recs.getD (x.2 / per) recEmpty)) (an.decode x.1)))))) ∧
    (let zs := c.operand 0 512 (fmtOf w.sfmt).width (w.srows * w.vocab)
     let row (k : Nat) : List Val := ((zs.drop (k * w.vocab)).take w.vocab).map (fmtOf w.sfmt).decode
     (bodySample c = .ok () r → Landed c r 2 64 32 ((List.range w.srows).map (fun k =>
        sampleToken (row k) (SampleRec.ofLine (((c.operandBytes 1 64 w.srows).drop (64 * k)).take 64))))) ∧
     (bodySlogp c = .ok () r → Landed c r 2 64 32 ((List.range w.srows).map (fun k =>
        slogp (row k) ((c.operand 1 64 32 w.srows).getD k 0))))))

/-- R49, R69, R92: A member arrives at its trick when every instruction of its engines has completed, with its windows closed; at an abort
trick it arrives with its windows closed; until then nothing changes. -/
def Obligations.MembersArrive : Prop :=
  ∀ (s : State) (p : Fin 176) (m : Member), (s.core p).member = some m → s.dealerUp = true → m.hand ≠ checkHand →
    ((s.core p).trick = .draining → (s.core p).st = .atTrick → (s.core p).quiet = true →
      ∃ s1, exec (.memberArrive p) s = .next (s1.trickCheck m.group) ∧ (s1.core p).trick = .arrived ∧
        (∀ i < 64, ((s1.core p).window i).isOpen = false) ∧ CoresKept s s1 [p] ∧ s1.ports = s.ports ∧
        (s1.core p).arrivedAt = some (s.dieTime (p / 11) : Int)) ∧
    ((s.core p).trick = .draining → (s.core p).quiet = false → exec (.memberArrive p) s = .next s) ∧
    ((s.core p).trick = .aborting →
      ∃ s1, exec (.memberArrive p) s = .next (s1.abortCheck 64 m.group) ∧ (s1.core p).trick = .abortDone ∧
        (∀ i < 64, ((s1.core p).window i).isOpen = false) ∧ CoresKept s s1 [p] ∧ s1.ports = s.ports)

/-- R317, R318, R319, R320: TRICK flits of a port are handled in the order they came, each by the row of its kind; with the dealer down, with
none, and for a row of another kind nothing changes. A trick completes on a package when every local member and every child has arrived: a
package with a parent sends ARRIVE once, with the largest NEED; the root releases the trick at its time plus margin and NEED, and ends the
dealing at the last trick. Model's choices, no rule of the spec: the row of an event that is not there changes nothing (log entry 15),
NEED is free while a member sleeps (log entry 68). -/
def Obligations.TricksAreCombined : Prop :=
  (
  ∀ (s : State) (port : Fin 16) (kind : Nat) (c : Instr), trickRow kind port = some c →
    s.dealerUp = false ∨ s.trickAt port = none ∨ (∃ f, s.trickAt port = some f ∧ f.kind ≠ kind) → exec c s = .next s) ∧
  (
  ∀ (s : State) (g : Nat) (d : Dealing), (s.group g).dealing = some d → (s.group g).abort = none →
    let need := max (if d.parts.all s.partAwake ∧ (∀ h ∈ s.handAt d.hand, h.touches.all s.awake) then 0 else Config.freeNat s.free)
      (s.group g).kidsNeed
    (s.subtreeArrived g d = false → s.trickCheck g = s) ∧
    (s.subtreeArrived g d = true →
      (∀ port, s.parentPort g = some port →
        ((s.group g).sentUp = true → s.trickCheck g = s) ∧
        ((s.group g).sentUp = false → ∃ t, s.trickCheck g = t ∧
          (t.port port).tricks = (s.port port).tricks ++
            [({ TrickFlit.plain 1 g (s.group g).serial with trick := d.trick, need := need } : TrickFlit).flit] ∧
          t.group g = { s.group g with sentUp := true, st := .arrived } ∧ t.cores = s.cores)) ∧
      (s.parentPort g = none → d.trick + 1 < (s.dealHdr d).trickCount →
        Released s (s.trickCheck g) g d (s.time + s.margin g + need)) ∧
      (s.parentPort g = none → (s.dealHdr d).trickCount ≤ d.trick + 1 → s.rd R.PLN_IMAGE_STATE ≠ 2 →
        DealingEnded s (s.trickCheck g) g d ∧
        ∀ c ∈ s.childPorts g, ∃ rest, ((s.trickCheck g).port c).tricks = (s.port c).tricks ++
          ({ TrickFlit.plain 7 g (s.group g).serial with trick := d.trick } : TrickFlit).flit :: rest)))

/-- R318, R320, R338: An ARRIVE from a child for the trick being collected is noted with its NEED, and completes the trick when it was the
last; one from another port or for another trick is dropped and counted. In the load dealing, serial 0, an ARRIVE from a child is noted
until the group has voted; once the image is accepted and every child has sent its own, the package sends one to its parent, or as root
has completed the load dealing. The load dealing (R338). A RELEASE from the parent for the trick this package has reported is passed on to
the children and gives the local members their deal time; an END ends the dealing and is passed on; any other is dropped and counted. -/
def Obligations.TreeFlitsAreTaken : Prop :=
  (
  ∀ (s : State) (port : Fin 16) (f : TrickFlit), s.dealerUp = true → s.trickAt port = some f → f.kind = 1 → f.serial ≠ 0 →
    ((port : Nat) ∈ s.childPorts f.group → f.serial = (s.group f.group).serial → (s.group f.group).abort = none →
      ∀ d, (s.group f.group).dealing = some d →
        (d.trick = f.trick → ∃ t, exec (.trickArrive port) s = .next t ∧
          t = ((s.trickTaken port f).onGroup f.group (fun x => x.arrivedFrom port f.need)).trickCheck f.group) ∧
        (d.trick ≠ f.trick → ∃ t, exec (.trickArrive port) s = .next t ∧ t = { s.trickTaken port f with regs := t.regs } ∧
          Counted s t R.TRK_CNT_BAD 0 ∧
          FieldsKept s t [R.TRK_CNT_BAD.key 0 0])) ∧
    ((port : Nat) ∉ s.childPorts f.group → (s.group f.group).abort = none →
      ∃ t, exec (.trickArrive port) s = .next t ∧ t = { s.trickTaken port f with regs := t.regs } ∧
        Counted s t R.TRK_CNT_BAD 0 ∧ FieldsKept s t [R.TRK_CNT_BAD.key 0 0])) ∧
  (
  ∀ (s : State) (port : Fin 16) (f : TrickFlit), s.dealerUp = true → s.trickAt port = some f → f.kind = 1 → f.serial = 0 →
    (port : Nat) ∈ s.childPorts f.group → (s.group f.group).abort = none →
    let u := (s.trickTaken port f).onGroup f.group (fun x => x.arrivedFrom port f.need)
    ((s.group f.group).voted = false → (s.group f.group).serial = 0 → f.trick = 0 →
      ∃ t, exec (.trickArrive port) s = .next t ∧
        (s.rd R.PLN_IMAGE_STATE = 1 → s.multi f.group = true → (s.group f.group).sentUp = false →
          (∀ c ∈ s.childPorts f.group, ∃ k ∈ (u.group f.group).kids, k.1 = c) →
          t.group f.group = { u.group f.group with sentUp := true } ∧ t.cores = s.cores ∧
          (∀ up, s.parentPort f.group = some up → (t.port up).tricks = (s.port up).tricks ++ [(TrickFlit.plain 1 f.group 0).flit]) ∧
          (s.parentPort f.group = none → t.ports = s.ports)) ∧
        (s.rd R.PLN_IMAGE_STATE ≠ 1 ∨ s.multi f.group = false ∨ (s.group f.group).sentUp = true ∨ (∃ c ∈ s.childPorts f.group, ∀ k ∈ (u.group f.group).kids, k.1 ≠ c) →
          t = u)) ∧
    ((s.group f.group).voted = false → (s.group f.group).serial ≠ 0 ∨ f.trick ≠ 0 →
      ∃ t, exec (.trickArrive port) s = .next t ∧ t = { s.trickTaken port f with regs := t.regs } ∧
        Counted s t R.TRK_CNT_BAD 0 ∧ FieldsKept s t [R.TRK_CNT_BAD.key 0 0])) ∧
  (
  ∀ (s : State) (port : Fin 16) (f : TrickFlit) (d : Dealing), s.dealerUp = true → s.trickAt port = some f →
    (s.group f.group).abort = none → (s.group f.group).dealing = some d →
    (f.kind = 2 → s.waitsOn port f = true → ∃ t, exec (.trickRelease port) s = .next t ∧ Released s t f.group d f.t) ∧
    (f.kind = 7 → s.waitsOn port f = true → s.rd R.PLN_IMAGE_STATE ≠ 2 →
      ∃ t, exec (.trickEnd port) s = .next t ∧ DealingEnded s t f.group d ∧
        ∀ c ∈ s.childPorts f.group, ∃ rest, (t.port c).tricks = (s.port c).tricks ++
          ({ TrickFlit.plain 7 f.group f.serial with trick := f.trick } : TrickFlit).flit :: rest) ∧
    (∀ c, trickRow f.kind port = some c → f.kind = 2 ∨ f.kind = 7 → s.waitsOn port f = false →
      ∃ t, exec c s = .next t ∧ t = { s.trickTaken port f with regs := t.regs } ∧
        Counted s t R.TRK_CNT_BAD 0 ∧ FieldsKept s t [R.TRK_CNT_BAD.key 0 0]))

/-- R47, R48, R319, R320, R321, R412: The dealer deals a hand that a DEAL has named as soon as it is ready, with the serial and deal time of
the DEAL; else it deals the candidate that ranks first, when nothing else is in progress or the energy account admits it, with the next
serial and a deal time no earlier than margin and NEED allow, and sends DEAL to the group's children (for a dealing whose prompts lie in
device memory, since a read of host memory can fail). A DEAL from the parent for the group's next serial is passed on to the children at
once; its hand is dealt as soon as it is ready here, with the deal time of the DEAL, and is remembered until then. Model's choices, no
rule of the spec: NEED is free while a member sleeps (log entry 68), and what a prompt that cannot be read does (log entry 90). -/
def Obligations.DealsStart : Prop :=
  (
  ∀ (s : State) (pick : List Nat) (need extra : Nat) (im : Image), s.dealerUp = true → s.image = some im →
    (∀ g i h serial tm, g < 64 → s.askedHand g = some (i, h, serial, tm) → (∀ o < g, s.askedHand o = none) →
      ∃ t d, exec (.deal pick need extra) s = .next t ∧ MembersDealt s t g i (s.count i) serial tm h ∧
        (t.group g).dealing = some d ∧ d.hand = i ∧ d.number = s.count i ∧ d.trick = 0 ∧ d.dealAt = tm ∧
        d.parts = s.partsOf h.hdr ∧ (t.group g).serial = serial ∧ (t.group g).asked = none) ∧
    (∀ i h, (∀ g < 64, s.askedHand g = none) → s.handAt i = some h → i ≠ checkHand →
      (h.hdr.kind, i) ∈ s.boundaryEnds.dealCands pick →
      (∀ c ∈ s.boundaryEnds.dealCands pick, c ≠ (h.hdr.kind, i) → s.boundaryEnds.before (h.hdr.kind, i) c = true) →
      s.boundaryEnds.dealings = [] ∨ s.boundaryEnds.admits h.hdr = true →
      (h.hdr.cls ≤ 1 → ∀ r ∈ s.boundaryEnds.compose h.hdr pick, r.decoding = true ∨ r.entry.promptSpace = 1) →
      let g := h.hdr.group
      let tm := s.time + s.margin g + max need (s.group g).need + extra
      ∃ t d, exec (.deal pick need extra) s = .next t ∧ MembersDealt s t g i (s.count i) (nextSerial (s.group g).serial) tm h ∧
        (t.group g).dealing = some d ∧ d.hand = i ∧ d.number = s.count i ∧ d.trick = 0 ∧ d.dealAt = tm ∧
        (t.group g).serial = nextSerial (s.group g).serial ∧
        ∀ c ∈ s.childPorts g, (t.port c).tricks = (s.boundaryEnds.port c).tricks ++
          [({ TrickFlit.plain 3 g (nextSerial (s.group g).serial) with t := tm, handId := h.hdr.handId } : TrickFlit).flit])) ∧
  (
  ∀ (s : State) (port : Fin 16) (f : TrickFlit), s.dealerUp = true → s.trickAt port = some f → f.kind = 3 →
    s.parentPort f.group = some (port : Nat) → f.serial = nextSerial (s.group f.group).serial → (s.group f.group).busy = false →
    (s.group f.group).abort = none →
    ∃ t, exec (.trickDeal port) s = .next t ∧ t.trickIn = (s.trickTaken port f).trickIn ∧ (t.group f.group).serial = f.serial ∧
      (∀ c ∈ s.childPorts f.group, (t.port c).tricks = (s.port c).tricks ++ [f.flit]) ∧
      (((t.group f.group).asked = some (f.handId, f.serial, f.t) ∧ (t.group f.group).dealing = (s.group f.group).dealing ∧
          t.cores = s.cores) ∨
        ∃ d, (t.group f.group).dealing = some d ∧ (t.group f.group).asked = none ∧ (t.dealHdr d).handId = f.handId ∧
          d.trick = 0 ∧ d.dealAt = f.t))

/-- R69, R272, R323, R448, R449, R450, R557: The dealer's sweep turns the report of a faulted core into an abort trick of its group, and an
ABORT received on a tree port for the dealing in progress does the same with the other tree ports; a report of a group already aborting
starts no second one. An ABORT with CODE ROUND_LIMIT stops the plan, and one with CODE PARTNER_MISMATCH for no dealing that its sender
holds (the model's reading, log entry 102) holds the image; neither touches a core or a group. An ABORT_ARRIVE from a child is noted; at
the ABORT_DONE of the parent the abort is counted, the members are free and the group is back at its last checkpoint trick, with the
completion counts of its hands as they were there. Model's choices, no rule of the spec: a return whose code is LINK_DOWN or
DEALER_LOCKSTEP is not counted (log entry 66), and which ABORTs of CODE PARTNER_MISMATCH abort a dealing (log entry 102). -/
def Obligations.AbortsStopAndReturn : Prop :=
  (
  ∀ (s : State), s.dealerUp = true →
    (∀ (p : Fin 176) r m d, (s.core p).report = some r → (s.core p).member = some m → m.hand ≠ checkHand →
      (s.group m.group).dealing = some d → (p : Nat) ∈ d.parts →
      ((s.group m.group).abort = none →
        ∃ t, exec (.abortTrick p) s = .next t ∧ AbortBegun s t m.group d
          ⟨m.serial, r.code, s.chipId, true, some p, r.engine, r.pc, false⟩ (s.treePorts m.group)) ∧
      ((s.group m.group).abort ≠ none →
        exec (.abortTrick p) s = .next (s.onCore p (fun c => { c with report := none })))) ∧
    (∀ (port : Fin 16) f, s.trickAt port = some f → f.kind = 4 → (port : Nat) ∈ s.treePorts f.group → f.serial ≠ 0 →
      (∀ d, f.code ≠ 0x0801 → f.code ≠ 0x0C05 → f.serial = (s.group f.group).serial → (s.group f.group).abort = none →
        (s.group f.group).dealing = some d → d.hand ≠ checkHand → d.parts ≠ [] →
        ∃ t, exec (.trickAbort port) s = .next t ∧ AbortBegun s t f.group d ⟨f.serial, f.code, f.origin, false, none, 0, 0xFFFFFFFF, false⟩
          ((s.treePorts f.group).filter (fun q => q != (port : Nat)))) ∧
      (f.code = 0x0C05 → ∃ t, exec (.trickAbort port) s = .next t ∧ t.rd R.FLT_STATUS_PLAN_STOPPED = 1 ∧ t.cores = s.cores ∧
        t.groups = s.groups) ∧
      (f.code = 0x0801 → (s.group f.group).busy = false ∨ s.dealtAt port f.group = false → ∃ t, exec (.trickAbort port) s = .next t ∧ t.partner.held = true ∧
        t.cores = s.cores ∧ t.groups = s.groups))) ∧
  (
  ∀ (s : State) (port : Fin 16) (f : TrickFlit) (a : AbortInfo), s.dealerUp = true → s.trickAt port = some f → f.trick = 0 →
    (s.group f.group).abort = some a → a.serial = f.serial →
    (f.kind = 5 → (port : Nat) ∈ s.childPorts f.group →
      ∃ t, exec (.trickAbortArrive port) s = .next t ∧
        t = ((s.trickTaken port f).onGroup f.group (fun x => x.arrivedFrom port f.need)).abortCheck 64 f.group) ∧
    (∀ d, f.kind = 6 → s.parentPort f.group = some (port : Nat) → (s.group f.group).sentUp = true →
      s.rd R.PLN_IMAGE_STATE = 1 → (s.group f.group).dealing = some d → d.hand ≠ checkHand →
      (∀ o, o ≠ f.group → (s.group o).sinceCkpt = []) →
      ∃ t, exec (.trickAbortDone port) s = .next t ∧
        (t.group f.group).dealing = none ∧ (t.group f.group).abort = none ∧ (t.group f.group).st = .idle ∧
        (t.group f.group).round = [] ∧
        (t.group f.group).returns = (s.group f.group).returns + (if a.code = 0x0701 ∨ a.code = 0x0B01 then 0 else 1) ∧
        (∀ h ∈ s.groupHands f.group, t.count h = SMap.get 0 (s.group f.group).ckpt h) ∧
        (∀ h, h ∉ s.groupHands f.group → t.count h = s.count h) ∧
        (∀ p ∈ d.parts, (t.core p).member = none ∧ (t.core p).st = .idle) ∧ CoresKept s t d.parts ∧
        Counted s t R.TRK_CNT_ABORT 0))

/-- R92, R320, R324, R325: A member starts its stream, or resumes it after its trick and only then applies the TRICK's signal, once its die's
TABLE_TIME has reached its deal time; the clock runs that long, and while it has not come the member waits on. With the dealer down it
stays stopped, and its dummy load ends. The clock runs to the next change of a waiting member's dummy load. Its level falls from its array
activity by one at each step of its ramp to its floor and below it after the limit, and rises again to be back at the activity when its
deal time comes; the array cycles spent are counted, a free number, and nothing else of the core changes. Model's choices, no rule of the
spec: a timer's command lets the clock run to its limit (log entry 24), and the array activity is a free number (log entry 69). -/
def Obligations.MembersResumeAndRamp : Prop :=
  (
  ∀ (s : State) (p : Fin 176) (m : Member) (tm : Int), (s.core p).member = some m → (s.core p).resumeAt = some tm → s.linkLive = true →
    s.awake (p / 11) = true → (s.core p).region = .running →
    let s0 := s.waitDie (p / 11) tm
    (s.timing.slew = 0 → 0 ≤ s.timing.slewAcc → s.timing.slewAcc < 1000000 →
      s0.tick = s.tick + (tm - (s.dieTime (p / 11) : Int)).toNat) ∧
    ((s0.dieTime (p / 11) : Int) < tm → exec (.memberResume p) s = .next s0) ∧
    (s.up = true → tm ≤ (s0.dieTime (p / 11) : Int) →
      let c' : Core := { s.core p with
        st := .running, trick := .none, resumeAt := none, signalDue := none, arrivedAt := none, dummy := 0, stallAt := s0.tick,
        member := some { m with started := true } }
      let s1 := (s0.burned p).onGroup m.group (fun x => { x with
        st := if x.st = .dealing ∨ x.st = .released then .collecting else x.st })
      ∃ t, exec (.memberResume p) s = .next t ∧
        (∀ w, m.started = true → (s.core p).signalDue = some w → Signalled s1 t p w c' ∧ t.regs = s1.regs) ∧
        (m.started = false ∨ (s.core p).signalDue = none → t = s1.setCore p c')) ∧
    (s.up = false → tm ≤ (s0.dieTime (p / 11) : Int) →
      ∃ t, exec (.memberResume p) s = .next t ∧ CoresKept s t [(p : Nat)] ∧
        t.core p = { s.core p with dummy := if (s.core p).arrivedAt.isSome then 0 else (s.core p).dummy })) ∧
  (
  ∀ (s : State) (p : Fin 176) (ta : Int), (s.core p).arrivedAt = some ta → s.linkLive = true →
    let c := s.core p
    let st : Int := max 1 c.rampStep
    let a : Int := c.active
    let f : Int := c.floor
    let s0 := s.waitDie (p / 11) (c.nextLevel ta (s.dieTime (p / 11)))
    let τ : Int := s0.dieTime (p / 11)
    ∃ t, exec (.dummyLoadStep p) s = .next t ∧ CoresKept s t [p] ∧ t.core p = { c with dummy := (t.core p).dummy } ∧
      t = { s0 with regs := t.regs, cores := t.cores, events := t.events, free := t.free } ∧
      FieldsKept s t [R.MXU_BURN_LO.key p 0, R.MXU_BURN_HI.key p 0] ∧
      (c.resumeAt = none → τ - ta < c.rampMax → (t.core p).dummy = (max f (a - (τ - ta) / st)).toNat) ∧
      (c.resumeAt = none → c.rampMax ≤ τ - ta → (t.core p).dummy = (max 0 (f - (τ - ta - c.rampMax) / st)).toNat) ∧
      (∀ u, c.resumeAt = some u → u ≤ τ → (t.core p).dummy = 0) ∧
      (∀ u, c.resumeAt = some u → τ < u → (t.core p).dummy =
        (min a (max (max f (a - (τ - ta) / st)) (a + 1 - (u - τ + st - 1) / st))).toNat))

/-- R71, R304, R449, R453, R463: A group deals again once each of its tree ports is ACTIVE with PEER_DDOWN 0; a check falls due at the end of
each period when CHECK_EN is 1. A joker takes a marked core's logical index between rounds: the map names it there, every seal of its seal
RAM is poisoned, the old core is retired and power-gated with its score at all ones, its contents lost unless it retains them (R129, R130)
or was gated before, and the swap is counted; another marked core of the die then waits when that was the last joker (R464). Flits for the
core that have been checked and not yet written leave tiles written in part (the model's choice, log entry 101). Model's choices, no rule
of the spec: a timer's command lets the clock run to its limit (log entry 24), the check period counts ticks and no table time (log entry
126), CHECK_EN 0 stops every check (log entry 70), and flits on their way to a swapped core (log entry 101). -/
def Obligations.GroupsResumeAndJokersSwap : Prop :=
  (
  ∀ (s : State), s.dealerUp = true →
    (∀ g : Fin 64, (s.group g).abort = none → (∀ q ∈ s.treePorts g, s.portActive q = true ∧ s.portLost q = false) →
      exec (.groupResume g) s = .next (s.onGroup g (fun x => { x with lost := false }))) ∧
    (∃ t, exec .checkDue s = .next t ∧ t.tick = max s.tick (s.marks.checkAt + s.checkPeriod) ∧ t.marks.checkAt = t.tick ∧
      t.flt.due = (s.flt.due || s.on R.FLT_CFG_CHECK_EN) ∧ t.regs = s.regs ∧ t.cores = s.cores ∧
      s.checkPeriod = 1000000000 * (if s.rd R.FLT_CHECK_PERIOD = 0 then 600 else s.rd R.FLT_CHECK_PERIOD))) ∧
  (
  ∀ (s : State) (p : Fin 176) (c l : Nat), s.dealerUp = true → s.jokerOf (p / 11) = some c → s.logicalOf p = some l →
    s.swapDue p = true → s.betweenRounds p = true →
    ∃ t, exec (.jokerSwap p) s = .next t ∧
      t.jmap (p / 11) = { s.jmap (p / 11) with
        phys := (s.jmap (p / 11)).phys.set (l % 10) c, retired := (s.jmap (p / 11)).retired ++ [(p : Nat) % 11],
        jokers := (s.jmap (p / 11)).jokers - 1,
        waits := (s.jmap (p / 11)).waits || (decide ((s.jmap (p / 11)).jokers ≤ 1) && (List.range 11).any (fun k =>
          decide (11 * (p / 11) + k ≠ (p : Nat)) && SMap.get 0 s.flt.marked (11 * (p / 11) + k) != 0 &&
          (t.logicalOf (11 * (p / 11) + k)).isSome)) } ∧
      (∀ a, (t.core (11 * (p / 11) + c)).sealAt a = poisonSeal) ∧
      (t.core (11 * (p / 11) + c)).spm = (s.core (11 * (p / 11) + c)).spm ∧
      (t.core p).region = .gated ∧
      ((s.core p).gatedNow = false → (t.rd R.SPM_STATUS_LOST p = 1 ↔ s.on R.SPM_CTRL_RETAIN p = false ∧ (s.core p).ckptEnd = true)) ∧
      ((s.core p).gatedNow = true → t.rd R.SPM_STATUS_LOST p = s.rd R.SPM_STATUS_LOST p) ∧
      (∀ port < 16, ∀ x ∈ (t.port port).elastic, x.checked = true → (s.route x.flit.route).core = l → x.broken = true) ∧ SMap.get 0 t.flt.health p = 0xFFFFFFFF ∧ SMap.get 0 t.flt.marked p = 0 ∧
      Counted s t R.FLT_CNT_SWAP 0 ∧
      CoresKept s t [(p : Nat), 11 * (p / 11) + c])

/-- R253, R254, R255, R256, R257: A flit is read back from its 288 bytes with every field as it was; its codeword on one, two or four lanes is
read back from the levels by descramblers that stand as the scramblers did, and needs no correction. Model's choices, no rule of the spec:
which power of x a symbol stands for (log entry 97), and the scrambler history is an operand (log entry 83). -/
def Obligations.FlitsRoundTrip : Prop :=
  (∀ f : Flit, f.ty < 8 → f.seq < 2 ^ 16 → f.ack < 2 ^ 16 → f.route < 2 ^ 12 → f.window < 2 ^ 6 → f.offset < 2 ^ 24 → f.sflag < 2 ^ 9 →
    f.sinc < 2 ^ 4 → f.tag < 2 ^ 16 → f.payload.length = 256 → Flit.decode f.encode = some f) ∧
  (∀ (hist : List Nat) (bs : List Byte), hist.length = 1 ∨ hist.length = 2 ∨ hist.length = 4 → (∀ h ∈ hist, h < 2 ^ 58) →
    bs.length = 288 →
    let sent := sendLanes hist (codeword bs)
    receiveLanes hist (sent.map (·.1)) = (codeword bs, sent.map (·.2)) ∧ rsCorrect (codeword bs) = some (codeword bs, []) ∧
      symbolBytes (codeword bs) = bs)

/-- R260, R261, R264, R294, R295: In one flit time a port in RESUME or ACTIVE sends the first of: a flit of its replay; a due control flit; a
beacon that is due; a waiting TRICK flit, with the next sequence number; the flow of its wheel's turn; else an IDLE. Model's choices, no
rule of the spec: flits leave in RESUME too (log entry 57), and the unsequenced flit of every 1,024 leaves during a replay (log entry 98). -/
def Obligations.PortsSend : Prop :=
  ∀ (s : State) (port : Fin 16), s.flows port = true →
    (∀ n ns b, (s.port port).pause = none → (s.port port).quiet < 1023 → (s.port port).toReplay = n :: ns →
      (s.port port).buffer.find? (fun b => b.seq == n) = some b →
      ∃ t, exec (.flitTimeSend port) s = .next t ∧ FlitLeft s t port b.flit ∧ t.regs = s.regs ∧
        (t.port port).buffer = (s.port port).buffer) ∧
    (∀ code arg ds, (s.port port).toReplay = [] → (s.port port).due = (code, arg) :: ds →
      ∃ t, exec (.flitTimeSend port) s = .next t ∧ (t.port port).due = ds ∧ t.regs = s.regs ∧
        FlitLeft s t port { Flit.zero with ty := 7, payload := linkPayload (s.port port).retired code arg none }) ∧
    ((s.port port).toReplay = [] → (s.port port).due = [] → s.rd R.LNK_STATUS_STATE port = 5 →
      s.beaconEvery ≤ s.tick - (s.port port).timeAt →
      ∃ t, exec (.flitTimeSend port) s = .next t ∧ (t.port port).quiet = 0 ∧ (t.port port).timeAt = s.tick ∧ t.regs = s.regs ∧
        FlitLeft s t port { Flit.zero with ty := 6, payload := linkPayload (s.port port).retired 0 0 (some s.beaconNow) }) ∧
    (∀ f fs, s.sendsNew port → (s.port port).tricks = f :: fs →
      ∃ t, exec (.flitTimeSend port) s = .next t ∧ NewFlitLeft s t port f .none ∧ (t.port port).tricks = fs) ∧
    (∀ fl f o fs, s.sendsNew port → (s.port port).tricks = [] → s.wheelFlow port (s.port port).wheel = some fl →
      (s.port port).flow fl = (f, o) :: fs →
      ∃ t, exec (.flitTimeSend port) s = .next t ∧ NewFlitLeft s t port f o ∧ (t.port port).flow fl = fs ∧
        (t.port port).wheel = ((s.port port).wheel + 1) % 64) ∧
    (s.sendsNew port → (s.port port).tricks = [] → s.wheelFlow port (s.port port).wheel = none →
      ∃ t f, exec (.flitTimeSend port) s = .next t ∧ FlitLeft s t port f ∧ f.ty = 0 ∧ (f.ddown = !s.dealerUp) ∧
        (t.port port).quiet = 0 ∧ t.regs = s.regs)

/-- R255, R262, R263, R276, R278, R317: A received flit that decodes and carries the next number is accepted: a TRICK flit goes to the
dealer's trick logic, a DATA flit that its checks let pass into the elastic buffer; with that buffer full it is refused and OVERRUN is
due; the last number again or one further ahead is dropped and sets NAK, an older one is dropped; a word that cannot be corrected, or does
not decode, is counted and sets NAK. Model's choices, no rule of the spec: flits are accepted in RESUME too (log entry 57), the symbol
times are the operand (log entry 83), the power of x of a symbol (log entry 97), and a CTRL flit acts at once (log entry 58). -/
def Obligations.PortsReceive : Prop :=
  ∀ (s : State) (port : Fin 16) (levels : List (List Nat)) (ago : Nat), s.flows port = true →
    let l := s.rd R.LNK_SEQ_RX_LAST port
    (rsCorrect (receiveLanes (s.port port).rxHist levels).1 = none →
      ∃ t, exec (.flitReceive port levels ago) s = .next t ∧ Counted s t R.LNK_CNT_FEC_UNCORR port ∧
        t.rd R.LNK_STATUS_NAK port = 1 ∧ t.rd R.LNK_SEQ_RX_LAST port = l ∧ OnlyDescrambled s t port levels) ∧
    (∀ bs n, s.brings port levels bs n → Flit.decode bs = none →
      ∃ t, exec (.flitReceive port levels ago) s = .next t ∧ Counted s t R.LNK_CNT_CRC port ∧
        t.rd R.LNK_CNT_FEC_CORR port = min (s.rd R.LNK_CNT_FEC_CORR port + n) (2 ^ R.LNK_CNT_FEC_CORR.width - 1) ∧
        t.rd R.LNK_STATUS_NAK port = 1 ∧ t.rd R.LNK_SEQ_RX_LAST port = l ∧ OnlyDescrambled s t port levels) ∧
    (∀ bs n f, s.brings port levels bs n → Flit.decode bs = some f → f.sequenced = true → f.nak = false →
      let d := (f.seq + 65536 - l) % 65536
      (d ≠ 1 → ∃ t, exec (.flitReceive port levels ago) s = .next t ∧ t.rd R.LNK_SEQ_RX_LAST port = l ∧
        t.rd R.LNK_STATUS_NAK port = (if d ≤ 32767 then 1 else s.rd R.LNK_STATUS_NAK port) ∧ Acknowledged s t port f ∧
        t.trickIn = s.trickIn ∧ (t.port port).elastic = (s.port port).elastic) ∧
      (d = 1 → f.ty = 5 → s.dealerUp = true → 1 ≤ (TrickFlit.of f.payload).kind → (TrickFlit.of f.payload).kind ≤ 7 →
        ∃ t, exec (.flitReceive port levels ago) s = .next t ∧ t.rd R.LNK_SEQ_RX_LAST port = f.seq ∧
          t.rd R.LNK_STATUS_NAK port = 0 ∧ Acknowledged s t port f ∧
          t.trickIn = s.trickIn ++ [((port : Nat), TrickFlit.of f.payload)]) ∧
      (d = 1 → f.ty = 1 → (s.route f.route).kind = 2 → s.misroute f = false →
        (∀ x ∈ (s.port port).elastic, x.forward = true ∨ x.checked = true) →
        ∀ a, s.verdict f = .pass a →
          ((s.port port).elastic.length < 256 →
            ∃ t x, exec (.flitReceive port levels ago) s = .next t ∧ t.rd R.LNK_SEQ_RX_LAST port = f.seq ∧
              t.rd R.LNK_STATUS_NAK port = 0 ∧ Acknowledged s t port f ∧ (t.port port).elastic = (s.port port).elastic ++ [x] ∧
              x.flit = f ∧ x.addr = a ∧ x.checked = true ∧ x.forward = false ∧ t.cores = s.cores) ∧
          (256 ≤ (s.port port).elastic.length →
            ∃ t, exec (.flitReceive port levels ago) s = .next t ∧ t.rd R.LNK_SEQ_RX_LAST port = l ∧
              t.rd R.LNK_STATUS_NAK port = 1 ∧ Counted s t R.LNK_CNT_OVERRUN port ∧ Acknowledged s t port f ∧
              (t.port port).due = (s.port port).due ++ [(1, l)] ∧ (t.port port).elastic = (s.port port).elastic)))

/-- R266, R267, R268, R272, R278: An acknowledgement that does not come in ACK_TIMEOUT replays every flit after the last acknowledged one and
counts the first of them; an OVERRUN pauses the port until the backoff of LNK_CFG has passed and then replays without counting.
REDEAL_REQ, the loss of the signal of an active lane, the peer's training pattern and the host's REDEAL re-deal a port that sends and
receives; a third re-deal within 100 ms declares LINK_DOWN instead. Model's choices, no rule of the spec: a timer's command lets the clock
run to its limit (log entry 24), the start of the ACK_TIMEOUT timer (log entry 23), and replays in RESUME too (log entry 57). -/
def Obligations.ReplaysAndRedeals : Prop :=
  (
  ∀ (s : State) (port : Fin 16), s.flows port = true →
    (∀ b bs, (s.port port).pause = none →
      (s.port port).buffer.filter (fun x => !seqLe x.seq (s.port port).lastAck) = b :: bs → b.count < 8 →
      let lim := 100 * (if s.rd R.LNK_CFG_ACK_TIMEOUT port = 0 then 30 else s.rd R.LNK_CFG_ACK_TIMEOUT port)
      ∃ t, exec (.ackTimeout port) s = .next t ∧ t.tick = max s.tick ((s.port port).ackAt + lim) ∧
        (t.port port).replay = some ⟨(s.port port).lastAck, (b :: bs).map (·.seq), t.tick⟩ ∧ Counted s t R.LNK_CNT_REPLAY port ∧
        (∀ x ∈ (t.port port).buffer, x.seq = b.seq → ∃ y ∈ (s.port port).buffer, y.seq = b.seq ∧ x.count = y.count + 1)) ∧
    (∀ last : Fin 65536, ∃ t, exec (.overrunReceive port last) s = .next t ∧ (t.port port).replay = none ∧
        (t.port port).pause = some (s.tick, (last : Nat)) ∧
        (t.port port).buffer = (s.port port).buffer ∧ t.regs = s.regs) ∧
    (∀ u v b bs, (s.port port).pause = some (u, v) → (s.port port).buffer.filter (fun x => !seqLe x.seq v) = b :: bs →
      let back := if s.rd R.LNK_CFG_OVR_BACKOFF port = 0 then 32 else s.rd R.LNK_CFG_OVR_BACKOFF port
      ∃ t, exec (.overrunBackoffExpire port) s = .next t ∧ t.tick = max s.tick (u + (8 * back * s.flitTime port + 99) / 100) ∧ (t.port port).pause = none ∧
        (t.port port).replay = some ⟨v, (b :: bs).map (·.seq), t.tick⟩ ∧ (t.port port).buffer = (s.port port).buffer ∧
        t.regs = s.regs)) ∧
  (
  ∀ (s : State) (port : Fin 16) (c : Instr) (cause : Nat), s.flows port = true →
    (c = .redealReq port ∧ cause = 3) ∨ (∃ lane : Fin 4, c = .linkSignalLoss port lane ∧ (lane : Nat) ∈ s.lanes port ∧ cause = 2) ∨
      (c = .peerTrainingSeen port ∧ cause = 4) ∨
      (c = .lnkRedeal port ∧ cause = 5 ∧ s.reachable .lnk port ∧ s.portAbsent port = false) →
    ((∀ u, (s.port port).starts[1]? = some u → 100000000 ≤ s.tick - u) → ∃ t, exec c s = .next t ∧ Redealt s t port cause) ∧
    (∀ u, (s.port port).starts[1]? = some u → s.tick - u < 100000000 → ∃ t, exec c s = .next t ∧ LinkLost t port))

/-- R269, R270, R271, R272: Training goes from QUIET over DETECT, EQUALIZE, CONFIG and RESUME to ACTIVE, each entered when the one before it
is done; EQUALIZE takes the rate and the lanes that pass with no more errors than LNK_TRAIN_MAX_ERR, RESUME ends once both ends have
accepted a flit, a fresh CONFIG starts the sequence numbers anew; a state that outlasts its timer fails, which declares LINK_DOWN in a
re-deal and begins again otherwise; TRAIN begins from QUIET or DOWN. Model's choices, no rule of the spec: a timer's command lets the
clock run to its limit (log entry 24), which timers the states have (log entry 63), the flit that RESUME waits for (log entry 99), lanes
that pass at a higher rate only (log entry 131), what a fresh start keeps (log entry 61), and which journal entries a lost link appends
(log entry 65). -/
def Obligations.TrainingAdvances : Prop :=
  ∀ (s : State) (port : Fin 16) (r : TrainReport), s.linkLive = true → s.portAbsent port = false →
    (s.reachable .lnk port → s.rd R.LNK_STATUS_STATE port = 0 ∨ s.rd R.LNK_STATUS_STATE port = 6 →
      ∃ t, exec (.lnkTrain port) s = .next t ∧ t.rd R.LNK_STATUS_STATE port = 0 ∧ (t.port port).train = true ∧
        (t.port port).redeal = false ∧ (t.port port).since = s.tick ∧ (t.port port).maxRate = s.rd R.LNK_CFG_MAX_RATE port ∧
        (t.port port).laneMask = s.rd R.LNK_CFG_LANE_MASK port ∧ FieldsKept s t [R.LNK_STATUS_STATE.key port 0]) ∧
    ((s.port port).train = true →
      (s.rd R.LNK_STATUS_STATE port = 0 → ∃ t, exec (.trainingStateDone port r) s = .next t ∧
        t.rd R.LNK_STATUS_STATE port = 1 ∧ t.tick = max s.tick ((s.port port).since + 2000)) ∧
      (s.rd R.LNK_STATUS_STATE port = 1 → r.found = true → ∃ t, exec (.trainingStateDone port r) s = .next t ∧
        t.rd R.LNK_STATUS_STATE port = 2 ∧ (t.port port).since = s.tick) ∧
      (s.rd R.LNK_STATUS_STATE port = 2 → ∀ code ls,
        chooseLanes (fun c => (List.range 4).filter (fun n =>
            bitOf (match c with | 0 => r.pass400 | 1 => r.pass200 | _ => r.pass100).toNat n &&
            bitOf (if (s.port port).laneMask = 0 then 15 else (s.port port).laneMask) n &&
            ((r.errors[4 * c + n]?).map (fun e => decide (e ≤ s.rd R.LNK_TRAIN_MAX_ERR port))).getD false))
          (if (s.port port).maxRate = 3 then 0 else (s.port port).maxRate) = some (code, ls) →
        ∃ t, exec (.trainingStateDone port r) s = .next t ∧ t.rd R.LNK_STATUS_STATE port = 3 ∧
          t.rd R.LNK_STATUS_RATE port = code % 4 ∧ t.rd R.LNK_STATUS_LANES port = laneBits ls % 16) ∧
      (s.rd R.LNK_STATUS_STATE port = 3 → (s.port port).redeal = false → (s.port port).fresh = true →
        ∃ t, exec (.trainingStateDone port r) s = .next t ∧ t.rd R.LNK_STATUS_STATE port = 4 ∧
          t.rd R.LNK_PEER_CHIP_ID port = r.chip.toNat ∧ t.rd R.LNK_PEER_PORT port = r.port.toNat ∧
          t.rd R.LNK_RTT port = r.rtt.toNat / 16 ∧ (t.port port).rtt16 = r.rtt.toNat ∧ t.rd R.LNK_SEQ_TX_NEXT port = 0 ∧ t.rd R.LNK_SEQ_RX_LAST port = 0xFFFF ∧
          (t.port port).buffer = [] ∧ (t.port port).sent = [] ∧ (t.port port).fresh = false) ∧
      (s.rd R.LNK_STATUS_STATE port = 4 → (s.port port).heard = true → r.heard = true →
        ∃ t, exec (.trainingStateDone port r) s = .next t ∧ t.rd R.LNK_STATUS_STATE port = 5 ∧ (t.port port).down = false ∧ (t.port port).redeal = false) ∧
      (∀ lim, trainLimit (s.rd R.LNK_STATUS_STATE port) (s.port port).redeal = some lim →
        ∃ t, exec (.trainingTimeout port) s = .next t ∧ max s.tick ((s.port port).since + lim) ≤ t.tick ∧
          ((s.port port).redeal = true → LinkLost t port) ∧
          ((s.port port).redeal = false → t.rd R.LNK_STATUS_STATE port = 0 ∧ t.rd R.LNK_REDEAL_INFO_CAUSE port = 6 ∧
            t.rd R.LNK_REDEAL_INFO_FAILED port = 1 ∧ (t.port port).train = true)))

/-- R209, R276, R277, R286, R293: The oldest flit for delivery of a port, its checks passed, is written into its core's scratchpad with the
seal of a DATA_LAST; a signal adds its increment to the flag; a wait for a hand tag of 100 µs makes a flit stale; a flit to forward enters
the flow of its output port with the next route. The oldest flit of a port that goes on to another port enters the flow of that port with
its next route, and this port keeps its retirement until the far end has reported it. Model's choices, no rule of the spec: a timer's
command lets the clock run to its limit (log entry 24), the order of tag check and window check (log entry 59), and a flit of a swapped
core (log entry 101). -/
def Obligations.ElasticHeadsLeave : Prop :=
  (
  ∀ (s : State) (port : Fin 16) (i part : Nat) (x : Elastic), s.linkLive = true → s.elasticHead port = some (i, x) →
    s.partOf (s.route x.flit.route).core = some part →
    (x.checked = true → x.written = false → (s.route x.flit.route).kind = 2 → x.flit.ty = 1 ∨ x.flit.ty = 2 →
      s.rowsFree part 15 true x.addr x.flit.payload.length →
      ∃ t, exec (.linkReceiveWrite port) s = .next t ∧ CoresKept s t [part] ∧
        (t.core part).spm = SMap.setRun 0#8 (s.core part).spm x.addr x.flit.payload ∧
        (x.flit.ty = 2 → x.broken = false → (t.core part).sealAt (x.addr / 4096 * 4096) = x.flit.carry) ∧
        (x.broken = true → (t.core part).sealAt (x.addr / 4096 * 4096) =
          unsealed (sealPoison ((s.core part).sealAt (x.addr / 4096 * 4096)))) ∧
        (x.flit.ty = 1 ∨ x.flit.sinc = 0 → (t.port port).elastic = (s.port port).elastic.eraseIdx i) ∧
        (x.flit.ty = 2 → x.flit.sinc ≠ 0 → (t.port port).elastic = (s.port port).elastic.set i { x with written := true })) ∧
    (x.checked = true → (s.route x.flit.route).kind = 2 → x.flit.ty = 3 ∨ x.written = true →
      ∃ t, exec (.remoteSignalApply port) s = .next t ∧ CoresKept s t [part] ∧
        (t.core part).flag x.flit.sflag = ((s.core part).flag x.flit.sflag + x.flit.sinc) % 65536 ∧
        { t.core part with flags := [] } = { s.core part with flags := [] } ∧
        (t.port port).elastic = (s.port port).elastic.eraseIdx i) ∧
    (x.checked = false → s.verdict x.flit = .wait →
      ∃ t, exec (.staleWaitExpire port) s = .next t ∧ t.tick = max s.tick ((s.port port).headAt + 100000) ∧
        Counted s t R.LNK_CNT_STALE port ∧ t.cores = s.cores ∧ (t.port port).elastic.length + 1 = (s.port port).elastic.length)) ∧
  (
  ∀ (s : State) (port : Fin 16) (i : Nat) (x : Elastic), (s.port port).elastic.findIdx? (fun e => e.forward) = some i →
    (s.port port).elastic[i]? = some x →
    let r := s.route x.flit.route
    s.flows r.port = true → (s.port r.port).hasRoom r.flow = true →
    ∃ t, exec (.flitForward port) s = .next t ∧ (t.port port).elastic = (s.port port).elastic.eraseIdx i ∧
      (t.port r.port).flow r.flow = (s.port r.port).flow r.flow ++
        [({ x.flit with route := r.next }, if x.live then Owner.fwd port x.flit.seq else Owner.none)] ∧
      t = { s with ports := t.ports })

/-- R207, R208, R289, R290: A fetch responder reads the tiles of the oldest FETCH it has taken and places their 16 flits each on the return
route, the seal of each in its DATA_LAST; a returned flit is written where the LFETCH of its tag wants it, the seal with the last of a
tile, and one whose LFETCH is gone is dropped and counted as stale. Model's choices, no rule of the spec: a FETCH is served in one event
(log entry 60), and the fault of its responder (log entry 93). -/
def Obligations.FetchesServed : Prop :=
  ∀ (s : State),
    (∀ (p : Fin 176) r rs, s.linkLive = true → SMap.get [] s.responders p = r :: rs → (s.core p).spmErr = [] →
      (∀ j < r.tiles, s.rowsFree p 5 false (r.addr + 4096 * j) 4096) →
      let x := s.route r.route
      ∃ (t : State) (l : List Flit), exec (.fetchServe p) s = .next t ∧ SMap.get [] t.responders p = rs ∧ l.length = 16 * r.tiles ∧
        (t.port x.port).flow x.flow = (s.port x.port).flow x.flow ++ l.map (fun f => (f, Owner.none)) ∧
        t.cores = s.cores ∧ t.regs = s.regs ∧
        (∀ j < r.tiles, ∀ i < 16, l[16 * j + i]? = some { Flit.zero with
          ty := if i = 15 then 2 else 1, route := x.next, window := r.tag, offset := 64 * j + 4 * i, tag := r.hand,
          payload := (s.core p).spmRead (r.addr + 4096 * j + 256 * i) 256,
          carry := if i = 15 then (s.core p).sealAt (r.addr + 4096 * j) else Flit.zero.carry })) ∧
    (∀ (port : Fin 16) i x part, s.linkLive = true → s.elasticHead port = some (i, x) → x.checked = true →
      (s.route x.flit.route).kind = 3 → s.partOf (s.route x.flit.route).core = some part →
      (((s.core part).engine 5).exec.find? (fun y => y.word.op == some .lfetch && y.remote == x.flit.window) = none →
        ∃ t, exec (.fetchReturn port) s = .next t ∧ Counted s t R.LNK_CNT_STALE port ∧ t.cores = s.cores ∧
          (t.port port).elastic = (s.port port).elastic.eraseIdx i) ∧
      (∀ y, ((s.core part).engine 5).exec.find? (fun y => y.word.op == some .lfetch && y.remote == x.flit.window) = some y →
        (y.slots.getD 1 AdgSlot.zero).queue = false → x.flit.ty = 1 ∨ x.flit.ty = 2 →
        let tile := (y.slots.getD 1 AdgSlot.zero).addr 4096 (x.flit.offset / 64)
        let a := tile + 256 * (x.flit.offset % 64 / 4)
        s.rowsFree part 15 true a x.flit.payload.length → accessOk s (s.core part) .spm true a 256 = true →
        ∃ t, exec (.fetchReturn port) s = .next t ∧ CoresKept s t [part] ∧
          (t.core part).spm = SMap.setRun 0#8 (s.core part).spm a x.flit.payload ∧
          (x.flit.ty = 2 → y.word.verify = false → (s.core part).st ≠ .faulted → (t.core part).sealAt tile = x.flit.carry) ∧
          (t.port port).elastic = (s.port port).elastic.eraseIdx i))

/-- R340, R347, R348, R349, R352: The oldest partner flit is handled by the row of its kind. A COMPARE that meets this package's own of the
same dealing is counted when the values are equal and the checkpoint stands; unequal values are a mismatch, which holds dealing with both
values kept. One that comes early is kept. RECORDs of one instruction are matched; a differing pair is the divergence, which comes before
a COMPARE. SEARCH begins the search. What the bits of XPK_CTRL do: CLEAR ends the withdrawn state and ABORT_HELD; SEARCH, after a
mismatch, sends SEARCH on the partner port and begins the search; RESUME lets dealing go on without one; a hold by another package's ABORT
ends with either. Model's choices, no rule of the spec: the checkpoint of a compared dealing stands at the match or at XPK_RESUME (log
entry 22), what STATE shows of several groups (log entry 119), and the journal entry of a mismatch (log entry 65). -/
def Obligations.PartnerModeCompares : Prop :=
  (
  ∀ (s : State) (f : PartnerFlit) (fs : List PartnerFlit), s.dealerUp = true → s.partnerIn = f :: fs →
    (f.kind = 1 → s.partner.differs = true → s.rd R.PLN_IMAGE_STATE ≠ 2 → ∃ t, exec .partnerCompare s = .next t ∧ t.partnerIn = fs ∧
      t.rd R.XPK_DIV_WHERE_VALID = 1 ∧ t.rd R.XPK_PSTATUS_STATE = 5 ∧ t.partner.held = true ∧ t.partner.search = false) ∧
    (f.kind = 1 → s.partner.differs = false → ∀ mine,
      s.partner.waiting.find? (fun x => x.group == f.group && x.handId == f.handId && x.deal == f.deal) = some mine →
      (mine.value = f.value → ∃ t, exec .partnerCompare s = .next t ∧ t.partnerIn = fs ∧ Counted s t R.XPK_CNT_COMPARE 0 ∧
        (s.partner.search = true ∧ s.partner.bad = some mine.group → t.rd R.XPK_PSTATUS_STATE = 6) ∧
        (¬(s.partner.search = true ∧ s.partner.bad = some mine.group) → s.showsComparing t) ∧
        (∀ x ∈ t.partner.waiting, x.group ≠ mine.group) ∧ (t.group mine.group).round = [] ∧ (t.group mine.group).returns = 0 ∧
        (t.group mine.group).digest = s.digest mine.group ∧ t.cores = s.cores ∧
        FieldsKept s t [R.XPK_CNT_COMPARE.key 0 0, R.XPK_PSTATUS_STATE.key 0 0]) ∧
      (mine.value ≠ f.value → ∃ t, exec .partnerCompare s = .next t ∧ t.partnerIn = fs ∧ Counted s t R.XPK_CNT_MISMATCH 0 ∧
        t.rd R.XPK_PSTATUS_STATE = 3 ∧ t.holds R.XPK_PSTATUS_GROUP mine.group ∧
        t.holdsPair R.XPK_MINE_LO R.XPK_MINE_HI mine.value ∧ t.holdsPair R.XPK_THEIRS_LO R.XPK_THEIRS_HI f.value ∧
        t.partner.held = true ∧ t.partner.bad = some mine.group ∧ EventsStand s t .xpk 0 1 0x0801 ∧ t.cores = s.cores)) ∧
    (f.kind = 1 → s.partner.differs = false → s.partner.waiting.find? (fun x => x.group == f.group && x.handId == f.handId && x.deal == f.deal) = none →
      ∃ t, exec .partnerCompare s = .next t ∧ t = { s with partnerIn := fs, partner := t.partner } ∧ f ∈ t.partner.early ∧
        t.partner.waiting = s.partner.waiting) ∧
    (f.kind = 2 → s.partner.search = true →
      (∀ a, s.partner.mine = [a] → s.partner.theirs = [] → a.same f = true →
        (a.value = f.value → ∃ t, exec .partnerRecord s = .next t ∧ t = { s with partnerIn := fs, partner := t.partner } ∧
          t.partner = { s.partner with mine := [], theirs := [] }) ∧
        (a.value ≠ f.value → s.rd R.PLN_IMAGE_STATE ≠ 2 → ∃ t, exec .partnerRecord s = .next t ∧ t.partnerIn = fs ∧ t.rd R.XPK_DIV_WHERE_VALID = 1 ∧
          t.holds R.XPK_DIV_WHERE_CORE a.core ∧ t.holds R.XPK_DIV_WHERE_ENGINE a.engine ∧ t.holds R.XPK_DIV_INDEX a.index ∧
          t.holds R.XPK_DIV_PC a.pc ∧ t.holds R.XPK_DIV_HAND a.handId ∧ t.holds R.XPK_DIV_DEAL a.deal ∧
          t.rd R.XPK_PSTATUS_STATE = 5 ∧ t.partner.held = true ∧ t.partner.search = false)) ∧
      ((∀ a ∈ s.partner.mine, ∀ b ∈ s.partner.theirs ++ [f], a.same b = false) →
        exec .partnerRecord s =
          .next { s with partnerIn := fs, partner := { s.partner with theirs := s.partner.theirs ++ [f] } })) ∧
    (f.kind = 3 → s.rd R.PLN_IMAGE_STATE ≠ 2 → ∃ t, exec .partnerSearch s = .next t ∧ t.partnerIn = fs ∧ t.rd R.XPK_PSTATUS_STATE = 4 ∧
      t.partner.search = true ∧ t.partner.bad = some f.group ∧ t.partner.held = false ∧
      ((s.group f.group).abort = none → (s.group f.group).busy = false → s.returnsAlone f.group → AtCheckpoint s t f.group ∧ t.cores = s.cores)) ∧
    (∀ c k, (c, k) ∈ [(Instr.partnerCompare, 1), (.partnerSearch, 3)] → f.kind ≠ k → exec c s = .next s)) ∧
  (
  ∀ (s : State), s.reachable .xpk 0 →
    (∃ t, exec .xpkClear s = .next t ∧ t = { s with regs := t.regs } ∧ t.rd R.XPK_LOAD_ABORT_HELD = 0 ∧
      t.rd R.XPK_LOAD_STATE = (if s.rd R.XPK_LOAD_STATE = 3 then 0 else s.rd R.XPK_LOAD_STATE) ∧
      FieldsKept s t [R.XPK_LOAD_ABORT_HELD.key 0 0, R.XPK_LOAD_STATE.key 0 0]) ∧
    (∀ g, s.partner.held = true → s.partner.bad = some g → s.rd R.XPK_PSTATUS_STATE ≠ 5 → s.rd R.PLN_IMAGE_STATE ≠ 2 →
      (∃ t f rest, exec .xpkSearch s = .next t ∧ t.rd R.XPK_PSTATUS_STATE = 4 ∧ t.partner.search = true ∧ t.partner.held = false ∧
        t.partner.bad = some g ∧ f.kind = 3 ∧ f.group = g ∧
        (t.port (s.rd R.XPK_PCFG_PORT)).tricks = (s.port (s.rd R.XPK_PCFG_PORT)).tricks ++ PartnerFlit.flit f :: rest ∧
        ((s.group g).abort = none → (s.group g).busy = false → s.returnsAlone g → AtCheckpoint s t g ∧ t.cores = s.cores)) ∧
      (∃ t, exec .xpkResume s = .next t ∧
        t.rd R.XPK_PSTATUS_STATE = (if s.rd R.XPK_PCFG_EN = 1 then (if s.partner.waiting = [] then 1 else 2) else 0) ∧ t.partner.held = false ∧ t.partner.bad = none ∧
        t.partner.search = false ∧ (t.group g).round = [] ∧ (t.group g).returns = 0 ∧ t.cores = s.cores ∧
        FieldsKept s t [R.XPK_PSTATUS_STATE.key 0 0])) ∧
    (s.partner.held = true → s.partner.bad = none →
      exec .xpkSearch s = .next { s with partner := { s.partner with held := false } } ∧
      ∃ t, exec .xpkResume s = .next t ∧ t.partner.held = false ∧ t.groups = s.groups ∧ t.cores = s.cores) ∧
    (s.partner.held = false → exec .xpkSearch s = .next s ∧ exec .xpkResume s = .next s))

/-- R305, R308, R309, R312: The oldest beacon of the followed port not yet used sets TIM_OFFSET from its stamp and corrects the rate within
SLEW_PPM, or asks for a step above STEP_NS; LOCKED is entered after 1 ms within LOCK_NS; a port that is lost, or whose package is in no
tree, gives way to the other one, or to HOLDOVER; a followed port in HOLDOVER takes the package into it, which then reports one STRATUM
more. All of it goes on while the dealer is down. Model's choices, no rule of the spec: a timer's command lets the clock run to its limit
(log entry 24), offsets are not filtered (log entry 27), and a package in ACQUIRE that loses its port stays there, one of STRATUM 255
being no parent (log entry 26). -/
def Obligations.TimeFollowsBeacons : Prop :=
  ∀ (s : State) (ppm : Nat), s.linkLive = true →
    let port := s.rd R.TIM_STATUS_PORT
    let st := s.rd R.TIM_STATUS_STATE
    (∀ b bs, st = 1 ∨ st = 2 ∨ st = 3 → s.rd R.TIM_STATUS_ALT = 0 → s.portActive port = true → s.timing.beacons = (port, b) :: bs →
      (b.stratum ≠ 255 ∨ st = 1 → b.state ≠ 3 →
        let e := s.offsetOf port b
        ∃ t, exec (.beacon ppm) s = .next t ∧ t.rd R.TIM_OFFSET = (e % 4294967296).toNat ∧ t.timing.beacons = bs ∧
          t.rd R.TIM_STATUS_STATE = st ∧ t.time = s.time ∧ t.tick = s.tick ∧ t.cores = s.cores ∧
          (st = 2 ∨ st = 3 → t.rd R.TIM_STATUS_STRATUM = min 255 (b.stratum + 1)) ∧
          (16 * s.stepNs < e.natAbs → t.timing.step = some (.by (e / 16)) ∧ t.rd R.TIM_STATUS_STEP_PENDING = 1) ∧
          (e.natAbs ≤ 16 * s.stepNs → t.timing.step = s.timing.step ∧ t.timing.slew.natAbs ≤ s.slewPpm ∧
            (0 < t.timing.slew → 0 < e) ∧ (t.timing.slew < 0 → e < 0) ∧
            (e.natAbs ≤ 16 * s.lockNs ↔ t.timing.inLimit.isSome = true))) ∧
      (st ≠ 3 → b.stratum ≠ 255 ∨ st = 1 → b.state = 3 →
        ∃ t, exec (.beacon ppm) s = .next t ∧ t.rd R.TIM_STATUS_STATE = 3 ∧ t.rd R.TIM_STATUS_HOLDOVER_SEEN = 1 ∧
          t.rd R.TIM_STATUS_STRATUM = min 255 (b.stratum + 1) ∧ Counted s t R.TIM_CNT_HOLDOVER 0 ∧ t.timing.beacons = bs ∧ t.cores = s.cores) ∧
      (st = 2 → b.stratum = 255 → s.rd R.TIM_CFG_ALT_VALID = 0 →
        ∃ t, exec (.beacon ppm) s = .next t ∧ t.rd R.TIM_STATUS_STATE = 3 ∧ t.rd R.TIM_STATUS_HOLDOVER_SEEN = 1 ∧
          Counted s t R.TIM_CNT_HOLDOVER 0 ∧ t.timing.beacons = bs ∧ t.timing.slew = s.timing.slew ∧ t.cores = s.cores)) ∧
    (∀ u, s.timing.inLimit = some u → st = 1 ∨ st = 3 → s.portActive port = true → (s.port port).peerTime ≠ 3 →
      (s.port port).stratum < 255 →
      ∃ t, exec .timeLock s = .next t ∧ RanTo s t (u + 1000000) ∧ t.rd R.TIM_STATUS_STATE = 2 ∧
        t.rd R.TIM_STATUS_STRATUM = (s.port port).stratum + 1 ∧ t.cores = s.cores ∧ t.ports = s.ports) ∧
    (st = 1 ∨ st = 2 ∨ st = 3 → s.rd R.TIM_STATUS_ALT = 0 →
      (s.rd R.TIM_CFG_ALT_VALID = 1 → s.beaconsLost.followable (s.rd R.TIM_CFG_ALT_PORT) = true →
        ∃ t, exec .beaconLoss s = .next t ∧ t.tick = s.beaconsLost.tick ∧ t.rd R.TIM_STATUS_ALT = 1 ∧
          t.holds R.TIM_STATUS_PORT (s.rd R.TIM_CFG_ALT_PORT) ∧ t.rd R.TIM_STATUS_STATE = st ∧ Counted s t R.TIM_CNT_SWITCH 0 ∧
          t.cores = s.cores) ∧
      (s.rd R.TIM_CFG_ALT_VALID = 0 → st = 2 →
        ∃ t, exec .beaconLoss s = .next t ∧ t.tick = s.beaconsLost.tick ∧ t.rd R.TIM_STATUS_STATE = 3 ∧
          t.rd R.TIM_STATUS_HOLDOVER_SEEN = 1 ∧ Counted s t R.TIM_CNT_HOLDOVER 0 ∧ t.cores = s.cores ∧ t.ports = s.ports))

/-- R303, R310, R311, R314, R327, R542: A step waits for the deal times given out, then sets TABLE_TIME and delivers those held back; a die's
copy takes it at its next mark; STEP and the pulse edge, which ask for a step, act at the root only; RELOCK goes back to ACQUIRE; a retune
ends by the PLLs exchanging roles; without SYSREF the internal oscillator runs. Model's choices, no rule of the spec: a timer's command
lets the clock run to its limit (log entry 24), a pulse edge marks the nearest second (log entry 28), when EXT_10M fails (log entry 139),
TABLE_TIME without SYSREF (log entry 25), and the error of a woken die's copy (log entry 30). -/
def Obligations.TimeStepsAndClocks : Prop :=
  ∀ (s : State), s.linkLive = true →
    (∀ r, s.timing.step = some r → s.dealTimePending = false →
      ∃ t, exec .timeStepApply s = .next t ∧ t.time = r.apply s.time ∧ Counted s t R.TIM_CNT_STEP 0 ∧
        t.rd R.TIM_STATUS_STEPPED = 1 ∧ t.rd R.TIM_STATUS_STEP_PENDING = 0 ∧ t.timing.step = none ∧ t.timing.held = [] ∧
        (∀ d < 24, (t.die d).owed = (s.die d).owed + ((r.apply s.time : Int) - s.time) ∧ t.dieTime d = s.dieTime d) ∧
        (s.timing.held = [] → t.cores = s.cores ∧ t.groups = s.groups) ∧
        (∀ g tm d, s.up = true → s.timing.held = [(g, tm)] → (s.group g).dealing = some d →
          ∀ p ∈ d.parts, (t.core p).resumeAt =
            if (s.core p).awaits then some ((tm : Int) - (t.die (p / 11)).owed) else (s.core p).resumeAt)) ∧
    (s.dealTimePending = true → exec .timeStepApply s = .next s) ∧
    (∀ die : Fin 25, s.awake die = true → (die : Nat) ≠ 24 → ((die : Nat) < 16 → (s.die die).tested = true) →
      ∃ t, exec (.timeMark die) s = .next t ∧ t.dieTime die = s.time % 2 ^ 64 ∧ (t.die die).isLocal = false ∧ (t.die die).owed = 0 ∧
        t.regs = s.regs ∧ t.time = s.time ∧
        ∀ p, t.core p = if p / 11 = (die : Nat) then { s.core p with
            resumeAt := (s.core p).resumeAt.map (· + (s.die die).owed), arrivedAt := (s.core p).arrivedAt.map (· + ((s.die die).owed - (s.die die).offset)) }
          else s.core p) ∧
    (s.reachable .tim 0 →
      (s.rd R.TIM_STATUS_STATE = 4 → s.rd R.TIM_CFG_EXT_EN = 0 →
        ∃ t, exec .timStep s = .next t ∧ t.timing.step = some (.to (s.rd R.TIM_SET_LO + 2 ^ 32 * s.rd R.TIM_SET_HI)) ∧
          t.rd R.TIM_STATUS_STEP_PENDING = 1 ∧ FieldsKept s t [R.TIM_STATUS_STEP_PENDING.key 0 0] ∧ t.time = s.time) ∧
      (s.rd R.TIM_STATUS_STATE ≠ 4 → exec .timStep s = .next s) ∧
      (s.rd R.TIM_STATUS_STATE = 2 ∨ s.rd R.TIM_STATUS_STATE = 3 →
        ∃ t, exec .timRelock s = .next t ∧ t.rd R.TIM_STATUS_STATE = 1 ∧ t.rd R.TIM_STATUS_STRATUM = 255 ∧
          t = { s with regs := t.regs, timing := t.timing } ∧
          FieldsKept s t [R.TIM_STATUS_STATE.key 0 0, R.TIM_STATUS_STRATUM.key 0 0])) ∧
    (s.rd R.TIM_STATUS_STATE = 4 → s.rd R.TIM_CFG_EXT_EN = 1 →
      (∃ t, exec .ppsEdge s = .next t ∧ t.marks.extAt = s.tick ∧
        t.time = s.time ∧ t.cores = s.cores ∧
        (s.timing.atEdge = true → t.timing.atEdge = false ∧
          t.timing.step = some (.by ((s.rd R.TIM_SET_LO + 2 ^ 32 * s.rd R.TIM_SET_HI : Nat) - (s.time : Int)))) ∧
        (s.timing.atEdge = false →
          let near := (s.time + 500000000) / 1000000000 * 1000000000
          t.timing.step = if s.rd R.TIM_STATUS_PPS_LOST = 1 ∨ s.timing.step.isSome ∨ near = s.time then s.timing.step
            else some (.by ((near : Int) - s.time)))) ∧
      (∃ t u, exec .extRefLoss s = .next t ∧ max s.tick (s.marks.extFrom + 2000000000) ≤ u ∧
        u ≤ max (max s.tick (s.marks.extFrom + 2000000000)) (s.marks.extAt + 2000000000) ∧ RanTo s t u ∧ t.rd R.TIM_STATUS_PPS_LOST = 1 ∧
        FieldsKept s t [R.TIM_STATUS_PPS_LOST.key 0 0] ∧ t.cores = s.cores)) ∧
    (∀ (die : Fin 16) (stop : Fin 17), s.rd R.CLK_STATUS_RETUNING die = 1 →
      ∃ t, exec (.freqSwitch die stop) s = .next t ∧ t = { s with regs := t.regs } ∧
        t.holds R.CLK_STATUS_FREQ (s.rd R.CLK_STATUS_TARGET die) die ∧ t.holds R.CLK_STATUS_PLL (1 - s.rd R.CLK_STATUS_PLL die) die ∧
        t.rd R.CLK_STATUS_RETUNING die = 0 ∧ Counted s t R.CLK_SWITCHES die ∧
        t.holds R.CLK_MAX_STOP (max (s.rd R.CLK_MAX_STOP die) stop) die ∧ t.rd R.CLK_STATUS_TARGET die = s.rd R.CLK_STATUS_TARGET die) ∧
    exec .sysrefLoss s = .next { s with osc := true } ∧ exec .sysrefReturn s = .next { s with osc := false }

/-- R419, R420, R421, R422, R423, R425, R426, R431, R432, R433: A power tick puts the energy of the events counted and of its static terms
into the account of the last WINDOW, or in drift mode the measured power, derives the energy used from it, and gives every busy core a
pacing target of 1 to 16 and every other the unpaced level; a reading of 115 °C trips the package. At the end of a measurement period
every named regulator is sent READ_PIN; the period ends with POWER_EST, and with the sum of the regulators' answers in POWER_MEAS; a
failed read is counted and leaves no measurement; CLEAR_DRIFT ends DRIFT, and BID_RESET empties the bid table. Model's choices, no rule of
the spec: a timer's command lets the clock run to its limit (log entry 24), the measurement of a period is used in the next (log entry
104), the pace of a core without dynamic power (log entry 29), dummy cycles at an index of their own (log entry 75), and what counts as a
failed reply (log entry 136). -/
def Obligations.PowerIsAccounted : Prop :=
  (
  ∀ (s : State) (r : PowerReport), s.linkLive = true →
    let s1 := (List.range 176).foldl State.burned (s.waitUntil (s.marks.powerAt + 10000))
    let measured := ((s.power.measW : Rat) * 10000000000 * s1.elapsed).floor.toNat
    ∃ t e, exec (.powerTick r) s = .next t ∧ RanTo s t (s.marks.powerAt + 10000) ∧ t.marks.powerAt = t.tick ∧
      e = (if s.rd R.PWR_STATUS_DRIFT = 1 then (if s.rd R.PWR_STATUS_MEAS_LOST = 1 then max s1.tickE measured else measured) else s1.tickE) ∧
      t.power.hist = (t.tick, e) :: s.power.hist.filter (fun x => decide (t.tick < x.1 + 10000000000)) ∧ t.events = [] ∧
      t.holdsPair R.PWR_USED_LO R.PWR_USED_HI
        (((t.power.hist.filter (fun x => decide (t.tick < x.1 + 10000 * s.windowTicks))).map (·.2)).sum / 1000000000000) ∧
      (∀ p < 176, p ∉ t.busy → (t.core p).paceGoal = 16) ∧ (∀ p ∈ t.busy, 1 ≤ (t.core p).paceGoal ∧ (t.core p).paceGoal ≤ 16) ∧
      (∀ p, { t.core p with paceGoal := 0, deepTicks := 0 } = { s.core p with paceGoal := 0, deepTicks := 0 }) ∧
      (∀ d < 16, t.clocked d) ∧
      ((∃ x ∈ r.temps, 115 ≤ x.2) → t.pkg = .tripped ∧ t.rd R.PWR_STATUS_TRIPPED = 1) ∧
      ((∀ x ∈ r.temps, x.2 < 115) → t.pkg = s.pkg)) ∧
  (
  ∀ (s : State), s.linkLive = true →
    (∀ replies : List (Option (BitVec 16)),
      let failed := ((List.range s.regulators.length).filter (fun i => (replies[i]?).join.isNone)).length
      let ns := max s.tick (s.marks.measAt + 1000000) - s.marks.measAt
      ∃ t, exec (.powerMeasure replies) s = .next t ∧ RanTo s t (s.marks.measAt + 1000000) ∧ t.marks.measAt = t.tick ∧
        t.rd R.PWR_POWER_EST = min 0xFFFF (s.power.periodE / (1000000 * ns)) ∧ t.power.periodE = 0 ∧ t.cores = s.cores ∧
        (s.rd R.PWR_CFG_MEAS_EN ≠ 1 → t.rd R.PWR_DRIFT_MS = 0 ∧ t.outbox = s.outbox ∧ t.power.measE = s.power.measE) ∧
        (s.rd R.PWR_CFG_MEAS_EN = 1 →
          (∃ rest, t.outbox = s.outbox ++ s.regulators.map (fun k => .pmbus (s.rd R.PWR_VR_ADDR 0 k) 0x97) ++ rest) ∧
          t.rd R.PWR_CNT_MEAS_ERR = min (s.rd R.PWR_CNT_MEAS_ERR + failed) (2 ^ R.PWR_CNT_MEAS_ERR.width - 1) ∧
          (0 < failed → t.rd R.PWR_POWER_MEAS = s.rd R.PWR_POWER_MEAS ∧ t.rd R.PWR_DRIFT_MS = 0 ∧ t.power.measE = s.power.measE) ∧
          (∀ ws : List (BitVec 16), ws.length = s.regulators.length → replies = ws.map some →
            t.rd R.PWR_POWER_MEAS = min 0xFFFF (ws.map linear11).sum.floor.toNat ∧ t.rd R.PWR_STATUS_MEAS_LOST = 0 ∧
            t.power.estE = s.power.periodE))) ∧
    (s.reachable .pwr 0 →
      (∃ t, exec .clearDrift s = .next t ∧ t = { s with regs := t.regs } ∧ t.rd R.PWR_STATUS_DRIFT = 0 ∧
        t.rd R.PWR_STATUS_BID_FROZEN = 0 ∧ t.rd R.PWR_DRIFT_MS = 0 ∧
        FieldsKept s t [R.PWR_STATUS_DRIFT.key 0 0, R.PWR_STATUS_BID_FROZEN.key 0 0, R.PWR_DRIFT_MS.key 0 0]) ∧
      exec .bidReset s = .next { s with power := { s.power with bids := [] } }))

/-- R427, R428, R434, R435, R436: A core's pacing level moves one level toward its target unless a droop holds its die; a die's frequency
falls when a core of it has been paced deep in the power ticks of 1 ms, rises after as many of ample budget, and else stays; FLIMIT falls
on a hot die and rises on a cool one; a droop sets every core of its die to level 8 for 1 µs; the trip stops the package, drives
THERMTRIP_N and keeps the memories in self-refresh. Model's choices, no rule of the spec: a timer's command lets the clock run to its
limit (log entry 24), a droop hold of 1 µs and the frequency change of a step made at once (log entry 104), a core below level 8 stays
there in a droop (log entry 132), the ticks of one step do not count for the next (log entry 125), HOT ends at FMAX (log entry 74), and
the trip while sagged (log entry 122). -/
def Obligations.PacingAndFrequency : Prop :=
  ∀ (s : State), s.linkLive = true →
    (∀ p : Fin 176,
      ((s.die (p / 11)).droopAt = none →
        exec (.pacingLevelStep p) s = .next (s.setCore p { s.core p with
          pace := if (s.core p).pace < (s.core p).paceGoal then (s.core p).pace + 1
                  else if (s.core p).paceGoal < (s.core p).pace then (s.core p).pace - 1 else (s.core p).pace })) ∧
      ((s.die (p / 11)).droopAt.isSome = true → exec (.pacingLevelStep p) s = .next s)) ∧
    (∀ die : Fin 16,
      let lim := min (s.rd R.PWR_DIE_FLIMIT 0 die) s.fmax
      (s.awake die = true →
        ((∃ p, p / 11 = (die : Nat) ∧ 100 ≤ (s.core p).deepTicks) →
          (7 < s.dieFreq die → ∃ t, exec (.freqStep die) s = .next t ∧ t.tick = s.tick ∧ (t.die die).freq = s.dieFreq die - 1 ∧
            Counted s t R.PWR_CNT_FSTEP 0 ∧ t.clocked die ∧
            ∀ p, t.core p = if p / 11 = (die : Nat) then { s.core p with deepTicks := 0 } else s.core p) ∧
          (s.dieFreq die ≤ 7 → exec (.freqStep die) s = .next s)) ∧
        ((∀ p, p / 11 = (die : Nat) → (s.core p).deepTicks < 100) →
          (100 ≤ (s.die die).richTicks → (s.die die).freq < s.fmax →
            ∃ t, exec (.freqStep die) s = .next t ∧ t.tick = s.tick ∧ (t.die die).freq = (s.die die).freq + 1 ∧
              (t.die die).richTicks = 0 ∧ t.rd R.PWR_CNT_FSTEP = s.rd R.PWR_CNT_FSTEP ∧ t.clocked die ∧ t.cores = s.cores) ∧
          ((s.die die).richTicks < 100 ∨ s.fmax ≤ (s.die die).freq → exec (.freqStep die) s = .next s))) ∧
      (s.throttleC ≤ s.rd R.PWR_DIE_TEMP 0 die →
        ∃ t, exec (.thermalThrottleStep die) s = .next t ∧ t.holds R.PWR_DIE_FLIMIT (max 7 (lim - 1)) 0 die ∧
          t.rd R.PWR_DIE_HOT 0 die = 1 ∧ t.clocked die ∧
          (s.rd R.PWR_DIE_HOT 0 die ≠ 1 → t.tick = s.tick ∧ Counted s t R.PWR_CNT_HOT 0) ∧
          (s.rd R.PWR_DIE_HOT 0 die = 1 → RanTo s t ((s.die die).hotAt + 100000)) ∧ t.cores = s.cores) ∧
      (s.rd R.PWR_DIE_TEMP 0 die < s.throttleC → 100 ≤ (s.die die).coolTicks → lim < s.fmax →
        ∃ t, exec (.thermalThrottleStep die) s = .next t ∧ t.tick = s.tick ∧ t.holds R.PWR_DIE_FLIMIT (lim + 1) 0 die ∧
          (t.die die).coolTicks = 0 ∧ (lim + 1 = s.fmax → t.rd R.PWR_DIE_HOT 0 die = 0) ∧ t.clocked die ∧ t.cores = s.cores) ∧
      (s.awake die = true →
        ∃ t, exec (.droopDetect die) s = .next t ∧ Counted s t R.PWR_CNT_DROOP 0 ∧ FieldsKept s t [R.PWR_CNT_DROOP.key 0 0] ∧
          (t.die die).droopAt = some s.tick ∧
          ∀ p, t.core p = if p / 11 = (die : Nat) then { s.core p with pace := min (s.core p).pace 8 } else s.core p) ∧
      (∀ u, (s.die die).droopAt = some u → ∃ t, exec (.droopHoldExpire die) s = .next t ∧ RanTo s t (u + 1000) ∧
        (t.die die).droopAt = none ∧ t.regs = s.regs ∧ t.cores = s.cores)) ∧
    (∃ t, exec .thermalTrip s = .next t ∧ t.pkg = .tripped ∧ t.rd R.PWR_STATUS_TRIPPED = 1 ∧ t.rd R.AON_STATUS_STATE = 3 ∧
      t.thermtrip = true ∧ t.ddrSelf = true ∧
      EventsStand s t .aon 0 2 0x0A02 ∧ (∀ d < 16, t.rd R.HBM_STATUS_SELF_REFRESH d = 1) ∧
      (SMap.get JrnEntry.zero t.flt.jrn (s.rd R.FLT_JRN_COUNT % 4096)).code = 0x0A02 ∧ t.cores = s.cores)

/-- R129, R130, R437, R438, R439: An idle core region stops its clock; after the gate delay it is gated, with retention when RETAIN is 1 or
its last hand ended off a checkpoint; a region that wakes without it has lost its scratchpad; a die is gated when it is idle and not held
awake, with its stack in self-refresh, and wakes with its copy of TABLE_TIME local, its members taking the steps that the copy owed.
Model's choices, no rule of the spec: a timer's command lets the clock run to its limit (log entry 24), the error of a woken die's copy is
free (log entry 30), the check counts as ended at a checkpoint (log entry 19), and a woken die starts with no retune (log entry 74). -/
def Obligations.RegionsAndDiesSleep : Prop :=
  ∀ (s : State), s.linkLive = true →
    (∀ p : Fin 176,
      ((s.core p).region = .running → (s.core p).regionIdle = true →
        exec (.regionClockStop p) s = .next (s.setCore p { s.core p with region := .stopped, regionAt := s.tick })) ∧
      (s.rd R.PWR_CFG_GATE_EN = 1 → (s.core p).region = .stopped →
        ∃ t, exec (.regionPowerGate p) s = .next t ∧ RanTo s t ((s.core p).regionAt + s.gateDelay) ∧ (t.core p).region = .gated ∧
          ((t.core p).retained = true ↔ s.rd R.SPM_CTRL_RETAIN p = 1 ∨ (s.core p).ckptEnd = false) ∧
          t.rd R.SPM_STATUS_POWERED p = 0 ∧ (t.rd R.SPM_STATUS_LOST p = 1 ↔ (t.core p).retained = false) ∧ CoresKept s t [(p : Nat)] ∧
          FieldsKept s t [R.SPM_STATUS_POWERED.key p 0, R.SPM_STATUS_LOST.key p 0]) ∧
      ((s.core p).region = .waking → s.awake (p / 11) = true →
        ∃ t, exec (.regionWakeDone p) s = .next t ∧ (t.core p).region = .running ∧ t.rd R.SPM_STATUS_POWERED p = 1 ∧
          CoresKept s t [(p : Nat)] ∧ FieldsKept s t [R.SPM_STATUS_POWERED.key p 0, R.SPM_STATUS_LOST.key p 0] ∧
          ((s.core p).retained = true → t.rd R.SPM_STATUS_LOST p = 0 ∧ (t.core p).spm = (s.core p).spm ∧
            (t.core p).seals = (s.core p).seals) ∧
          ((s.core p).retained = false → t.rd R.SPM_STATUS_LOST p = 1 ∧
            (∀ a, SMap.get 0#8 (t.core p).spm a = 0#8 ∧ (t.core p).sealAt a = poisonSeal)))) ∧
    (∀ die : Fin 24,
      (s.rd R.PWR_CFG_GATE_EN = 1 → (s.die die).power = .awake → bitOf (s.rd R.PWR_HOLD_AWAKE) die = false →
        ((die : Nat) < 16 → (∀ c : Nat, c < 11 → (s.core (11 * (die : Nat) + c)).region = .gated) → s.dieNeeded die = false → (s.die die).tested = true →
          ∃ t, exec (.diePowerGate die) s = .next t ∧ (t.die die).power = .gated ∧ t.rd R.PWR_DIE_GATED 0 die = 1 ∧
            t.rd R.HBM_STATUS_SELF_REFRESH die = 1 ∧ t.hbm = s.hbm ∧ t.cores = s.cores ∧
            ∀ c : Nat, c < 11 → (s.core (11 * (die : Nat) + c)).regionAt + s.gateDelay ≤ t.tick) ∧
        (16 ≤ (die : Nat) → s.pDieNeeded ((die : Nat) - 16) = false →
          ∃ t, exec (.diePowerGate die) s = .next t ∧ (t.die die).power = .gated ∧ t.regs = s.regs ∧ t.cores = s.cores)) ∧
      ((s.die die).power = .waking → ∃ t, exec (.dieWakeDone die) s = .next t ∧ (t.die die).power = .awake ∧
        (t.die die).isLocal = true ∧ (t.die die).owed = 0 ∧ t.hbm = s.hbm ∧
        (∀ p, t.core p = if p / 11 = (die : Nat) then { s.core p with
            resumeAt := (s.core p).resumeAt.map (· + (s.die die).owed),
            arrivedAt := (s.core p).arrivedAt.map (· + ((s.die die).owed + (t.die die).offset - (s.die die).offset)) }
          else s.core p) ∧
        ((die : Nat) < 16 → t.rd R.PWR_DIE_GATED 0 die = 0 ∧ t.rd R.HBM_STATUS_SELF_REFRESH die = 0 ∧ t.clocked die))) ∧
    (∀ dies : BitVec 24, s.reachable .pwr 0 →
      ∃ t, exec (.pwrHoldAwakeWrite dies) s = .next t ∧ t.rd R.PWR_HOLD_AWAKE = dies.toNat ∧
        FieldsKept s t [R.PWR_HOLD_AWAKE.key 0 0] ∧ t.cores = s.cores ∧
        ∀ d < 24, s.up = true → bitOf dies.toNat d = true → (s.die d).power = .gated →
          (s.die d).tested = false ∨ (s.die d).passed = true ∨ 16 ≤ d → (t.die d).power = .waking)

/-- R357, R360, R361, R363, R365, R379: STAGE of an allowed epoch on a FREE back slot stages it; CUT of a STAGED one whose conditions hold
makes it the READY front and retires the old front; DROP frees it; CANCEL takes the pending command back; a pending command is performed
once its conditions hold. Every one leaves the slots of the other pairs as they are, but for a RETIRING slot without references, which
becomes FREE. A write that sets AUTO stages a FREE back slot. Model's choices, no rule of the spec: a slot that becomes FREE has epoch 0
(log entry 20), and AUTO acts in the command after which its conditions hold (log entry 92). -/
def Obligations.WeightSlotsChange : Prop :=
  ∀ (s : State) (pair : Fin 32), s.slotsSound = true →
    let m : Nat := pair
    let f := s.wslot (2 * m)
    let b := s.wslot (2 * m + 1)
    let others (t : State) : Prop := ∀ i, i ≠ 2 * m → i ≠ 2 * m + 1 →
      t.wslot i = s.wslot i ∨ ((s.wslot i).st = .retiring ∧ s.refs i = 0 ∧ (t.wslot i).st = .free)
    let done (t : State) : Prop := t.rd R.WSL_CMD_STATUS_STATE = 2 ∧ t.rd R.WSL_CMD_STATUS_REASON = 0 ∧ t.wcmd = none ∧
      others t ∧ t.cores = s.cores
    let cutDone (t : State) : Prop := done t ∧ t.wslot (2 * m) = ⟨.ready, b.epoch, b.seat, false, false⟩ ∧
      (t.wslot (2 * m + 1)).seat = f.seat ∧ Counted s t R.WSL_CNT_CUT 0 ∧
      (f.st = .empty → (t.wslot (2 * m + 1)).st = .free) ∧
      (f.st ≠ .empty → (t.wslot (2 * m + 1)).st = .free ∨
        ((t.wslot (2 * m + 1)).st = .retiring ∧ (t.wslot (2 * m + 1)).epoch = f.epoch))
    (s.reachable .wsl 0 → s.rd R.WSL_CMD_STATUS_STATE ≠ 1 → s.auto m = false → s.multiPair m = false →
      (b.st = .free → epochOk f (s.rd R.WSL_CMD_EPOCH) = true →
        ∃ t, exec (.stage pair) s = .next t ∧ done t ∧ t.wslot (2 * m) = f ∧ Counted s t R.WSL_CNT_STAGE 0 ∧
          t.wslot (2 * m + 1) = ⟨.staged, s.rd R.WSL_CMD_EPOCH, b.seat, false, false⟩) ∧
      (b.st = .staged → s.cutOk m = true → ∃ t, exec (.cut pair) s = .next t ∧ cutDone t) ∧
      (b.st = .staged → (∀ d ∈ s.dealings, s.namesSlot d.2 (2 * m + 1) = false) →
        ∃ t, exec (.drop pair) s = .next t ∧ done t ∧ t.wslot (2 * m + 1) = { b with st := .free, epoch := 0 }) ∧
      (b.st ≠ .staged → ∀ c ∈ [Instr.cut pair, .drop pair], ∃ t, exec c s = .next t ∧ t = { s with regs := t.regs } ∧
        t.rd R.WSL_CMD_STATUS_STATE = 3 ∧ t.rd R.WSL_CMD_STATUS_REASON = 1)) ∧
    (∀ o, s.reachable .wsl 0 → s.wcmd = some o → ∃ t, exec .cancel s = .next t ∧ t = { s with wcmd := none, regs := t.regs } ∧
      t.rd R.WSL_CMD_STATUS_STATE = 3 ∧ t.rd R.WSL_CMD_STATUS_REASON = 4 ∧
      FieldsKept s t [R.WSL_CMD_STATUS_STATE.key 0 0, R.WSL_CMD_STATUS_REASON.key 0 0]) ∧
    (s.dealerUp = true → s.wcmd = some (.cut, m) → s.cutOk m = true → ∃ t, exec .wslPendingDone s = .next t ∧ cutDone t) ∧
    (s.dealerUp = true → s.wcmd = some (.cut, m) → s.cutOk m = false → (∀ i, (s.wslot i).st ≠ .retiring) →
      exec .wslPendingDone s = .next s) ∧
    (s.reachable .wsl 0 → s.dealerUp = true → s.loaded = false → ∀ value : BitVec 32,
      ∃ t, exec (.registerWrite (.bar0 (Block.page .wsl 0 + 0x100 + 4 * m) 0xF#4) value) s = .next t ∧ t.cores = s.cores ∧
        t.rd R.WSL_PAIR_CFG 0 m = value.toNat % 2 ∧
        (value.toNat % 2 = 1 → b.st = .free → f.epoch + 1 < 2 ^ 32 →
          t.wslot (2 * m) = f ∧ t.wslot (2 * m + 1) = ⟨.staged, f.epoch + 1, b.seat, false, false⟩))

/-- R371, R372, R374, R379: CLAIM takes a FREE seat, ENLIST makes a LOADING seat the LIVE one of its delta set with the next version and
retires the seat before it, RELEASE frees a LOADING seat and WITHDRAW retires the LIVE one; a RETIRED seat without references is FREE; a
seat in another state refuses the command. -/
def Obligations.DeltaSeatsChange : Prop :=
  ∀ (s : State) (seat : Fin 4096), s.reachable .dpl 0 → bitOf s.fuses.engines 7 = false → (seat : Nat) < s.rd R.DPL_CFG_SEATS →
    let id := s.rd R.DPL_CMD_ID
    let ok (t : State) : Prop := t.rd R.DPL_CMD_STATUS_STATE = 2 ∧ t.rd R.DPL_CMD_STATUS_REASON = 0 ∧ t.cores = s.cores ∧ t.hbm = s.hbm
    let wrong (c : Instr) : Prop := ∃ t, exec c s = .next t ∧ t = { s with regs := t.regs } ∧ t.rd R.DPL_CMD_STATUS_STATE = 3 ∧
      t.rd R.DPL_CMD_STATUS_REASON = 1
    ((s.seat seat).st = .free → ∃ t, exec (.claim seat) s = .next t ∧ ok t ∧ t.seat seat = ⟨.loading, 0, 0⟩ ∧
      ∀ d, d ≠ (seat : Nat) → t.seat d = s.seat d) ∧
    ((s.seat seat).st ≠ .free → wrong (.claim seat)) ∧
    ((s.seat seat).st = .loading →
      (∃ t, exec (.release seat) s = .next t ∧ ok t ∧ (t.seat seat).st = .free ∧ ∀ d, d ≠ (seat : Nat) → t.seat d = s.seat d) ∧
      (∃ t, exec (.enlist seat) s = .next t ∧ ok t ∧ Counted s t R.DPL_CNT_ENLIST 0 ∧
        t.seat seat = ⟨.live, id, nextVersion (s.lastVersion id)⟩ ∧
        t.holds R.DPL_CMD_STATUS_VERSION (nextVersion (s.lastVersion id)) ∧
        ∀ d, s.liveSeat id = some d → d ≠ (seat : Nat) → (t.seat d).st = if s.seatRefs d = 0 then .free else .retired)) ∧
    ((s.seat seat).st ≠ .loading → wrong (.release seat) ∧ wrong (.enlist seat)) ∧
    (∀ d, s.liveSeat id = some d → ∃ t, exec (.withdraw seat) s = .next t ∧ ok t ∧
      (t.seat d).st = if s.seatRefs d = 0 then .free else .retired) ∧
    (s.liveSeat id = none → wrong (.withdraw seat))

/-- R381, R385, R386, R387, R388: The host writes entries and valid words into a function's request log; a sweep takes a slot whose valid word
submits a new TAG and refuses it at once with its status, or lets it wait; the oldest waiting request is admitted with the lowest free KV
pages, the epoch of its pair's front slot and its delta seat when its first dealing can be paid. Model's choices, no rule of the spec:
DELTA 0 with a DELTA_ID is a bad entry (log entry 73), a space code counts whatever its address (log entry 87), and a dropped submission
is not taken later (log entry 89). -/
def Obligations.RequestsAreTaken : Prop :=
  ∀ (s : State) (f : Fin 16), s.dealerUp = true →
    (∀ (offset : Nat) (bytes : List Byte), s.fnReached 0 = true ∨ s.fnReached f = true →
      ∃ t, exec (.requestLogWrite f offset bytes) s = .next t ∧ t = { s with funcs := t.funcs } ∧
        (∀ g, g ≠ (f : Nat) → t.func g = s.func g) ∧
        ∀ a, SMap.get 0#8 (t.func f).log a =
          if offset ≤ a ∧ a < offset + bytes.length ∧ a < 0x10004 then bytes.getD (a - offset) 0#8
          else SMap.get 0#8 (s.func f).log a) ∧
    (∀ slot : Nat, slot < 512 → s.rd R.SRV_FUNC_EN 0 f = 1 → (∀ g, g < 16 → g ≠ (f : Nat) → s.rd R.SRV_FUNC_EN 0 g = 0) →
      (∀ k, k < 512 → k ≠ slot → (s.func f).valid k % 4 = 0) → slot ∉ (s.func f).busy →
      let v := (s.func f).valid slot
      let e := (s.func f).entry slot
      SMap.get 0 (s.func f).lastTag slot ≠ v / 2 ^ 16 + 1 → slot ∉ (s.func f).stale →
      (v % 4 = 1 →
        let why := s.refusal f e ((s.func f).logAt (128 * slot + 0x54) 40 + bitsOf v 2 14)
        (why = none → ∃ t, exec .sweep s = .next t ∧ t.reqs = s.reqs ++ [Req.taken (512 * f + slot) (v / 2 ^ 16) s.stamp e] ∧
          (t.func f).busy = slot :: (s.func f).busy ∧ t.regs = s.regs ∧ t.cores = s.cores) ∧
        (∀ st, why = some st → ∃ t c, exec .sweep s = .next t ∧ (t.func f).cpls = (s.func f).cpls ++ [c] ∧ c.final = true ∧
          c.key = 512 * f + slot ∧ c.tag = v / 2 ^ 16 ∧ c.user = e.user ∧ c.status = st ∧ c.cancel = 0 ∧
          Counted s t R.SRV_CNT_REFUSED 0 ∧ t.cores = s.cores)) ∧
      (v % 4 = 2 → ∃ t c, exec .sweep s = .next t ∧ (t.func f).cpls = (s.func f).cpls ++ [c] ∧ c.final = true ∧
        c.key = 512 * f + slot ∧ c.tag = v / 2 ^ 16 ∧ c.status = 0x10 ∧ c.cancel = 1 ∧ Counted s t R.SRV_CNT_CANCEL 0)) ∧
    (∀ r, s.reqs.find? (fun r => r.fn == (f : Nat) && !r.admitted) = some r →
      let m := r.entry.pair
      let k := s.chunkSize r.entry (2 * m)
      (s.wslot (2 * m)).st = .ready → (s.freePages (s.kvNeed r.entry)).length = s.kvNeed r.entry →
      s.canPay f (firstCost r.entry k) = true → (r.entry.delta = true → (s.liveSeat r.entry.deltaId).isSome = true) →
      ∃ t, exec (.requestAdmit f) s = .next t ∧ t = { s with reqs := t.reqs, kvUsed := s.kvUsed ++ s.freePages (s.kvNeed r.entry) } ∧
        ∀ x ∈ t.reqs, x.order = r.order → x.admitted = true ∧ x.epoch = (s.wslot (2 * m)).epoch ∧ x.chunk = k ∧
          x.pages = s.freePages (s.kvNeed r.entry) ∧ x.seat = (if r.entry.delta then s.liveSeat r.entry.deltaId else none))

/-- R384, R401, R402, R404, R405: The oldest completion entry of a function is written to its ring, its PHASE last, when the ring has room,
and frees its slot when it is final; without bus mastering it is dropped and counted; the moderation timer sends the function's message.
Model's choices, no rule of the spec: a timer's command lets the clock run to its limit (log entry 24), and a message needs no Bus Master
Enable (log entry 42). -/
def Obligations.CompletionsAreWritten : Prop :=
  ∀ (s : State) (f : Fin 16), s.dealerUp = true →
    (∀ c cs, (s.func f).cpls = c :: cs →
      let w := s.rd R.SRV_CPL_WRITTEN 0 f
      let n := s.ringSize f
      let a := s.rdPair R.SRV_CPL_BASE_LO R.SRV_CPL_BASE_HI 0 f + 64 * (w % n)
      let freed (t : State) : Prop := (t.func f).cpls = cs ∧ t.cores = s.cores ∧ t.reqs = s.reqs ∧
        (c.final = true → c.key % 512 ∉ (t.func f).busy ∧ SMap.get 0 (t.func f).lastTag (c.key % 512) = c.tag + 1) ∧
        (c.final = false → (t.func f).busy = (s.func f).busy)
      (s.rd R.HIF_FUNC_BME 0 f = 1 → (w + 2 ^ 32 - (s.func f).cplHead) % 2 ^ 32 < n →
        ∃ t rest, exec (.completionWrite f) s = .next t ∧ freed t ∧ t.rd R.SRV_CPL_WRITTEN 0 f = (w + 1) % 2 ^ 32 ∧
          t.outbox = s.outbox ++ Out.hostWrite f a (c.bytes s.time) ::
            Out.hostWrite f (a + 60) (leBytes 4 (if w / n % 2 = 0 then 1 else 0)) :: rest) ∧
      (s.rd R.HIF_FUNC_BME 0 f = 1 → n ≤ (w + 2 ^ 32 - (s.func f).cplHead) % 2 ^ 32 → exec (.completionWrite f) s = .next s) ∧
      (s.rd R.HIF_FUNC_BME 0 f = 0 →
        ∃ t, exec (.completionWrite f) s = .next t ∧ freed t ∧ Counted s t R.SRV_CNT_CPL_DROP 0 ∧ t.outbox = s.outbox)) ∧
    (∀ u, (s.func f).firstAt = some u → (s.func f).since ≠ 0 →
      ∃ t, exec (.completionMsgTimer f) s = .next t ∧ RanTo s t (u + 1000 * s.rd R.SRV_CPL_CFG_TIMER 0 f) ∧ (t.func f).since = 0 ∧
        (t.func f).firstAt = none ∧ t.cores = s.cores ∧
        (s.rd R.HIF_FUNC_MSIX_EN 0 f = 1 → s.rd R.SRV_CPL_CFG_VECTOR 0 f < msixSize f →
          SMap.get true s.msixMask (2048 * f + s.rd R.SRV_CPL_CFG_VECTOR 0 f) = false → SMap.get false s.msixFnMask f = false →
          t.outbox = s.outbox ++ [s.msixOut f (s.rd R.SRV_CPL_CFG_VECTOR 0 f)]))

/-- R398, R400, R408, R409, R475, R476, R500, R501: Enabling a function fills its stake and starts its ring count; disabling it ends its
requests with status FUNCTION_DISABLED, those of a dealing in progress when that ends; a new BURST cuts the stake and ends the requests
whose next dealing costs more; a function-level reset also clears its configuration space and its log and detaches what is held, and of
the physical function also disables every virtual function; D3hot, a lowered NumVFs and a hot reset disable what they reach. Model's
choices, no rule of the spec: the configuration space of a virtual function that is taken away is reset (log entry 41), a reset does its
work at once and FLR_BUSY ends at a free tick (log entry 78), dropped submissions (log entry 89), values of the PCI Express standard (log
entry 141). -/
def Obligations.FunctionsComeAndGo : Prop :=
  ∀ (s : State) (f : Fin 16),
    let ended (t : State) (g : Nat) : Prop := t.rd R.SRV_FUNC_EN 0 g = 0 ∧
      ∀ r ∈ t.reqs, r.fn = g → r.detached = true ∨ (s.held r = true ∧ r.disabled = true ∧ ∃ r0 ∈ s.reqs, r0.order = r.order ∧ r.ending = some (r0.ending.getD 0x11))
    let cleared (t : State) (g : Nat) : Prop := t.rd R.SRV_FUNC_EN 0 g = 0 ∧ t.rd R.HIF_FUNC_BME 0 g = 0 ∧ t.rd R.HIF_FUNC_MSE 0 g = 0 ∧
      t.rd R.HIF_FUNC_D3HOT 0 g = 0 ∧ t.rd R.HIF_FUNC_MSIX_EN 0 g = 0 ∧
      (t.fnCfg g).timeout = 0 ∧ SMap.get false t.msixFnMask g = false ∧ (∀ k, k / 2048 = g → SMap.get true t.msixMask k = true ∧
        SMap.get false t.msixPend k = false) ∧ (t.func g).log = [] ∧ (t.func g).busy = [] ∧
      (t.func g).cpls = [] ∧ ∀ r ∈ t.reqs, r.fn = g → r.detached = true
    (s.reachable .srv 0 →
      (s.rd R.SRV_FUNC_EN 0 f = 0 → ∃ t, exec (.functionEnable f) s = .next t ∧ t = { s with regs := t.regs, funcs := t.funcs } ∧
        t.rd R.SRV_FUNC_EN 0 f = 1 ∧ t.rd R.SRV_CPL_WRITTEN 0 f = 0 ∧ t.stake f = s.rd R.SRV_STAKE_BURST 0 f * 1000000000 ∧
        FieldsKept s t [R.SRV_FUNC_EN.key 0 f, R.SRV_CPL_WRITTEN.key 0 f]) ∧
      (s.rd R.SRV_FUNC_EN 0 f = 1 → ∃ t, exec (.functionDisable f) s = .next t ∧ ended t f ∧ t.cores = s.cores) ∧
      (∀ value : BitVec 32, ∃ t, exec (.stakeBurstWrite f value) s = .next t ∧ t.rd R.SRV_STAKE_BURST 0 f = value.toNat ∧
        t.stake f = (if s.unlimited f then value.toNat * 1000000000 else min (s.stake f) (value.toNat * 1000000000)) ∧
        t.cores = s.cores ∧
        (∀ r ∈ s.reqs, r.fn = (f : Nat) → r.detached = false → s.held r = false → r.admitted = true → value.toNat < r.cost →
          ∀ x ∈ t.reqs, x.order ≠ r.order) ∧
        ((∀ r ∈ s.reqs, r.fn = (f : Nat) → r.detached = true ∨ s.held r = true ∨ s.nextCost r ≤ value.toNat) →
          FieldsKept s t [R.SRV_STAKE_BURST.key 0 f] ∧ t.reqs = s.reqs))) ∧
    (s.pkg ≠ .held →
      (∃ t, exec (.functionLevelReset f) s = .next t ∧ cleared t f ∧ t.cores = s.cores ∧ (t.fnCfg f).flrEnd ≤ s.tick + 10000000 ∧
        ((f : Nat) = 0 → ∀ g, 1 ≤ g → g < 16 → t.rd R.SRV_FUNC_EN 0 g = 0 ∧ t.rd R.HIF_FUNC_PRESENT 0 g = 0)) ∧
      (∃ t, exec (.d3hotEntry f) s = .next t ∧ ended t f ∧ t.rd R.HIF_FUNC_D3HOT 0 f = 1 ∧ t.cores = s.cores) ∧
      (∃ t, exec (.vfDisable f) s = .next t ∧ t.cores = s.cores ∧ ∀ g, g < 16 →
        ((f : Nat) < g → ended t g ∧ t.rd R.HIF_FUNC_PRESENT 0 g = 0 ∧ t.rd R.HIF_FUNC_BME 0 g = 0) ∧
        (g ≤ (f : Nat) → t.rd R.SRV_FUNC_EN 0 g = s.rd R.SRV_FUNC_EN 0 g ∧ t.rd R.HIF_FUNC_PRESENT 0 g = s.rd R.HIF_FUNC_PRESENT 0 g)) ∧
      (∃ t, exec .hotReset s = .next t ∧ t.cores = s.cores ∧ t.rd R.HIF_LINK_SPEED = 0 ∧ t.pcieUp = false ∧ ∀ g, g < 16 →
        cleared t g ∧ (1 ≤ g → t.rd R.HIF_FUNC_PRESENT 0 g = 0)))

/-- R446, R458: Once a second the increases of the error counters go into the scores of their parts, saturating, where a score does not reach
the level at which a core is marked; every DECAY_H hours a score falls by an eighth of itself, but for a retired core's; the scores are
stored once an hour, and the journal when it has changed. Model's choices, no rule of the spec: a timer's command lets the clock run to
its limit (log entry 24), corrected FEC symbols that do not fill 65,536 are kept (log entry 31), and which counters weigh (log entry 80). -/
def Obligations.HealthIsKept : Prop :=
  ∀ (s : State), s.dealerUp = true →
    (∃ t, exec .healthSample s = .next t ∧ RanTo s t (s.marks.sampleAt + 1000000000) ∧ t.marks.sampleAt = t.tick ∧
      t.cores = s.cores ∧ t.hbm = s.hbm ∧ t.ddr = s.ddr ∧ t.mram = s.mram ∧
      (∀ x ∈ healthCounters, t.sampled (x.1.key x.2.1 0) = s.rd x.1 x.2.1) ∧
      (∀ part < 216, s.score part ≤ 0xFFFFFFFF →
        176 ≤ part ∨ s.healthMode = false ∨ s.score part + s.scoreGain part < s.rd R.FLT_HEALTH_RETIRE →
        t.score part = min 0xFFFFFFFF (s.score part + s.scoreGain part))) ∧
    (∃ t, exec .healthDecay s = .next t ∧
      RanTo s t (s.marks.decayAt + (if s.rd R.FLT_HEALTH_CFG = 0 then 3 else s.rd R.FLT_HEALTH_CFG) * 3600000000000) ∧
      t.marks.decayAt = t.tick ∧ t.regs = s.regs ∧ t.cores = s.cores ∧ t.mram = s.mram ∧
      (∀ part < 216, t.score part = if s.keepsScore part then s.score part else s.score part - s.score part / 8)) ∧
    (s.nvmIdle →
      (∃ t, exec .healthStore s = .next t ∧ RanTo s t (s.marks.storeAt + 3600000000000) ∧ t.marks.storeAt = t.tick ∧
        t.storing 4 s.flt.health ∧ t.regs = s.regs ∧ t.cores = s.cores ∧ t.mram = s.mram) ∧
      (s.flt.dirtyAt.isSome = true →
        ∃ t, exec .journalStore s = .next t ∧ t.storing 5 (s.capture 5) ∧ t.flt = { s.flt with dirtyAt := none } ∧ t.regs = s.regs ∧
          t.tick = s.tick ∧ t.cores = s.cores ∧ t.mram = s.mram)) ∧
    (s.flt.dirtyAt = none → exec .journalStore s = .next s)

/-- R232, R233, R247, R250, R403, R451, R453, R462, R463, R464, R498, R514: A scrub corrects or counts what it finds in a data word of a unit,
and poisons the tile of an uncorrectable word without a fault; a host read that times out is counted and fails its reader: TILE_POISON on
a core, HOST_ERROR for a request, a rejected image, token or certificate chain; it comes within the Completion Timeout Value of its
function, by default 10 ms, and is logged by AER. RESUME clears PLAN_STOPPED and every return count; RETIRE marks a core that holds a
logical core, or retires a joker at once, and ignores a part above 175; CHECK_NOW makes a check due. Model's choices, no rule of the spec:
the destinations of a read that timed out (log entry 106), its record (log entry 118), the moment of the time-out and the AER bits (log
entry 141), CHECK_NOW needs CHECK_EN 1 (log entry 70), a retired joker is stored (log entry 21), and what a scrub finds is an operand (log
entry 80). -/
def Obligations.FaultsAreHandled : Prop :=
  (
  ∀ (s : State),
    (∀ (ddr : Bool) (u word : Nat), s.scrubs ddr u = true → word < s.unitWords ddr →
      let w := s.unitWord ddr u word
      let kept (t : State) : Prop := (t.tier ddr).bytes = (s.tier ddr).bytes ∧ t.cores = s.cores
      let corr := if ddr then R.DDR_CNT_CORR else R.HBM_CNT_CORR
      (∃ t, exec (.scrubPass ddr u word .transient) s = .next t ∧ kept t ∧ Counted s t corr u ∧
        SMap.get MemErr.none (t.tier ddr).err w = .none ∧ (t.tier ddr).seals = (s.tier ddr).seals) ∧
      (∃ t, exec (.scrubPass ddr u word .stuck) s = .next t ∧ kept t ∧ Counted s t corr u ∧
        SMap.get MemErr.none (t.tier ddr).err w = .hard ∧ (t.tier ddr).seals = (s.tier ddr).seals) ∧
      (∃ t, exec (.scrubPass ddr u word .uncorrectable) s = .next t ∧ kept t ∧
        Counted s t (if ddr then R.DDR_CNT_UNCORR_SCRUB else R.HBM_CNT_UNCORR_SCRUB) u ∧
        EventsStand s t (if ddr then .ddr else .hbm) u 2 0x0105 ∧ SMap.get MemErr.none (t.tier ddr).err w = .uncorr ∧
        (t.tier ddr).sealAt (wordTile w) = sealSetPoison ((s.tier ddr).sealAt (wordTile w)) ∧
        ∀ a, a / 4096 ≠ wordTile w / 4096 → (t.tier ddr).sealAt a = (s.tier ddr).sealAt a) ∧
      (SMap.get MemErr.none (s.tier ddr).err w = .none → exec (.scrubPass ddr u word .clean) s = .next s)) ∧
    (∀ (p : Fin 176) x, s.up = true → (s.core p).hostReader = some x → (s.core p).st ≠ .faulted →
      ∃ t, exec (.hostReadTimeout (.dma p)) s = .next t ∧ Counted s t R.HIF_CNT_CPL_TIMEOUT 0 ∧ Counted s t R.DMA_CNT_HOST_ERR p ∧
        (t.core p).st = .faulted ∧ (t.core p).report.isSome = true ∧ CoresKept s t [(p : Nat)]) ∧
    (∀ (f : Fin 16) (slot : Fin 512) r, s.dealerUp = true →
      s.reqs.find? (fun r => r.key == 512 * f.val + slot.val && !r.detached) = some r → r.entry.promptSpace ≠ 1 →
      ∃ t, exec (.hostReadTimeout (.request f slot)) s = .next t ∧ Counted s t R.HIF_CNT_CPL_TIMEOUT 0 ∧ t.cores = s.cores ∧
        (s.held r = true → ∀ x ∈ t.reqs, x.order = r.order → x.ending = some 0x15) ∧
        (s.held r = false → (∀ x ∈ t.reqs, x.order ≠ r.order) ∧ ∃ c, (t.func r.fn).cpls = (s.func r.fn).cpls ++ [c] ∧ c.final = true ∧
          c.key = r.key ∧ c.tag = r.tag ∧ c.status = 0x15)) ∧
    (s.rd R.HUB_FW_STATUS_STATE = 1 ∨ s.rd R.HUB_FW_STATUS_STATE = 2 →
      ∃ t, exec (.hostReadTimeout .rom) s = .next t ∧ Counted s t R.HIF_CNT_CPL_TIMEOUT 0 ∧
        t.rd R.HUB_FW_STATUS_STATE = 4 ∧ t.rd R.HUB_FW_STATUS_REASON = 1 ∧ t.cores = s.cores ∧ t.hbm = s.hbm ∧ t.fuses = s.fuses ∧
        s.tick ≤ t.tick ∧ t.tick ≤ s.tick + (s.fnCfg 0).timeoutTicks ∧ bitOf (t.fnCfg 0).aer 14 = true ∧
        FieldsKept s t [R.HIF_CNT_CPL_TIMEOUT.key 0 0, R.HUB_FW_STATUS_STATE.key 0 0, R.HUB_FW_STATUS_REASON.key 0 0]) ∧
    (∀ x : PcieFn, x.timeout = 0 → x.timeoutTicks = 10000000) ∧
    (∀ o, s.life.op = some o → s.life.resetDue = none → ∃ t, exec (.hostReadTimeout .lcs) s = .next t ∧ Counted s t R.HIF_CNT_CPL_TIMEOUT 0 ∧
      t.life.op = none ∧ t.rd R.LCS_STATUS_STATE = 3 ∧ t.rd R.LCS_STATUS_REASON = (if o = .cert then 0xA else 1) ∧
      t.fuses = s.fuses ∧ t.mram = s.mram)) ∧
  (
  ∀ (s : State), s.reachable .flt 0 →
    (∃ t, exec .resume s = .next t ∧ t = { s with regs := t.regs, groups := t.groups } ∧ t.rd R.FLT_STATUS_PLAN_STOPPED = 0 ∧
      FieldsKept s t [R.FLT_STATUS_PLAN_STOPPED.key 0 0] ∧ ∀ g < 64, t.group g = { s.group g with returns := 0 }) ∧
    (∀ part : Fin 256,
      (176 ≤ (part : Nat) ∨ s.outOfPlay part = true → exec (.retire part) s = .next s) ∧
      ((part : Nat) < 176 → s.outOfPlay part = false → (s.logicalOf part).isSome = true →
        ∃ t, exec (.retire part) s = .next t ∧ SMap.get 0 t.flt.marked part = 1 ∧ t.cores = s.cores ∧
          (∀ q, q ≠ (part : Nat) → SMap.get 0 t.flt.marked q = SMap.get 0 s.flt.marked q) ∧
          ((s.jmap (part / 11)).jokers ≠ 0 → t.regs = s.regs ∧ t.flt.maps = s.flt.maps) ∧
          ((s.jmap (part / 11)).jokers = 0 → (s.jmap (part / 11)).waits = false → s.flt.maps.length = 16 →
            (t.jmap (part / 11)).waits = true ∧ EventsStand s t .flt 0 8 0x0C04)) ∧
      ((part : Nat) < 176 → s.outOfPlay part = false → s.logicalOf part = none → s.flt.maps.length = 16 →
        ∃ t, exec (.retire part) s = .next t ∧ t.cores = s.cores ∧ t.score part = 0xFFFFFFFF ∧ Counted s t R.FLT_CNT_SWAP 0 ∧
          t.jmap (part / 11) = { s.jmap (part / 11) with retired := (s.jmap (part / 11)).retired ++ [(part : Nat) % 11],
                                                         jokers := (s.jmap (part / 11)).jokers - 1,
                                                         waits := (s.jmap (part / 11)).waits ||
                                                           (decide ((s.jmap (part / 11)).jokers ≤ 1) && s.markedWait (part / 11)) })) ∧
    exec .checkNow s = .next { s with flt := { s.flt with due := s.flt.due || s.on R.FLT_CFG_CHECK_EN } })

/-- R467, R506, R522, R523: A dealer that fails its lockstep or its watchdog is stopped, with an entry, a store of the journal, and AON_DOWN;
a sag stops the package with its memories in self-refresh, refuses a life-cycle command in progress, a low auxiliary input switches the
PCI Express port off, and a second sag, or one after a trip, only shows in the supply bits; the hold-up save adds the increases to the
scores and stores HEALTH, JOURNAL and SAVE. Model's choices, no rule of the spec: a sag with neither supply bit is one of the main rails,
and one after a trip changes no stored state (log entry 50), a life-cycle command in progress is refused with REASON 9 (log entry 134), a
store waits behind the operation in progress (log entry 51). -/
def Obligations.DealerDownAndSag : Prop :=
  ∀ (s : State),
    (s.dealerUp = true → ∀ c, c = Instr.dealerWatchdogExpire ∨ c = .lockstepMismatch →
      ∃ t, exec c s = .next t ∧ t.pkg = .down ∧ t.rd R.AON_STATUS_STATE = 1 ∧
        t.rd R.AON_STATUS_WDOG = (if c = .dealerWatchdogExpire then 1 else 0) ∧
        t.rd R.AON_STATUS_MISMATCH = (if c = .lockstepMismatch then 1 else 0) ∧ Counted s t R.AON_CNT_DOWN 0 ∧
        EventsStand s t .aon 0 1 0x0B01 ∧ t.holdsPair R.AON_DOWN_TIME_LO R.AON_DOWN_TIME_HI s.time ∧ t.loading = none ∧
        t.trickIn = [] ∧ t.partnerIn = [] ∧ t.flt.dirtyAt = none ∧ t.cores = s.cores ∧ t.groups = s.groups ∧
        (SMap.get JrnEntry.zero t.flt.jrn (s.rd R.FLT_JRN_COUNT % 4096)).code = 0x0B01) ∧
    (∀ auxLow pwrFail : Bool,
      let live (t : State) : Prop := t.rd R.HUB_POWER_EVENT_AUX_LOW = (if auxLow then 1 else 0) ∧
        t.rd R.HUB_POWER_EVENT_PWR_FAIL = (if pwrFail then 1 else 0) ∧
        (auxLow = true → t.rd R.HIF_LINK_SPEED = 0 ∧ t.rd R.HIF_LINK_WIDTH = 0 ∧ t.rd R.HIF_LINK_FLIT = 0)
      let supplyKeys := [R.HUB_POWER_EVENT_AUX_LOW.key 0 0, R.HUB_POWER_EVENT_PWR_FAIL.key 0 0] ++
        (if auxLow then [R.HIF_LINK_SPEED.key 0 0, R.HIF_LINK_WIDTH.key 0 0, R.HIF_LINK_FLIT.key 0 0] else [])
      (s.pkg ≠ .held → s.pkg ≠ .sagged → s.pkg ≠ .tripped →
        ∃ t, exec (.sagDetect auxLow pwrFail) s = .next t ∧ live t ∧
          t = { s with regs := t.regs, pkg := .sagged, loading := none, ddrSelf := true, life := t.life, free := t.free } ∧
          t.rd R.HUB_POWER_EVENT_SAG = 1 ∧ (∀ d < 16, t.rd R.HBM_STATUS_SELF_REFRESH d = 1) ∧ t.life.op = none ∧
          (s.life.op = none → t.life = s.life ∧ t.free = s.free) ∧
          (s.life.op ≠ none → t.rd R.LCS_STATUS_STATE = 3 ∧ t.rd R.LCS_STATUS_REASON = 9) ∧
          FieldsKept s t (supplyKeys ++ R.HUB_POWER_EVENT_SAG.key 0 0 :: cDies.map (fun d => R.HBM_STATUS_SELF_REFRESH.key d 0) ++
            (if s.life.op = none then [] else [R.LCS_STATUS_STATE.key 0 0, R.LCS_STATUS_REASON.key 0 0]))) ∧
      (s.pkg = .held ∨ s.pkg = .sagged ∨ s.pkg = .tripped →
        ∃ t, exec (.sagDetect auxLow pwrFail) s = .next t ∧ live t ∧ t = { s with regs := t.regs } ∧ FieldsKept s t supplyKeys)) ∧
    (s.pkg = .sagged → s.rd R.HUB_POWER_EVENT_SAVE_DONE = 0 → s.life.nvmNow = none → s.life.op = none → s.life.resetDue = none →
      ∃ t, exec .holdupSaveDone s = .next t ∧ t.rd R.HUB_POWER_EVENT_SAVE_DONE = 1 ∧ t.stored 4 = some t.flt.health ∧
        t.stored 5 = some (s.capture 5) ∧ t.stored 7 = some s.saveData ∧ t.cores = s.cores ∧ t.fuses = s.fuses ∧
        (∀ n, n ∉ [4, 5, 7] → t.sect n = s.sect n) ∧
        ∀ part < 216, s.score part ≤ 0xFFFFFFFF → t.score part = min 0xFFFFFFFF (s.score part + s.scoreGain part))

/-- R7, R468, R469, R505, R506, R508, R519, R528: A package reset puts everything but MRAM and fuses to its reset value, and waits for what
PERST_N must not cut short; at its release, for which SYSREF must be present, stage 1 gives NV fields their stored values, or their Reset
values; a hub-only reset keeps memories, ports, scratchpads and the weight slots that are not RETIRING, frees RETIRED seats, and discards
dealings, plan and requests; from the normal state it leaves a journal entry. Model's choices, no rule of the spec: what a hub-only reset
clears where no rule names it, and its journal entry (log entry 34), a RETIRING slot freed with epoch 0 (log entry 20), what a package
reset keeps of the model's own (log entry 53), what PERST_N waits for (log entry 54), THERMTRIP_N is released (log entry 122), stored
values are taken at the release (log entries 49 and 56), and SYSREF comes first (log entry 25). -/
def Obligations.ResetsRestore : Prop :=
  ∀ (s : State),
    (∀ perst : Bool,
      (perst = true → s.perstWaits = true →
        exec (.packageReset perst) s = .next { s with life := { s.life with resetDue := some true } }) ∧
      (perst = false ∨ s.perstWaits = false →
        ∃ t, exec (.packageReset perst) s = .next t ∧ t.pkg = .held ∧ t.fuses = s.fuses ∧ t.life.lcs = s.fuses.lcs ∧
          t.tick = 0 ∧ t.time = 0 ∧ t.cores = [] ∧ t.hbm = Tier.reset ∧ t.ddr = Tier.reset ∧ t.image = none ∧ t.groups = [] ∧
          t.ports = [] ∧ t.reqs = [] ∧ t.pending = s.pending ∧ t.outbox = s.outbox ∧
          t.osc = (s.osc || !perst) ∧ t.thermtrip = false ∧ (s.life.nvmNow = none ∨ perst = true → t.mram = s.mram) ∧
          t.rd R.HUB_RESET_CAUSE_CAUSE = (if perst then 1 else 0) ∧
          t.rd R.HUB_RESET_CAUSE_SAVED = (if s.pkg = .sagged ∧ s.rd R.HUB_POWER_EVENT_SAVE_DONE = 1 then 1 else 0) ∧
          t.rd R.HUB_RESET_CAUSE_TRIPPED = s.rd R.PWR_STATUS_TRIPPED % 2 ∧
          FieldsKept State.reset t [R.HUB_RESET_CAUSE_CAUSE.key 0 0, R.HUB_RESET_CAUSE_SAVED.key 0 0, R.HUB_RESET_CAUSE_TRIPPED.key 0 0])) ∧
    (s.pkg = .held → s.osc = false →
      ∃ t, exec .resetRelease s = .next t ∧ t.pkg = .running ∧ t.osc = false ∧ t.subsys = t.rd R.HIF_SUBSYS_SVID + 2 ^ 16 * t.rd R.HIF_SUBSYS_SSID ∧ t.fuses = s.fuses ∧ t.life.nonce.length = 4 ∧
        ∀ n ∈ [2, 3, 6], ∀ x ∈ nvFields n,
          t.rd x.1 x.2.1 x.2.2 = (match ((s.sect n).sense n).value with
            | some b => SMap.get 0 b.data (x.1.key x.2.1 x.2.2)
            | none => nvReset x.1 x.2.2) % 2 ^ x.1.width) ∧
    (s.pkg ≠ .held ∨ s.osc = true → exec .resetRelease s = .next s) ∧
    (s.reachable .aon 0 → s.pkg = .running ∨ s.pkg = .down →
      ∃ t, exec .hubReset s = .next t ∧ t.pkg = .hubReset ∧ t.rd R.AON_STATUS_STATE = 2 ∧ Counted s t R.AON_CNT_HUB_RESET 0 ∧
        t.rd R.HUB_RESET_CAUSE_CAUSE = 2 ∧ t.rd R.HUB_FW_STATUS_STATE = 0 ∧ t.rd R.HUB_BRINGUP_STATUS_FIRMWARE = 0 ∧
        t.hbm = s.hbm ∧ t.ddr = s.ddr ∧ t.ports = s.ports ∧ t.fuses = s.fuses ∧ t.image = none ∧ t.groups = [] ∧ t.reqs = [] ∧
        t.wcmd = none ∧ (s.wcmd.isSome = true → t.rd R.WSL_CMD_STATUS_STATE = 0) ∧
        (∀ d, (s.seat d).st = .retired → t.seat d = { s.seat d with st := .free }) ∧
        (s.pkg = .running → (SMap.get JrnEntry.zero t.flt.jrn (s.rd R.FLT_JRN_COUNT % 4096)).kind = 6) ∧ (∀ i, (s.wslot i).st ≠ .retiring → t.wslot i = s.wslot i) ∧
        ∀ p, (t.core p).member = none ∧ (t.core p).st = .idle ∧ (t.core p).eng = [] ∧ (t.core p).spm = (s.core p).spm ∧
          (t.core p).seals = (s.core p).seals) ∧
    (s.pkg = .hubReset → ∃ t, exec .hubResetDone s = .next t ∧ t = { s with pkg := .running, regs := t.regs } ∧
      t.rd R.AON_STATUS_STATE = 0 ∧ FieldsKept s t [R.AON_STATUS_STATE.key 0 0])

/-- R236, R238, R239, R241, R508, R509, R510, R511, R512, R513, R514: Bring-up: the link with the functions that are set up, the firmware
check, the self-tests of dies and cores, a failing core being marked and a die with more of them than jokers staying gated, the training
of the memories with every seal poisoned after it, and the wait for the links. Model's choices, no rule of the spec: a timer's command
lets the clock run to its limit (log entry 24), PCIE_LINK_UP sets the configuration space (log entry 33), which DDR5 channels fail (log
entry 35), which dies firmware wakes (log entry 52), SHORT, FULL and DEGRADED (log entries 62 and 121), marks of scores fail no die (log
entry 138), and fetching turns to verifying at a tick (log entry 137). -/
def Obligations.BringUpAdvances : Prop :=
  ∀ (s : State),
    (∀ (speed : Fin 16) (width : Fin 32) (flitMode : Bool) (cs : List FnConfig), s.pkg = .running → linkOk speed width flitMode = true →
      (cs.map (·.fn)).Nodup →
      ∃ t, exec (.pcieLinkUp speed width flitMode cs) s = .next t ∧ t.holds R.HIF_LINK_SPEED speed ∧ t.holds R.HIF_LINK_WIDTH width ∧
        t.rd R.HIF_LINK_FLIT = (if flitMode then 1 else 0) ∧ t.rd R.HUB_BRINGUP_STATUS_AON_PCIE = 1 ∧ t.cores = s.cores ∧
        ∀ c ∈ cs, t.rd R.HIF_FUNC_BME 0 c.fn = (if c.bme then 1 else 0) ∧ t.rd R.HIF_FUNC_MSE 0 c.fn = (if c.mse then 1 else 0) ∧
          t.rd R.HIF_FUNC_MSIX_EN 0 c.fn = (if c.msixEn then 1 else 0) ∧ t.rd R.HIF_FUNC_D3HOT 0 c.fn = 0 ∧
          SMap.get false t.msixFnMask c.fn = c.masked ∧ ((c.fn : Nat) ≠ 0 → t.rd R.HIF_FUNC_PRESENT 0 c.fn = if c.exist then 1 else 0)) ∧
    (s.reachable .hub 0 → s.pkg = .running → s.rd R.HUB_FW_STATUS_STATE = 0 ∨ s.rd R.HUB_FW_STATUS_STATE = 4 →
      ∃ t, exec .go s = .next t ∧ t = { s with regs := t.regs } ∧ t.rd R.HUB_FW_STATUS_STATE = 1 ∧ t.rd R.HUB_FW_STATUS_REASON = 0 ∧
        FieldsKept s t [R.HUB_FW_STATUS_STATE.key 0 0, R.HUB_FW_STATUS_REASON.key 0 0]) ∧
    (s.pkg = .running → s.rd R.HUB_FW_STATUS_STATE = 1 ∨ s.rd R.HUB_FW_STATUS_STATE = 2 →
      let len := s.rd R.HUB_FW_LEN
      let img := s.hostRead 0 (s.rdPair R.HUB_FW_ADDR_LO R.HUB_FW_ADDR_HI) len
      ∃ t, exec .fwCheckDone s = .next t ∧ t.fuses = s.fuses ∧ t.hbm = s.hbm ∧
        (len < 0x2001 ∨ 0x400000 < len ∨ img.1 = none → t.rd R.HUB_FW_STATUS_STATE = 4 ∧ t.rd R.HUB_FW_STATUS_REASON = 1) ∧
        (0x2001 ≤ len → len ≤ 0x400000 → ∀ bs, img.1 = some bs →
          (img.2.fwReason bs len ≠ 0 → t.rd R.HUB_FW_STATUS_STATE = 4 ∧ t.holds R.HUB_FW_STATUS_REASON (img.2.fwReason bs len)) ∧
          (img.2.fwReason bs len = 0 → t.rd R.HUB_FW_STATUS_STATE = 3 ∧ t.rd R.HUB_BRINGUP_STATUS_FIRMWARE = 1 ∧
            t.holds R.HUB_FW_VERSION (field bs 8 4) ∧ t.holds R.HUB_FW_SVN_SVN (field bs 0xC 2) ∧ t.life.mFw = digest32 bs))) ∧
    (s.dealerUp = true →
      (∀ die : Fin 16, s.awake die = true →
        ((s.die die).tested = false → ∀ shared : Bool,
          ∃ t, exec (.bistDone die shared []) s = .next t ∧ (t.die die).tested = true ∧ (t.die die).passed = shared ∧ t.cores = s.cores ∧
            (shared = true → (t.die die).power = (s.die die).power ∧ bitOf (t.rd R.HUB_BRINGUP_DIES_BIST_OK) die = true) ∧
            (shared = false → (t.die die).power = .gated ∧ t.rd R.PWR_DIE_GATED 0 die = 1)) ∧
        ((s.die die).tested = false → ∀ c < 11, s.outOfPlay (11 * (die : Nat) + c) = false →
          (s.logicalOf (11 * (die : Nat) + c)).isSome = true →
          ∃ t, exec (.bistDone die true [c]) s = .next t ∧ (t.die die).tested = true ∧ t.cores = s.cores ∧
            SMap.get 0 t.flt.marked (11 * (die : Nat) + c) = 0x0C02 ∧ ((t.die die).passed = true ↔ s.markedOn die < (s.jmap die).jokers) ∧
            ((t.die die).passed = false → (t.die die).power = .gated ∧ t.rd R.PWR_DIE_GATED 0 die = 1)) ∧
        ((s.die die).passed = true → (s.die die).memDone = false → ∀ ok : Bool,
          ∃ t, exec (.hbmTrainingDone die ok) s = .next t ∧ (t.die die).memDone = true ∧ (t.die die).trained = ok ∧
            t.rd R.HBM_STATUS_TRAINED die = (if ok then 1 else 0) ∧ t.rd R.HBM_STATUS_FAILED die = (if ok then 0 else 1) ∧
            (∀ a, stackOf a ≠ (die : Nat) → HbmKept s t a) ∧ (∀ a, ok = true → stackOf a = (die : Nat) → t.hbm.sealAt a = poisonSeal)) ∧
        ((s.die die).passed = true → (s.die die).trained = true → (s.die die).anchored = false → ∀ c < 11,
          s.outOfPlay (11 * (die : Nat) + c) = false → (s.logicalOf (11 * (die : Nat) + c)).isSome = true →
          ∃ t, exec (.anchorSelftestDone die [c]) s = .next t ∧ (t.die die).anchored = true ∧ t.cores = s.cores ∧
            SMap.get 0 t.flt.marked (11 * (die : Nat) + c) = 0x0C02)) ∧
      (∀ results : List DimmReport, s.life.ddrTrain = true →
        let rs := (List.range s.ddrAsked).map (fun k => results.getD k noDimm)
        let first := results.getD 0 noDimm
        let ready := first.present && rs.all (fun r => channelOk first r (tierRate rs (s.rd R.DDR_CFG_MAX_RATE)))
        ∃ t, exec (.ddrTrainingDone results) s = .next t ∧ t.life.ddrTrain = false ∧ t.ddr = Tier.reset ∧
          t.rd R.HUB_BRINGUP_STATUS_DDR5 = 1 ∧ t.cores = s.cores ∧ t.hbm = s.hbm ∧
          (∀ k < 8, t.rd R.DDR_STATUS_TIER_READY k = if ready then 1 else 0) ∧
          t.holdsPair R.DDR_CAPACITY_LO R.DDR_CAPACITY_HI (if ready then s.ddrAsked * first.gib * 2 ^ 30 / 512 * 511 else 0)) ∧
      (s.rd R.HUB_BRINGUP_STATUS_EVKAI = 0 →
        ∃ t, exec .linkWaitExpire s = .next t ∧
          RanTo s t (s.marks.linkAt + 1000000 * (if s.rd R.HUB_BRINGUP_CFG = 0 then 500 else s.rd R.HUB_BRINGUP_CFG)) ∧
          t.rd R.HUB_BRINGUP_STATUS_EVKAI = 1 ∧ t.cores = s.cores ∧ t.ports = s.ports)) ∧
    (s.reachable .ddr 0 →
      ((∀ d ∈ s.dealings, (s.dealHdr d.2).ddr5 = false) →
        ∃ t, exec .ddrRetrain s = .next t ∧ t.ddr = Tier.reset ∧ t.life.ddrTrain = true ∧ t.cores = s.cores ∧ t.hbm = s.hbm ∧
          ∀ k < 8, t.rd R.DDR_STATUS_TIER_READY k = 0) ∧
      ((∃ d ∈ s.dealings, (s.dealHdr d.2).ddr5 = true) → exec .ddrRetrain s = .next s))

/-- R33, R42, R338, R494, R495, R533: LOAD begins the check of the image at PLN_IMAGE; a rejected image leaves none loaded, says why, and
withdraws the package from its trees; an accepted one is held with its tiles sealed and measured, its counts at 0; UNLOAD discards it once
no dealing of it remains. Model's choices, no rule of the spec: LOAD is ignored in life-cycle states without plans (log entry 36), the
order of the load checks (log entry 37), the field of an illegal instruction (log entry 111), the check reads the whole image (log entry
107), what an accepted image clears (log entry 55), what an unload resets (log entry 67), the group named in a withdrawal (log entry 91). -/
def Obligations.PlansLoadAndUnload : Prop :=
  ∀ (s : State),
    (s.reachable .pln 0 →
      (s.rd R.PLN_IMAGE_STATE = 0 → s.rd R.PLN_LOAD_STATUS_STATE ≠ 1 → s.life.lcs.plans = true →
        ∃ t, exec .load s = .next t ∧ t = { s with loading := t.loading, regs := t.regs } ∧
          t.loading = some ⟨s.rd R.PLN_IMAGE_LO * 4096 + 2 ^ 32 * s.rd R.PLN_IMAGE_HI⟩ ∧ t.rd R.PLN_LOAD_STATUS_STATE = 1) ∧
      (s.rd R.PLN_IMAGE_STATE ≠ 0 ∨ s.rd R.PLN_LOAD_STATUS_STATE = 1 → exec .load s = .next s) ∧
      (s.rd R.PLN_IMAGE_STATE ≠ 1 → exec .unload s = .next s) ∧
      (s.rd R.PLN_IMAGE_STATE = 1 → s.reqs = [] → SMap.wf Group.reset s.groups = true →
        ((∀ d ∈ s.dealings, d.2.hand = checkHand) →
          ∃ t, exec .unload s = .next t ∧ t.image = none ∧ t.rd R.PLN_IMAGE_STATE = 0 ∧ t.done = [] ∧ t.cores = s.cores ∧ t.hbm = s.hbm) ∧
        ((∃ d ∈ s.dealings, d.2.hand ≠ checkHand) →
          ∃ t, exec .unload s = .next t ∧ t.image = s.image ∧ t.rd R.PLN_IMAGE_STATE = 2 ∧ t.done = s.done ∧ t.cores = s.cores))) ∧
    (∀ l, s.dealerUp = true → s.loading = some l → s.rd R.XPK_LOAD_STATE ≠ 3 →
      (∀ r, (s.loadEnv l.addr).check' = .error r → s.allTreePorts = [] →
        ∃ t, exec .planLoadDone s = .next t ∧ t.loading = none ∧ t.hbm.bytes = s.hbm.bytes ∧ t.cores = s.cores ∧
          (s.hbm.err = [] → t = { s with loading := none, regs := t.regs, events := t.events }) ∧ t.rd R.PLN_LOAD_STATUS_STATE = 3 ∧
          t.holds R.PLN_LOAD_STATUS_REASON r.reason ∧ t.holds R.PLN_LOAD_WHERE_HAND r.hand ∧ t.holds R.PLN_LOAD_WHERE_CORE r.core ∧
          t.holdsPair R.PLN_LOAD_OFFSET_LO R.PLN_LOAD_OFFSET_HI r.offset) ∧
      (∀ r, (s.loadEnv l.addr).check' = .error r → s.allTreePorts ≠ [] → s.rd R.PLN_IMAGE_STATE = 0 →
        ∃ t, exec .planLoadDone s = .next t ∧ t.loading = none ∧ t.hbm.bytes = s.hbm.bytes ∧ t.cores = s.cores ∧
          (s.hbm.err = [] → t = { s with loading := none, regs := t.regs, events := t.events, ports := t.ports }) ∧
          t.rd R.PLN_LOAD_STATUS_STATE = 3 ∧ t.holds R.PLN_LOAD_STATUS_REASON r.reason ∧ t.rd R.XPK_LOAD_STATE = 3 ∧
          ∀ q, (t.port q).tricks = (s.port q).tricks ++ (if q ∈ s.allTreePorts then [({ TrickFlit.plain 4 (s.portGroup q) 0 with
            code := t.rd R.PLN_LOAD_STATUS_CODE, origin := s.chipId } : TrickFlit).flit] else [])) ∧
      (∀ im, (s.loadEnv l.addr).check' = .ok im → s.rd R.XPK_LOAD_ABORT_HELD = 0 → (∀ g < 64, s.multi g = false) →
        ∃ t, exec .planLoadDone s = .next t ∧ t.image = some im ∧ t.loading = none ∧ t.rd R.PLN_IMAGE_STATE = 1 ∧
          t.rd R.PLN_LOAD_STATUS_STATE = 2 ∧ t.rd R.XPK_LOAD_STATE = 2 ∧ (∀ h, t.count h = 0) ∧ t.life.plans = s.life.plans + 1 ∧
          t.hbm.bytes = s.hbm.bytes ∧ t.cores = s.cores ∧
          (s.hbm.err = [] → ∀ i, 4096 * i < im.size → t.hbm.sealAt (im.addr + 4096 * i) = hostSeal (s.hbm.read (im.addr + 4096 * i) 4096)))) ∧
    (∀ l, s.dealerUp = true → s.loading = some l → s.rd R.XPK_LOAD_STATE = 3 → s.allTreePorts = [] →
      ∃ t, exec .planLoadDone s = .next t ∧ t = { s with loading := none, regs := t.regs } ∧ t.rd R.PLN_LOAD_STATUS_STATE = 3 ∧
        t.rd R.PLN_LOAD_STATUS_REASON = 0x10)

/-- R518, R520, R521, R536: STORE and ERASE of a section begin an operation, are refused for a section that the host may not name, and while
one is in progress, and ERASE of JOKER outside TEST and RETURN; an operation that ends well puts its data in the other bank, or blanks
both, and a failed one leaves the stored value. Model's choices, no rule of the spec: a command refused as busy leaves STATE busy (log
entry 38), when values are captured (log entry 51), the bytes of a digest (log entry 133). -/
def Obligations.MramStores : Prop :=
  ∀ (s : State),
    (∀ sect : Fin 16, s.reachable .nvm 0 →
      let begun (c : Instr) (store : Bool) : Prop := ∃ t o, exec c s = .next t ∧ t.rd R.NVM_STATUS_STATE = 1 ∧
        t.life.nvmNow = some o ∧ o.sect = (sect : Nat) ∧ o.store = store ∧ o.by' = .host ∧ t.mram = s.mram ∧ t.cores = s.cores
      let refused (c : Instr) (reason : Nat) : Prop := ∃ t, exec c s = .next t ∧ t = { s with regs := t.regs } ∧
        t.rd R.NVM_STATUS_STATE = 3 ∧ t.rd R.NVM_STATUS_REASON = reason
      (s.rd R.NVM_STATUS_STATE ≠ 1 →
        (s.nvmIdle → 1 ≤ (sect : Nat) → (sect : Nat) ≤ 6 → begun (.store sect) true) ∧
        (s.nvmIdle → 2 ≤ (sect : Nat) → (sect : Nat) ≤ 6 → begun (.erase sect) false) ∧
        (s.nvmIdle → (sect : Nat) = 1 → s.life.lcs = .test ∨ s.life.lcs = .ret → begun (.erase sect) false) ∧
        ((sect : Nat) = 0 ∨ 6 < (sect : Nat) → refused (.store sect) 1 ∧ refused (.erase sect) 1) ∧
        ((sect : Nat) = 1 → s.life.lcs ≠ .test → s.life.lcs ≠ .ret → refused (.erase sect) 3)) ∧
      (s.rd R.NVM_STATUS_STATE = 1 → ∀ c, c = Instr.store sect ∨ c = .erase sect →
        ∃ t, exec c s = .next t ∧ t = { s with regs := t.regs } ∧ t.rd R.NVM_STATUS_STATE = 1 ∧ t.rd R.NVM_STATUS_REASON = 2 ∧
          t.rd R.NVM_STATUS_SECTION = sect)) ∧
    (∀ o, s.life.nvmNow = some o → s.life.nvmWait = [] → s.life.resetDue = none →
      (∃ t, exec (.nvmOperationDone true) s = .next t ∧ t.life.nvmNow = none ∧ t.cores = s.cores ∧
        (o.store = true → t.stored o.sect = some o.data ∧ Counted s t R.NVM_CNT_STORE 0) ∧
        (o.store = false → t.sect o.sect = Section.blank) ∧ (∀ n, n ≠ o.sect → t.sect n = s.sect n) ∧
        (o.by' = .host → t.rd R.NVM_STATUS_STATE = 2)) ∧
      (∃ t, exec (.nvmOperationDone false) s = .next t ∧ t.life.nvmNow = none ∧ t.stored o.sect = s.stored o.sect ∧
        Counted s t R.NVM_CNT_WRITE_ERR 0 ∧ (∀ n, n ≠ o.sect → t.sect n = s.sect n) ∧
        (o.by' = .host → t.rd R.NVM_STATUS_STATE = 3 ∧ t.rd R.NVM_STATUS_REASON = 5) ∧ t.cores = s.cores)) ∧
    (∀ ok, s.life.nvmNow = none → exec (.nvmOperationDone ok) s = .next s)

/-- R503, R526, R527, R528, R529, R531, R532, R537: A life-cycle command begins, or is refused; it ends with the fuse-held state as it was or
one transition of R526 further, and never leaves VOID; EXIT_DEBUG goes back to FIELD. The attestation mailbox captures its nonce and
answers with the report, followed by its signature, or with the certificate chain; without an identity key it fails. Model's choices, no
rule of the spec: EXIT_DEBUG acts at once (log entry 38), the chain length, the signer in PROVISION and the owner key of M_LCS (log entry
124), failed and delayed operations (log entry 134), the order of fuse words (log entry 135), and the functions that the spec does not
define (log entry 13). -/
def Obligations.LifeCycleAndAttestation : Prop :=
  ∀ (s : State),
    (s.reachable .lcs 0 → s.rd R.LCS_STATUS_STATE ≠ 1 →
      let begun (c : Instr) (o : LcsOp) : Prop := ∃ t, exec c s = .next t ∧ t.rd R.LCS_STATUS_STATE = 1 ∧ t.life.op = some o ∧
        t.fuses = s.fuses ∧ t.mram = s.mram ∧ t.cores = s.cores
      let refused (c : Instr) (reason : Nat) : Prop := ∃ t, exec c s = .next t ∧ t.rd R.LCS_STATUS_STATE = 3 ∧
        t.rd R.LCS_STATUS_REASON = reason ∧ t.life.op = none ∧ t.fuses = s.fuses ∧ t.mram = s.mram
      (s.lcsStopped = true → refused .submit 9 ∧ refused .claimOwner 9 ∧ refused .cert 9) ∧
      (s.lcsStopped = false →
        (s.loaded = false ∨ s.life.lcs = .field → begun .submit (.submit s.loaded)) ∧
        (s.loaded = true → s.life.lcs ≠ .field → refused .submit 9) ∧ (s.ownerKey = none → begun .claimOwner .claim) ∧
        (s.ownerKey.isSome = true → refused .claimOwner 0xA) ∧
        (s.life.lcs = .provision → s.chain = [] → begun .cert .cert) ∧ (s.life.lcs ≠ .provision ∨ s.chain ≠ [] → refused .cert 0xA)) ∧
      (s.life.lcs = .fieldDebug → ∃ t, exec .exitDebug s = .next t ∧ t.life.lcs = .field ∧ t.rd R.LCS_STATUS_STATE = 2 ∧
        t.fuses = s.fuses) ∧
      (s.life.lcs ≠ .fieldDebug → exec .exitDebug s = .next s)) ∧
    (s.reachable .lcs 0 → s.rd R.LCS_STATUS_STATE = 1 → ∀ c ∈ [Instr.submit, .claimOwner, .cert, .exitDebug], exec c s = .next s) ∧
    (∀ o ok, s.life.op = some o → s.life.resetDue = none → s.mramBusy = true →
      ∃ t, exec (.lcsOperationDone ok) s = .next t ∧ (t = s ∨ t.life.op = none) ∧ t.mram = s.mram) ∧
    (∀ o ok, s.life.op = some o → s.life.resetDue = none → s.mramBusy = false →
      ∃ t, exec (.lcsOperationDone ok) s = .next t ∧ t.life.op = none ∧ t.cores = s.cores ∧
        (t.rd R.LCS_STATUS_STATE = 2 ∨ t.rd R.LCS_STATUS_STATE = 3) ∧ { t.fuses with lcs := s.fuses.lcs } = s.fuses ∧
        (t.fuses.lcs = s.fuses.lcs ∨ ((∃ b, o = .submit b) ∧ ok = true ∧ t.rd R.LCS_STATUS_STATE = 2 ∧ lcsFollows s.life.lcs t.fuses.lcs = true)) ∧
        (s.life.lcs = .void → t.fuses = s.fuses) ∧
        (∀ b, o = .submit b → t.life.nonce.length = 4) ∧
        (o = .claim → t.rd R.LCS_STATUS_STATE = 2 → t.ownerKey.isSome = true) ∧
        ((∀ b, o ≠ .submit b) → t.life.lcs = s.life.lcs) ∧ (o = .cert → t.rd R.LCS_STATUS_STATE = 3 → t.rd R.LCS_STATUS_REASON = 0xA)) ∧
    (s.reachable .att 0 → s.rd R.ATT_STATUS_STATE ≠ 1 → ∀ c k, (c, k) ∈ [(Instr.attestationReport, 0), (.certificateChain, 1)] →
      (s.life.identity = none → ∃ t, exec c s = .next t ∧ t.rd R.ATT_STATUS_STATE = 3 ∧ t.life.attOp = none ∧ t.rd R.ATT_STATUS_LENGTH = 0) ∧
      (s.life.identity.isSome = true → ∃ t, exec c s = .next t ∧ t.rd R.ATT_STATUS_STATE = 1 ∧ t.life.attOp = some k ∧
        t.life.attNonce = (List.range 8).flatMap (fun i => leBytes 4 (s.rd R.ATT_NONCE 0 i)) ∧ t.rd R.ATT_STATUS_LENGTH = 0)) ∧
    (∀ k, s.life.attOp = some k →
      ∃ t sig, exec .attResultReady s = .next t ∧ t.rd R.ATT_STATUS_STATE = 2 ∧ t.life.attOp = none ∧
        t.holds R.ATT_STATUS_LENGTH t.life.attData.length ∧ t.cores = s.cores ∧
        (k = 0 → t.life.attData = s.report ++ sig) ∧
        (k ≠ 0 → t.life.attData = (if s.life.lcs = .provision then s.life.identity.getD [] else s.chain)))

/-- R5, R6, R305, R352, R372, R480, R481, R482, R486: A host write of a register changes each of its unlocked fields by its access code and no
other field; a write of TIM_CFG also takes the time state that it asks for, one of XPK_PCFG what XPK_PSTATUS shows, and one of DPL_CMD
with an OP of no row is refused (its REASON is log entry 110); WSL_PAIR_CFG is left to WeightSlotsChange; a register of locked and
read-only fields stays as it is; one of FLT_HEALTH_RETIRE marks the cores at or above it, and one of WSL_CONVERT lets a waiting STAGE
convert; a misaligned write, one that does not enable all four bytes, and an access outside the page map are counted. A read returns at
least the bytes enabled. A read delivers the register and changes no register, all ones where the page is not answered; that of
SPM_DBG_DATA is SPM_DBG_READ, that of RTE_DATA_LO ROUTE_ENTRY_READ. A command of the host on a register page that is not answered has no
effect. Model's choices, no rule of the spec: the REASON of a pool command of no row (log entry 110), the row LATCHED_PAIR_READ is every
read (log entry 47), fields with a row of their own (log entry 79), where a bad access is counted (log entry 45), which writes a loaded
image locks (log entry 39). -/
def Obligations.RegistersAreAccessed : Prop :=
  (
  ∀ (s : State) (addr : Nat) (value : BitVec 32),
    (∀ b inst, pageAt addr = some (b, inst) → addr % 4 = 0 → s.reachable b inst → s.pageAbsent b inst = false →
      ddrOnly b inst (addr % 0x1000) = false →
      let fs := b.fieldsAt (addr % 0x1000)
      ((fs.map (fun y => y.1.key inst y.2)).Nodup → (∀ y ∈ fs, ¬setsLock (y.1.key inst y.2)) →
        (b, addr % 0x1000) ∉ [(Block.tim, 0x044), (.xpk, 0x058), (.dpl, 0x048), (.flt, 0x064), (.wsl, 0x054)] → (b = .wsl → addr % 0x1000 / 0x80 ≠ 2) →
        ∃ t, exec (.registerWrite (.bar0 addr 0xF#4) value) s = .next t ∧ t.cores = s.cores ∧ t.hbm = s.hbm ∧ t.tick = s.tick ∧
          FieldsKept s t (fs.map (fun y => y.1.key inst y.2)) ∧
          ∀ y ∈ fs, t.rd y.1 inst y.2 = if s.locked y.1 y.2 || y.1.ownCommand then s.rd y.1 inst y.2 else
            y.1.acc.after (s.rd y.1 inst y.2) (bitsOf value.toNat y.1.lsb y.1.width) y.1.width) ∧
      ((b, addr % 0x1000) = (.xpk, 0x058) → s.loaded = false →
        ∃ t, exec (.registerWrite (.bar0 addr 0xF#4) value) s = .next t ∧ t = { s with regs := t.regs } ∧
          (∀ y ∈ fs, t.rd y.1 inst y.2 = bitsOf value.toNat y.1.lsb y.1.width) ∧
          t.rd R.XPK_PSTATUS_STATE = t.rd R.XPK_PCFG_EN ∧
          FieldsKept s t (fs.map (fun y => y.1.key inst y.2) ++ [R.XPK_PSTATUS_STATE.key 0 0])) ∧
      ((b, addr % 0x1000) = (.flt, 0x064) →
        ∃ t, exec (.registerWrite (.bar0 addr 0xF#4) value) s = .next t ∧ t.cores = s.cores ∧ t.hbm = s.hbm ∧ t.tick = s.tick ∧
          t.rd R.FLT_HEALTH_RETIRE = value.toNat ∧
          (s.healthMode = false → FieldsKept s t [R.FLT_HEALTH_RETIRE.key 0 0]) ∧
          (s.healthMode = true → ∀ p < 176, s.outOfPlay p = false → (s.logicalOf p).isSome = true → value.toNat ≤ s.score p →
            SMap.get 0 t.flt.marked p = 0x0C03)) ∧
      ((b, addr % 0x1000) = (.wsl, 0x054) →
        ∃ t, exec (.registerWrite (.bar0 addr 0xF#4) value) s = .next t ∧ t.cores = s.cores ∧ t.hbm = s.hbm ∧ t.tick = s.tick ∧
          (∀ y ∈ fs, t.rd y.1 inst y.2 = bitsOf value.toNat y.1.lsb y.1.width) ∧
          FieldsKept s t (fs.map (fun y => y.1.key inst y.2) ++ [R.WSL_CNT_CONVERT.key 0 0]) ∧
          ∀ e m, s.wcmd = some (.stage e, m) → (s.wslot (2 * m + 1)).st = .retiring →
            (∀ r ∈ s.reqs, r.pins (2 * m + 1) (s.wslot (2 * m + 1)).epoch = true → bitOf (t.rd R.WSL_CONVERT) (r.key / 512) = true) →
            ∀ r ∈ t.reqs, r.pins (2 * m + 1) (s.wslot (2 * m + 1)).epoch = false) ∧
      ((b, addr % 0x1000) = (.dpl, 0x048) →
        (1 ≤ value.toNat % 16 → value.toNat % 16 ≤ 4 → exec (.registerWrite (.bar0 addr 0xF#4) value) s = .next s) ∧
        (value.toNat % 16 = 0 ∨ 4 < value.toNat % 16 →
          ∃ t, exec (.registerWrite (.bar0 addr 0xF#4) value) s = .next t ∧ t = { s with regs := t.regs } ∧ t.rd R.DPL_CMD_STATUS_STATE = 3 ∧
            t.rd R.DPL_CMD_STATUS_REASON = (if bitOf s.fuses.engines 7 then 3 else 1) ∧
            FieldsKept s t [R.DPL_CMD_STATUS_STATE.key 0 0, R.DPL_CMD_STATUS_REASON.key 0 0])) ∧
      ((b, addr % 0x1000) = (.tim, 0x044) → s.rd R.TIM_STATUS_ALT = 0 →
        ∃ t, exec (.registerWrite (.bar0 addr 0xF#4) value) s = .next t ∧ t.cores = s.cores ∧ t.tick = s.tick ∧ t.time = s.time ∧
          (∀ y ∈ fs, t.rd y.1 inst y.2 = bitsOf value.toNat y.1.lsb y.1.width) ∧
          t.rd R.TIM_STATUS_STATE = (if t.rd R.TIM_CFG_ROOT = 1 then 4 else if t.rd R.TIM_CFG_PARENT_VALID = 0 then 0
            else if s.rd R.TIM_STATUS_STATE = 0 ∨ s.rd R.TIM_STATUS_STATE = 4 then 1 else s.rd R.TIM_STATUS_STATE) ∧
          FieldsKept s t (fs.map (fun y => y.1.key inst y.2) ++ [R.TIM_STATUS_STATE, R.TIM_STATUS_STRATUM, R.TIM_STATUS_ALT,
            R.TIM_STATUS_PORT].map (fun f => f.key 0 0) ++ bringupKeys)) ∧
      ((b, addr % 0x1000) ≠ (.dpl, 0x048) →
        (∀ y ∈ fs, s.locked y.1 y.2 = true ∨ y.1.ownCommand = true ∨ y.1.acc = .ro ∨ y.1.acc = .wo) →
        exec (.registerWrite (.bar0 addr 0xF#4) value) s = .next s)) ∧
    (∀ b inst (enable : BitVec 4), pageAt addr = some (b, inst) → addr % 4 ≠ 0 ∨ enable ≠ 0xF#4 → s.answers b = true →
      ∃ t, exec (.registerWrite (.bar0 addr enable) value) s = .next t ∧ t = { s with regs := t.regs } ∧ Counted s t R.HIF_CNT_BAD_ACCESS 0 ∧
        FieldsKept s t [R.HIF_CNT_BAD_ACCESS.key 0 0]) ∧
    (∀ b inst (enable : BitVec 4), pageAt addr = some (b, inst) → s.answers b = false →
      exec (.registerWrite (.bar0 addr enable) value) s = .next s) ∧
    (pageAt addr = none → s.answers .hif = true →
      (∃ t, exec (.registerWrite (.bar0 addr 0xF#4) value) s = .next t ∧ Counted s t R.HIF_CNT_BAD_ACCESS 0 ∧
        FieldsKept s t [R.HIF_CNT_BAD_ACCESS.key 0 0]) ∧
      exec (.latchedPairRead (.bar0 addr 0xF#4)) s = .next { s with outbox := s.outbox ++ [.readData 0] }) ∧
    (∀ b inst (enable : BitVec 4), pageAt addr = some (b, inst) → s.reachable b inst →
      (b, addr % 0x1000 / 4 * 4) ∉ [(Block.spm, 0x064), (.rte, 0x044)] →
      let word := s.readWord b inst (addr % 0x1000 / 4 * 4)
      ∃ t v, exec (.latchedPairRead (.bar0 addr enable)) s = .next t ∧ t = { s with latches := t.latches, outbox := t.outbox } ∧
        t.outbox = s.outbox ++ [.readData v] ∧ (enable = 0xF#4 → v = word) ∧
        (∀ i : Nat, i < 4 → enable.getLsbD i = true → bitsOf v (8 * i) 8 = bitsOf word (8 * i) 8) ∧
        (b.isLo (addr % 0x1000 / 4 * 4) = true →
          SMap.get noLatch t.latches (b.page inst + addr % 0x1000 / 4 * 4) = s.word b inst (addr % 0x1000 / 4 * 4 + 4)) ∧
        (b.isLo (addr % 0x1000 / 4 * 4) = false → t.latches = s.latches)) ∧
    (∀ b inst, pageAt addr = some (b, inst) → s.reached = true → s.answers b = false →
      exec (.latchedPairRead (.bar0 addr 0xF#4)) s = .next { s with outbox := s.outbox ++ [.readData 0xFFFFFFFF] }) ∧
    (∀ p : Fin 176, exec (.latchedPairRead (.bar0 (Block.page .spm p + 0x064) 0xF#4)) s = exec (.spmDbgRead p) s) ∧
    exec (.latchedPairRead (.bar0 (Block.page .rte 0 + 0x044) 0xF#4)) s = exec .routeEntryRead s) ∧
  (
  ∀ (s : State) (c : Instr) (b : Block) (inst : Nat), commandPage c = some (b, inst) → s.answers b = false → exec c s = .next s)

/-- R483, R484, R499: EVT_FORCE sets the events it names, with EVT_FIRST; a write of EVT_ENABLE or PAGE_CTRL takes its field; each sends the
page's message when the message condition has become true, and only then. Model's choices, no rule of the spec: a message needs no Bus
Master Enable (log entry 42), where a bad access is counted (log entry 45), and these registers are written by their own rows (log entry
79). -/
def Obligations.PageEventsSignal : Prop :=
  ∀ (s : State) (page : Nat) (value : BitVec 32) (b : Block) (inst : Nat), pageAt page = some (b, inst) → s.reachable b inst →
    b.events ≠ [] → s.pageAbsent b inst = false →
    let sent (t : State) : Prop := t.cores = s.cores ∧
      (s.pageCond b inst = false → t.pageCond b inst = true → t.pageSends b inst →
        t.outbox = s.outbox ++ [s.msixOut 0 (t.rd (R.PAGE_CTRL_VECTOR b) inst)]) ∧
      (s.pageCond b inst = true ∨ t.pageCond b inst = false → t.outbox = s.outbox ∧ t.msixPend = s.msixPend)
    (s.eventBits b value.toNat ≠ 0 →
      ∃ t, exec (.evtForce page value) s = .next t ∧ sent t ∧
        EventsStand s t b inst (s.eventBits b value.toNat) (b.firstCode (s.eventBits b value.toNat))) ∧
    (s.eventBits b value.toNat = 0 → exec (.evtForce page value) s = .next s) ∧
    (∃ t, exec (.evtEnableWrite page value) s = .next t ∧ sent t ∧ t.rd (R.EVT_ENABLE b) inst = s.eventBits b value.toNat ∧
      t.rd (R.EVT_STATUS b) inst = s.rd (R.EVT_STATUS b) inst) ∧
    (∃ t, exec (.pageCtrlWrite page value) s = .next t ∧ sent t ∧
      t.rd (R.PAGE_CTRL_VECTOR b) inst = bitsOf value.toNat 0 11 ∧ t.rd (R.PAGE_CTRL_MSG_EN b) inst = bitsOf value.toNat 11 1 ∧
      t.rd (R.EVT_STATUS b) inst = s.rd (R.EVT_STATUS b) inst)

/-- R131, R135, R201, R210, R224, R232, R235, R282, R381, R474, R475, R476, R477, R478, R486, R488, R490, R491, R493, R498, R499, R500:
SPM_DBG_DATA reads and writes the word that SPM_DBG_ADDR names, where debug pages are open and no other access meets it; an injection
waits for the next tile or block; the discard bin of a port is cleared. The physical function writes device memory through BAR2, which
clears VALID of the tile's seal and keeps its POISON, and reads it, an uncorrectable word poisoning the completion; where an instruction
in progress touches the same lines, each written line holds the data of either writer and no other byte changes; a virtual function does
neither; unmasking a vector, or a function, sends the messages that wait for it. The host reads and writes the BAR4 of a function, where a
request log reads as last written, reserved offsets as 0, and the MSI-X table of the function's own region takes addresses, data and
masks; and its configuration space: a register reads as R474 and R475 have it, that of a function that is not there as all ones; BME, MSE,
the Completion Timeout Value, D3hot, MSI-X Enable and the function mask, and the number of virtual functions with VF Enable take writes.
Model's choices, no rule of the spec: accesses to BAR4 and configuration space are rows of register accesses (log entry 84), values of the
PCI Express standard (log entry 141), accesses that meet are ordered by free values (log entries 16 and 64), closed pages read 0 for gated
cores too (log entry 46), and what D3hot stops (log entry 44). -/
def Obligations.DebugAndDeviceMemory : Prop :=
  (
  ∀ (s : State),
    (∀ p : Fin 176,
      (s.reachable .spm p → s.debugOpen = true → (s.core p).region = .running →
        let a := 4 * s.rd R.SPM_DBG_ADDR p
        ((s.core p).spmErr = [] → s.rowsFree p 14 false a 4 → ∃ t, exec (.spmDbgRead p) s = .next t ∧
          t.outbox = s.outbox ++ [.readData (leNat ((s.core p).spmRead a 4))] ∧ t.cores = s.cores) ∧
        (∀ v : Nat, s.rowsFree p 14 true a 4 →
          ∃ t, exec (.spmDbgWrite p v) s = .next t ∧ t = { s with cores := t.cores, recent := t.recent, events := t.events } ∧
          CoresKept s t [(p : Nat)] ∧ (t.core p).flags = (s.core p).flags ∧ (∀ x, x / 4096 ≠ a / 4096 → (t.core p).sealAt x = (s.core p).sealAt x) ∧
          (t.core p).sealAt a = unsealed (sealPoison ((s.core p).sealAt a)) ∧
          ∀ x, SMap.get 0#8 (t.core p).spm x =
            if a ≤ x ∧ x < a + 4 then (leBytes 4 v).getD (x - a) 0#8 else SMap.get 0#8 (s.core p).spm x)) ∧
      (s.debugOpen = false → ∀ v : Nat, s.reachable .spm p → exec (.spmDbgWrite p v) s = .next s) ∧
      (s.reachable .mxu p → exec (.mxuInject p) s = .next (s.setCore p { s.core p with mxuInject := true })) ∧
      (s.reachable .sea p → exec (.seaInject p) s = .next (s.setCore p { s.core p with seaInject := true }))) ∧
    (∀ port : Fin 16, s.reachable .lnk port → s.portAbsent port = false →
      ∃ t, exec (.lnkBinClear port) s = .next t ∧ t = { s with ports := t.ports, regs := t.regs } ∧ (t.port port).bin = [] ∧
        t.rd R.LNK_BIN_STATUS_COUNT port = 0 ∧ t.rd R.LNK_BIN_STATUS_FULL port = 0 ∧
        (∀ q, q ≠ (port : Nat) → t.port q = s.port q) ∧
        FieldsKept s t [R.LNK_BIN_STATUS_COUNT.key port 0, R.LNK_BIN_STATUS_FULL.key port 0])) ∧
  (
  ∀ (s : State),
    (∀ (o : Nat) (bs : List Byte), s.bar2Reaches o bs.length →
      ∃ t, exec (.bar2Write 0 o bs) s = .next t ∧ t.cores = s.cores ∧ t.ddr = s.ddr ∧
        (∀ a, a < s.bar2 o ∨ s.bar2 o + bs.length ≤ a → t.hbmByte a = s.hbmByte a) ∧
        (∀ a, s.bar2 o ≤ a → a < s.bar2 o + bs.length →
          t.hbmByte a = bs.getD (a - s.bar2 o) 0#8 ∨ t.hbmByte a = s.hbmByte a) ∧
        (∀ a, a / 4096 ≠ s.bar2 o / 4096 → t.hbm.sealAt a = s.hbm.sealAt a) ∧
        (s.hbmFree true (s.bar2 o) bs.length → t = { s with hbm := t.hbm, events := t.events } ∧
          (∀ a, s.bar2 o ≤ a → a < s.bar2 o + bs.length → t.hbmByte a = bs.getD (a - s.bar2 o) 0#8) ∧
          t.hbm.sealAt (s.bar2 o) = unsealed (sealPoison (s.hbm.sealAt (s.bar2 o))))) ∧
    (∀ (o n : Nat), s.bar2Reaches o n → s.hbm.err = [] →
      ∃ t, exec (.bar2Read 0 o n) s = .next t ∧ t.hbm = s.hbm ∧ t.cores = s.cores ∧ t.ddr = s.ddr ∧
        (s.hbmFree false (s.bar2 o) n → t.outbox = s.outbox ++ [.readBytes false (s.hbm.read (s.bar2 o) n)])) ∧
    (∀ (f : Fin 16) o bs n, f ≠ 0 → exec (.bar2Write f o bs) s = .next s ∧ exec (.bar2Read f o n) s = .next s) ∧
    (∀ (o n : Nat), s.reached = true → s.memStopped = true → o + n ≤ 2 ^ 36 →
      exec (.bar2Read 0 o n) s = .next { s with outbox := s.outbox ++ [.readBytes false (List.replicate n 0xFF#8)] }) ∧
    (∀ (f : Fin 16) (e : Fin 2048), s.dealerUp = true → s.fnReached f = true → (e : Nat) < msixSize f →
      let k := 2048 * (f : Nat) + e
      ∃ t, exec (.msixUnmask f (some e)) s = .next t ∧ SMap.get true t.msixMask k = false ∧ t.regs = s.regs ∧ t.cores = s.cores ∧
        (SMap.get false s.msixPend k = true → SMap.get false s.msixFnMask f = false → s.rd R.HIF_FUNC_MSIX_EN 0 f = 1 →
          t.outbox = s.outbox ++ [s.msixOut f e] ∧ SMap.get false t.msixPend k = false) ∧
        (SMap.get false s.msixPend k = false → t.outbox = s.outbox)) ∧
    (∀ f : Fin 16, s.pcieUp = true → s.fnPresent f = true →
      ∃ t, exec (.msixUnmask f none) s = .next t ∧ SMap.get false t.msixFnMask f = false ∧ FieldsKept s t [] ∧ t.cores = s.cores ∧
        ∀ e < msixSize f, SMap.get true s.msixMask (2048 * (f : Nat) + e) = false → s.rd R.HIF_FUNC_MSIX_EN 0 f = 1 →
          SMap.get false t.msixPend (2048 * (f : Nat) + e) = false)) ∧
  (
  ∀ (s : State) (f : Fin 16) (value : BitVec 32),
    (∀ off, s.fnReached f = true → exec (.latchedPairRead (.bar4 f off)) s =
      .next { s with outbox := s.outbox ++ [.readData (if s.dealerUp = true ∨ s.pkg = .down then s.bar4Word f off else 0xFFFFFFFF)] }) ∧
    (∀ off, s.fnReached f = false ∨ s.dealerUp = false → exec (.registerWrite (.bar4 f off) value) s = .next s) ∧
    (∀ off, 0x10040 ≤ off % 2 ^ 20 → off % 2 ^ 20 < 0x80000 →
      s.bar4Word f off = 0 ∧ exec (.registerWrite (.bar4 f off) value) s = .next s) ∧
    (∀ off, s.fnReached f = true → s.dealerUp = true →
      (off % 2 ^ 20 + 4 ≤ 0x10004 → ∃ t, exec (.registerWrite (.bar4 f off) value) s = .next t ∧ t = { s with funcs := t.funcs } ∧
        t.bar4Word f off = value.toNat ∧ ∀ g, g ≠ regionOf f off → t.func g = s.func g) ∧
      (∀ (e : Fin 2048) (w : Fin 4), (e : Nat) < msixSize f → regionOf f off = (f : Nat) → off % 2 ^ 20 = 0x80000 + 16 * (e : Nat) + 4 * (w : Nat) →
        ((w : Nat) < 3 → ∃ t, exec (.registerWrite (.bar4 f off) value) s = .next t ∧ t = { s with msixEntry := t.msixEntry } ∧
          t.bar4Word f off = if (w : Nat) = 0 then value.toNat / 4 * 4 else value.toNat) ∧
        ((w : Nat) = 3 → value.toNat % 2 = 0 →
          exec (.registerWrite (.bar4 f off) value) s = exec (.msixUnmask f (some e)) s) ∧
        ((w : Nat) = 3 → value.toNat % 2 = 1 → ∃ t, exec (.registerWrite (.bar4 f off) value) s = .next t ∧
          t = { s with msixMask := t.msixMask } ∧ SMap.get true t.msixMask (2048 * (f : Nat) + e) = true ∧ t.bar4Word f off = 1))) ∧
    (∀ r, (s.pcieUp = false → exec (.latchedPairRead (.config f r)) s = .next s) ∧
      (s.pcieUp = true → exec (.latchedPairRead (.config f r)) s =
        .next { s with outbox := s.outbox ++ [.readData (if s.fnPresent f = true then s.cfgRead f r else 0xFFFFFFFF)] }) ∧
      (s.pcieUp = false ∨ s.fnPresent f = false → exec (.registerWrite (.config f r) value) s = .next s)) ∧
    s.cfgRead 0 .id / 2 ^ 16 = 0x0250 ∧ s.cfgRead 0 .subsystem = s.subsys ∧ s.cfgRead 0 .sriovVfs % 2 ^ 16 = 15 ∧
    (s.pcieUp = true → s.fnPresent f = true →
      (∃ t, exec (.registerWrite (.config f .command) value) s = .next t ∧ t = { s with regs := t.regs } ∧
        t.rd R.HIF_FUNC_BME 0 f = value.toNat / 4 % 2 ∧
        t.rd R.HIF_FUNC_MSE 0 f = (if (f : Nat) = 0 then value.toNat / 2 % 2 else s.rd R.HIF_FUNC_MSE 0 f)) ∧
      (∃ t, exec (.registerWrite (.config f .devCtl2) value) s = .next t ∧ t = { s with pcie := t.pcie } ∧
        (t.fnCfg f).timeout = value.toNat % 16) ∧
      (value.toNat % 4 = 0 → ∃ t, exec (.registerWrite (.config f .power) value) s = .next t ∧ t = { s with regs := t.regs } ∧
        t.rd R.HIF_FUNC_D3HOT 0 f = 0) ∧
      (value.toNat % 4 = 3 → s.rd R.HIF_FUNC_D3HOT 0 f = 0 →
        exec (.registerWrite (.config f .power) value) s = exec (.d3hotEntry f) s) ∧
      (∃ t, exec (.registerWrite (.config f .msixCtl) value) s = .next t ∧ t.rd R.HIF_FUNC_MSIX_EN 0 f = value.toNat / 2 ^ 31 % 2 ∧
        (SMap.get false t.msixFnMask f = true ↔ value.toNat / 2 ^ 30 % 2 = 1) ∧ t.cores = s.cores ∧
        FieldsKept s t [R.HIF_FUNC_MSIX_EN.key 0 f])) ∧
    (s.pcieUp = true → (s.fnCfg 0).vfEnable = false → value.toNat % 2 = 1 →
      ∃ t, exec (.registerWrite (.config 0 .sriovCtl) value) s = .next t ∧ (t.fnCfg 0).vfEnable = true ∧ t.cores = s.cores ∧
        ∀ g, 1 ≤ g → g < 16 → t.rd R.HIF_FUNC_PRESENT 0 g = if g ≤ (s.fnCfg 0).numVfs then 1 else s.rd R.HIF_FUNC_PRESENT 0 g) ∧
    (s.pcieUp = true → value.toNat % 2 = 0 →
      ∃ t, exec (.registerWrite (.config 0 .sriovCtl) value) s = .next t ∧ (t.fnCfg 0).vfEnable = false ∧ t.cores = s.cores ∧
        ∀ g, 1 ≤ g → g < 16 → t.rd R.HIF_FUNC_PRESENT 0 g = 0 ∧ t.rd R.SRV_FUNC_EN 0 g = 0))

/-- R301: A write of RTE_DATA_LO stores the last value written to RTE_DATA_HI, together with the written low word, into entry INDEX, but for
the entry's reserved bits, which stay 0, and INDEX is one higher; while a plan image is loaded nothing is stored; a read of it returns the
low word of entry INDEX and latches its high word into RTE_DATA_HI, which the next write of an entry does not take; after a package reset
every entry is 0, which is invalid. -/
def Obligations.RouteEntriesAreAccessed : Prop :=
  (∀ i, SMap.get 0 State.reset.routes i = 0 ∧ (State.reset.route i).kind = 0) ∧
  ∀ (s : State), s.reachable .rte 0 →
    s.view R.RTE_STATUS 0 0 = (if s.loaded then 1 else 0) ∧
    (s.loaded = false → ∀ value : BitVec 32,
      (∃ t, exec (.registerWrite (.bar0 (Block.page .rte 0 + 0x040) 0xF#4) value) s = .next t ∧ t = { s with regs := t.regs } ∧
        t.rd R.RTE_ADDR = value.toNat % 4096 ∧ FieldsKept s t [R.RTE_ADDR.key 0 0]) ∧
      (∃ t, exec (.registerWrite (.bar0 (Block.page .rte 0 + 0x048) 0xF#4) value) s = .next t ∧ t = { s with regs := t.regs, routeHi := t.routeHi } ∧
        t.routeHi = value.toNat ∧ t.rd R.RTE_DATA_HI = value.toNat ∧ FieldsKept s t [R.RTE_DATA_HI.key 0 0]) ∧
      (∃ t, exec (.routeEntryWrite value) s = .next t ∧ t = { s with routes := t.routes, regs := t.regs } ∧
        t.rd R.RTE_ADDR = (s.rd R.RTE_ADDR + 1) % 4096 ∧ FieldsKept s t [R.RTE_ADDR.key 0 0] ∧
        ∀ i, SMap.get 0 t.routes i =
          if i = s.rd R.RTE_ADDR then (value.toNat + 2 ^ 32 * s.routeHi) % 2 ^ 60 else SMap.get 0 s.routes i)) ∧
    (s.loaded = true → ∀ value : BitVec 32, exec (.routeEntryWrite value) s = .next s ∧
      exec (.registerWrite (.bar0 (Block.page .rte 0 + 0x048) 0xF#4) value) s = .next s) ∧
    (∀ off, off = 0x040 ∨ off = 0x048 ∨ off = 0x04C → ∃ t, exec (.latchedPairRead (.bar0 (Block.page .rte 0 + off) 0xF#4)) s = .next t ∧
      t.outbox = s.outbox ++ [.readData (if off = 0x040 then s.rd R.RTE_ADDR % 2 ^ 12 else if off = 0x048 then s.rd R.RTE_DATA_HI % 2 ^ 32
        else if s.loaded then 1 else 0)]) ∧
    exec (.latchedPairRead (.bar0 (Block.page .rte 0 + 0x044) 0xF#4)) s = exec .routeEntryRead s ∧
    (let v := SMap.get 0 s.routes (s.rd R.RTE_ADDR)
     ∃ t, exec .routeEntryRead s = .next t ∧ t = { s with regs := t.regs, outbox := t.outbox } ∧
      t.outbox = s.outbox ++ [.readData (v % 2 ^ 32)] ∧ t.rd R.RTE_DATA_HI = v / 2 ^ 32 % 2 ^ 32 ∧
      FieldsKept s t [R.RTE_DATA_HI.key 0 0])

/-- R487: A die is asleep from the moment it begins to power-gate until its wake completes, as HIF_AWAKE shows, the hub never; a read of a
page of an asleep die, or of its stack through BAR2, returns all ones, a write is dropped; each is counted in FLT_CNT_ASLEEP with its
event and wakes nothing. PWR_HOLD_AWAKE wakes a die. PAGE_ID never reads all ones, and DIE is at most 24. -/
def Obligations.AsleepDiesAnswerNothing : Prop :=
  ∀ (s : State),
    (∀ b inst addr, pageAt addr = some (b, inst) → b.die inst ≤ 24 ∧ b.pageId inst ≠ 0xFFFFFFFF) ∧
    s.awake 24 = true ∧ (∀ d < 24, s.awake d = true ↔ (s.die d).power = .awake) ∧
    (∀ d ≤ 24, bitOf (s.view R.HIF_AWAKE 0 0) d = s.awake d) ∧
    (∀ c b inst, commandPage c = some (b, inst) → s.answers b = true → s.awake (b.die inst) = false →
      ∃ t, exec c s = .next t ∧ AsleepAccessed s t []) ∧
    (∀ addr b inst, pageAt addr = some (b, inst) → s.answers b = true → s.awake (b.die inst) = false →
      (addr % 4 = 0 → ∀ value : BitVec 32, ∃ t, exec (.registerWrite (.bar0 addr 0xF#4) value) s = .next t ∧ AsleepAccessed s t []) ∧
      ∃ t, exec (.latchedPairRead (.bar0 addr 0xF#4)) s = .next t ∧ AsleepAccessed s t [.readData 0xFFFFFFFF]) ∧
    (∀ p : Fin 176, s.answers .spm = true → s.awake (Block.spm.die p) = false →
      ∃ t, exec (.spmDbgRead p) s = .next t ∧ AsleepAccessed s t [.readData 0xFFFFFFFF]) ∧
    (∀ o n, s.reached = true → s.memStopped = false → 0 < n → o + n ≤ 2 ^ 36 → stackOf (s.bar2 o) = stackOf (s.bar2 o + n - 1) →
      s.stackAsleep (s.bar2 o) = true →
      (∃ t, exec (.bar2Read 0 o n) s = .next t ∧ AsleepAccessed s t [.readBytes false (List.replicate n 0xFF#8)]) ∧
      (∀ bs : List Byte, bs.length = n → ∃ t, exec (.bar2Write 0 o bs) s = .next t ∧ AsleepAccessed s t [])) ∧
    (∀ dies : BitVec 24, s.reachable .pwr 0 → s.pkg = .running →
      ∃ t, exec (.pwrHoldAwakeWrite dies) s = .next t ∧ t.rd R.PWR_HOLD_AWAKE = dies.toNat ∧ t.cores = s.cores ∧
        ∀ d < 24, (bitOf dies.toNat d = true → (s.die d).power = .gated → (s.die d).tested = false ∨ (s.die d).passed = true ∨ 16 ≤ d →
          (t.die d).power = .waking) ∧ (bitOf dies.toNat d = false → t.die d = s.die d))
end

