-- ==== Sys2Proof/Laws/SMap.lean ====
section
/-! SUPPORT. Laws of sparse maps: a read after a write, writes of other keys, runs, and that every operation keeps the canonical form. -/

namespace Sys2Proof.Machine

variable {α : Type}

/-! ## Reads -/

@[simp] theorem SMap.get_nil (d : α) (k : Nat) : SMap.get d [] k = d := rfl

/-- A key that no entry has reads the default. -/
theorem SMap.get_of_notin (d : α) (m : SMap α) (k : Nat) (h : ∀ e ∈ m, e.1 ≠ k) : SMap.get d m k = d := by
  induction m with
  | nil => rfl
  | cons e m ih =>
    obtain ⟨k', v⟩ := e
    have h1 : k' ≠ k := h (k', v) (by simp)
    simp only [SMap.get, h1, if_false]
    exact ih (fun e he => h e (by simp [he]))

/-- A read looks into the first part of a map, then into the second. -/
theorem SMap.get_append (d : α) (m n : SMap α) (k : Nat) :
    SMap.get d (m ++ n) k = if (∃ e ∈ m, e.1 = k) then SMap.get d m k else SMap.get d n k := by
  induction m with
  | nil => simp
  | cons e m ih =>
    obtain ⟨k', v⟩ := e
    by_cases h : k' = k
    · subst h
      have : ∃ e ∈ (k', v) :: m, e.1 = k' := ⟨(k', v), by simp, rfl⟩
      simp [SMap.get]
    · simp only [List.cons_append, SMap.get, h, if_false, ih]
      have : (∃ e ∈ (k', v) :: m, e.1 = k) ↔ ∃ e ∈ m, e.1 = k := by
        constructor
        · rintro ⟨e, he, hk⟩
          rcases List.mem_cons.1 he with rfl | he
          · exact absurd hk h
          · exact ⟨e, he, hk⟩
        · rintro ⟨e, he, hk⟩
          exact ⟨e, by simp [he], hk⟩
      simp only [this]

/-- A read of a filtered map at a key that the filter keeps. -/
theorem SMap.get_filter (d : α) (m : SMap α) (k : Nat) (p : Nat × α → Bool) (q : Nat → Bool) (hp : ∀ e, p e = q e.1)
    (hk : q k = true) : SMap.get d (m.filter p) k = SMap.get d m k := by
  induction m with
  | nil => rfl
  | cons e m ih =>
    obtain ⟨k', v⟩ := e
    by_cases h : k' = k
    · subst h
      simp [hp, hk, SMap.get]
    · by_cases hq : q k' = true
      · simp [hp, hq, SMap.get, h, ih]
      · simp [hp, hq, SMap.get, h, ih]

/-- A read of a filtered map at a key that the filter drops. -/
theorem SMap.get_filter_out (d : α) (m : SMap α) (k : Nat) (p : Nat × α → Bool) (q : Nat → Bool) (hp : ∀ e, p e = q e.1)
    (hk : q k = false) : SMap.get d (m.filter p) k = d := by
  apply SMap.get_of_notin
  intro e he h
  have := (List.mem_filter.1 he).2
  rw [hp, h, hk] at this
  exact Bool.noConfusion this

/-- Keys of a run lie in it. -/
theorem SMap.run_keys [DecidableEq α] (d : α) (vs : List α) : ∀ (k : Nat), ∀ e ∈ SMap.run d k vs, k ≤ e.1 ∧ e.1 < k + vs.length := by
  induction vs with
  | nil => intro k e he; simp [SMap.run] at he
  | cons v vs ih =>
    intro k e he
    simp only [SMap.run] at he
    split at he
    · have := ih (k + 1) e he
      simp only [List.length_cons]; omega
    · rcases List.mem_cons.1 he with rfl | he
      · simp
      · have := ih (k + 1) e he
        simp only [List.length_cons]; omega

/-- A read of a run. -/
theorem SMap.get_run [DecidableEq α] (d : α) (vs : List α) : ∀ (k i : Nat), SMap.get d (SMap.run d k vs) (k + i) = vs.getD i d := by
  induction vs with
  | nil => intro k i; simp [SMap.run]
  | cons v vs ih =>
    intro k i
    cases i with
    | zero =>
      simp only [SMap.run]
      split
      · rename_i h
        rw [SMap.get_of_notin]
        · simp [h]
        · intro e he
          have := SMap.run_keys d vs (k + 1) e he
          omega
      · simp [SMap.get]
    | succ i =>
      have h : k + (i + 1) = (k + 1) + i := by omega
      simp only [SMap.run]
      split
      · rw [h, ih]; simp
      · rw [h]
        have : ¬ k = k + 1 + i := by omega
        simp [SMap.get, this, ih]

/-- A read after a write: the written key has the value, every other key what it had. -/
theorem SMap.get_set [DecidableEq α] (d : α) (m : SMap α) (k i : Nat) (v : α) :
    SMap.get d (SMap.set d m k v) i = if i = k then v else SMap.get d m i := by
  unfold SMap.set SMap.cut
  by_cases h : i = k
  · subst h
    rw [if_pos rfl, SMap.get_append, SMap.get_append]
    have h1 : ¬ ∃ e ∈ m.filter (fun e => decide (e.1 < i)), e.1 = i := by
      rintro ⟨e, he, hk⟩
      have := (List.mem_filter.1 he).2
      simp [hk] at this
    by_cases hv : v = d
    · simp only [hv, if_true, List.append_nil, h1, if_false]
      have h2 : SMap.get d (m.filter (fun e => decide (i + 1 ≤ e.1))) i = d :=
        SMap.get_filter_out d m i _ (fun k => decide (i + 1 ≤ k)) (fun _ => rfl) (by simp)
      rw [h2]
    · simp only [hv, if_false, h1]
      have h3 : ∃ e ∈ m.filter (fun e => decide (e.1 < i)) ++ [(i, v)], e.1 = i := ⟨(i, v), by simp, rfl⟩
      rw [if_pos h3]
      simp [SMap.get]
  · rw [if_neg h, SMap.get_append, SMap.get_append]
    have hs : ∀ (x : SMap α), x = (if v = d then [] else [(k, v)]) → SMap.get d x i = d := by
      intro x hx
      subst hx
      apply SMap.get_of_notin
      intro e he
      split at he
      · simp at he
      · simp at he; rw [he]; exact fun hk => h hk.symm
    have hn : ¬ ∃ e ∈ (if v = d then ([] : SMap α) else [(k, v)]), e.1 = i := by
      rintro ⟨e, he, hk⟩
      split at he
      · simp at he
      · simp at he; rw [he] at hk; exact h hk.symm
    by_cases hlt : i < k
    · have h1 : SMap.get d (m.filter (fun e => decide (e.1 < k))) i = SMap.get d m i :=
        SMap.get_filter d m i _ (fun j => decide (j < k)) (fun _ => rfl) (by simp [hlt])
      have h2 : SMap.get d (m.filter (fun e => decide (k + 1 ≤ e.1))) i = d :=
        SMap.get_filter_out d m i _ (fun j => decide (k + 1 ≤ j)) (fun _ => rfl) (by simp; omega)
      rw [h1, h2, hs _ rfl]
      by_cases hx : ∃ e ∈ m.filter (fun e => decide (e.1 < k)), e.1 = i
      · have : ∃ e ∈ m.filter (fun e => decide (e.1 < k)) ++ (if v = d then [] else [(k, v)]), e.1 = i := by
          obtain ⟨e, he, hk⟩ := hx
          exact ⟨e, by simp [he], hk⟩
        rw [if_pos this, if_pos hx]
      · have hm : SMap.get d m i = d := by
          rw [← h1]; exact SMap.get_of_notin d _ i (fun e he hk => hx ⟨e, he, hk⟩)
        rw [hm]; simp
    · have hgt : k + 1 ≤ i := by omega
      have h1 : SMap.get d (m.filter (fun e => decide (k + 1 ≤ e.1))) i = SMap.get d m i :=
        SMap.get_filter d m i _ (fun j => decide (k + 1 ≤ j)) (fun _ => rfl) (by simp [hgt])
      have hn2 : ¬ ∃ e ∈ m.filter (fun e => decide (e.1 < k)) ++ (if v = d then [] else [(k, v)]), e.1 = i := by
        rintro ⟨e, he, hk⟩
        rcases List.mem_append.1 he with he | he
        · have := (List.mem_filter.1 he).2
          simp [hk] at this
          omega
        · exact hn ⟨e, he, hk⟩
      rw [if_neg hn2, h1]

/-- A read of the key just written. -/
@[simp] theorem SMap.get_set_same [DecidableEq α] (d : α) (m : SMap α) (k : Nat) (v : α) :
    SMap.get d (SMap.set d m k v) k = v := by rw [SMap.get_set]; simp

/-- A read of another key. -/
theorem SMap.get_set_ne [DecidableEq α] (d : α) (m : SMap α) {k i : Nat} (v : α) (h : i ≠ k) :
    SMap.get d (SMap.set d m k v) i = SMap.get d m i := by rw [SMap.get_set]; simp [h]

/-- A read after a run of writes. -/
theorem SMap.get_setRun [DecidableEq α] (d : α) (m : SMap α) (k i : Nat) (vs : List α) :
    SMap.get d (SMap.setRun d m k vs) i = if k ≤ i ∧ i < k + vs.length then vs.getD (i - k) d else SMap.get d m i := by
  unfold SMap.setRun SMap.cut
  have hlo : ∀ j, j < k → SMap.get d (m.filter (fun e => decide (e.1 < k))) j = SMap.get d m j := fun j hj =>
    SMap.get_filter d m j _ (fun x => decide (x < k)) (fun _ => rfl) (by simp [hj])
  have hlo' : ∀ j, ¬ j < k → SMap.get d (m.filter (fun e => decide (e.1 < k))) j = d := fun j hj =>
    SMap.get_filter_out d m j _ (fun x => decide (x < k)) (fun _ => rfl) (by simpa using hj)
  have hhi : ∀ j, k + vs.length ≤ j → SMap.get d (m.filter (fun e => decide (k + vs.length ≤ e.1))) j = SMap.get d m j := fun j hj =>
    SMap.get_filter d m j _ (fun x => decide (k + vs.length ≤ x)) (fun _ => rfl) (by simp [hj])
  have hhi' : ∀ j, ¬ k + vs.length ≤ j → SMap.get d (m.filter (fun e => decide (k + vs.length ≤ e.1))) j = d := fun j hj =>
    SMap.get_filter_out d m j _ (fun x => decide (k + vs.length ≤ x)) (fun _ => rfl) (by simpa using hj)
  have hr : ∀ j, ¬ (k ≤ j ∧ j < k + vs.length) → SMap.get d (SMap.run d k vs) j = d := fun j hj =>
    SMap.get_of_notin d _ j (fun e he hk => hj (hk ▸ SMap.run_keys d vs k e he))
  have absent : ∀ (x : SMap α) (j : Nat), (¬ ∃ e ∈ x, e.1 = j) → SMap.get d x j = d := fun x j h =>
    SMap.get_of_notin d x j (fun e he hk => h ⟨e, he, hk⟩)
  have app : ∀ (x y : SMap α) (j : Nat), SMap.get d x j = d → (¬ ∃ e ∈ x, e.1 = j) → SMap.get d (x ++ y) j = SMap.get d y j := by
    intro x y j _ h
    rw [SMap.get_append, if_neg h]
  have nolo : ∀ j, ¬ j < k → ¬ ∃ e ∈ m.filter (fun e => decide (e.1 < k)), e.1 = j := by
    rintro j hj ⟨e, he, hk⟩
    have := (List.mem_filter.1 he).2
    simp [hk] at this
    exact hj this
  have norun : ∀ j, ¬ (k ≤ j ∧ j < k + vs.length) → ¬ ∃ e ∈ SMap.run d k vs, e.1 = j := by
    rintro j hj ⟨e, he, hk⟩
    exact hj (hk ▸ SMap.run_keys d vs k e he)
  have nohi : ∀ j, ¬ k + vs.length ≤ j → ¬ ∃ e ∈ m.filter (fun e => decide (k + vs.length ≤ e.1)), e.1 = j := by
    rintro j hj ⟨e, he, hk⟩
    have := (List.mem_filter.1 he).2
    simp [hk] at this
    exact hj this
  rw [List.append_assoc]
  by_cases hin : k ≤ i ∧ i < k + vs.length
  · rw [if_pos hin, app _ _ i (hlo' i (by omega)) (nolo i (by omega)), SMap.get_append]
    have hg : SMap.get d (SMap.run d k vs) i = vs.getD (i - k) d := by
      have := SMap.get_run d vs k (i - k)
      rwa [show k + (i - k) = i by omega] at this
    split
    · exact hg
    · rename_i h
      rw [hhi' i (by omega), ← hg, absent _ _ h]
  · rw [if_neg hin]
    by_cases hlt : i < k
    · rw [SMap.get_append]
      split
      · exact hlo i hlt
      · rename_i h
        have h1 : SMap.get d m i = d := by rw [← hlo i hlt]; exact absent _ _ h
        rw [SMap.get_append, if_neg (norun i hin), hhi' i (by omega), h1]
    · rw [app _ _ i (hlo' i hlt) (nolo i hlt), SMap.get_append, if_neg (norun i hin), hhi i (by omega)]

/-- A read of a cleared map. -/
theorem SMap.get_clear (d : α) (m : SMap α) (lo hi i : Nat) :
    SMap.get d (SMap.clear m lo hi) i = if lo ≤ i ∧ i < hi then d else SMap.get d m i := by
  unfold SMap.clear SMap.cut
  rw [SMap.get_append]
  have h1 : ∀ j, j < lo → SMap.get d (m.filter (fun e => decide (e.1 < lo))) j = SMap.get d m j := fun j hj =>
    SMap.get_filter d m j _ (fun x => decide (x < lo)) (fun _ => rfl) (by simp [hj])
  have h2 : ∀ j, hi ≤ j → SMap.get d (m.filter (fun e => decide (hi ≤ e.1))) j = SMap.get d m j := fun j hj =>
    SMap.get_filter d m j _ (fun x => decide (hi ≤ x)) (fun _ => rfl) (by simp [hj])
  have h2' : ∀ j, ¬ hi ≤ j → SMap.get d (m.filter (fun e => decide (hi ≤ e.1))) j = d := fun j hj =>
    SMap.get_filter_out d m j _ (fun x => decide (hi ≤ x)) (fun _ => rfl) (by simpa using hj)
  split
  · rename_i h
    obtain ⟨e, he, hk⟩ := h
    have hl : i < lo := by
      have := (List.mem_filter.1 he).2
      simpa [hk] using this
    rw [h1 i hl, if_neg (by omega)]
  · rename_i h
    by_cases hhi : hi ≤ i
    · rw [h2 i hhi, if_neg (by omega)]
    · rw [h2' i hhi]
      split
      · rfl
      · rename_i hx
        have hl : i < lo := by omega
        rw [← h1 i hl]
        exact (SMap.get_of_notin d _ i (fun e he hk => h ⟨e, he, hk⟩)).symm

/-! ## The canonical form -/

/-- The canonical form as a property of pairs of neighbours. -/
theorem SMap.wfFrom_iff [DecidableEq α] (d : α) (m : SMap α) : ∀ lo, SMap.wfFrom d lo m = true ↔
    (∀ e ∈ m, lo ≤ e.1 ∧ e.2 ≠ d) ∧ m.Pairwise (fun a b => a.1 < b.1) := by
  induction m with
  | nil => intro lo; simp [SMap.wfFrom]
  | cons e m ih =>
    obtain ⟨k, v⟩ := e
    intro lo
    simp only [SMap.wfFrom, Bool.and_eq_true, decide_eq_true_eq, ih, List.pairwise_cons, List.mem_cons]
    constructor
    · rintro ⟨⟨h1, h2⟩, h3, h4⟩
      refine ⟨?_, ?_, h4⟩
      · rintro e (rfl | he)
        · exact ⟨h1, h2⟩
        · have := h3 e he
          exact ⟨by omega, this.2⟩
      · intro e he
        have := h3 e he
        show k < e.1
        omega
    · rintro ⟨h1, h2, h3⟩
      refine ⟨⟨(h1 (k, v) (Or.inl rfl)).1, (h1 (k, v) (Or.inl rfl)).2⟩, ?_, h3⟩
      intro e he
      have := h2 e he
      exact ⟨by show k + 1 ≤ e.1; exact this, (h1 e (Or.inr he)).2⟩

/-- The canonical form: no entry at the default, keys strictly rising. -/
theorem SMap.wf_iff [DecidableEq α] (d : α) (m : SMap α) :
    SMap.wf d m = true ↔ (∀ e ∈ m, e.2 ≠ d) ∧ m.Pairwise (fun a b => a.1 < b.1) := by
  unfold SMap.wf
  rw [SMap.wfFrom_iff]
  simp

theorem SMap.wf_nil [DecidableEq α] (d : α) : SMap.wf d ([] : SMap α) = true := rfl

/-- Entries taken out of a map keep its canonical form. -/
theorem SMap.wf_filter [DecidableEq α] (d : α) (m : SMap α) (p : Nat × α → Bool) (h : SMap.wf d m = true) :
    SMap.wf d (m.filter p) = true := by
  rw [SMap.wf_iff] at *
  exact ⟨fun e he => h.1 e (List.mem_filter.1 he).1, h.2.filter p⟩

/-- A run is in canonical form. -/
theorem SMap.wf_run [DecidableEq α] (d : α) (vs : List α) : ∀ k, SMap.wf d (SMap.run d k vs) = true := by
  induction vs with
  | nil => intro k; rfl
  | cons v vs ih =>
    intro k
    simp only [SMap.run]
    split
    · exact ih (k + 1)
    · rename_i h
      have := ih (k + 1)
      rw [SMap.wf_iff] at *
      refine ⟨?_, ?_⟩
      · intro e he
        rcases List.mem_cons.1 he with rfl | he
        · exact h
        · exact this.1 e he
      · rw [List.pairwise_cons]
        refine ⟨fun e he => ?_, this.2⟩
        have := SMap.run_keys d vs (k + 1) e he
        show k < e.1
        omega

/-- Three canonical maps that lie below, in and above a range make a canonical map. -/
theorem SMap.wf_join [DecidableEq α] (d : α) (x y z : SMap α) (lo hi : Nat) (hx : SMap.wf d x = true) (hy : SMap.wf d y = true)
    (hz : SMap.wf d z = true) (bx : ∀ e ∈ x, e.1 < lo) (by' : ∀ e ∈ y, lo ≤ e.1 ∧ e.1 < hi) (bz : ∀ e ∈ z, hi ≤ e.1) (hl : lo ≤ hi) :
    SMap.wf d (x ++ y ++ z) = true := by
  rw [SMap.wf_iff] at *
  refine ⟨?_, ?_⟩
  · intro e he
    rcases List.mem_append.1 he with he | he
    · rcases List.mem_append.1 he with he | he
      · exact hx.1 e he
      · exact hy.1 e he
    · exact hz.1 e he
  · rw [List.pairwise_append, List.pairwise_append]
    refine ⟨⟨hx.2, hy.2, fun a ha b hb => ?_⟩, hz.2, fun a ha b hb => ?_⟩
    · have := bx a ha; have := by' b hb; show a.1 < b.1; omega
    · have hb' := bz b hb
      show a.1 < b.1
      rcases List.mem_append.1 ha with ha | ha
      · have := bx a ha; omega
      · have := by' a ha; omega

/-- A write keeps the canonical form. -/
theorem SMap.wf_set [DecidableEq α] (d : α) (m : SMap α) (k : Nat) (v : α) (h : SMap.wf d m = true) :
    SMap.wf d (SMap.set d m k v) = true := by
  unfold SMap.set SMap.cut
  refine SMap.wf_join d _ _ _ k (k + 1) (SMap.wf_filter d m _ h) ?_ (SMap.wf_filter d m _ h) ?_ ?_ ?_ (by omega)
  · split
    · rfl
    · rename_i hv
      simp [SMap.wf, SMap.wfFrom, hv]
  · intro e he; simpa using (List.mem_filter.1 he).2
  · intro e he
    split at he
    · simp at he
    · simp at he; simp [he]
  · intro e he; simpa using (List.mem_filter.1 he).2

/-- A run of writes keeps the canonical form. -/
theorem SMap.wf_setRun [DecidableEq α] (d : α) (m : SMap α) (k : Nat) (vs : List α) (h : SMap.wf d m = true) :
    SMap.wf d (SMap.setRun d m k vs) = true := by
  unfold SMap.setRun SMap.cut
  refine SMap.wf_join d _ _ _ k (k + vs.length) (SMap.wf_filter d m _ h) (SMap.wf_run d vs k) (SMap.wf_filter d m _ h) ?_ ?_ ?_ (by omega)
  · intro e he; simpa using (List.mem_filter.1 he).2
  · exact SMap.run_keys d vs k
  · intro e he; simpa using (List.mem_filter.1 he).2

/-- Clearing a range keeps the canonical form. -/
theorem SMap.wf_clear [DecidableEq α] (d : α) (m : SMap α) (lo hi : Nat) (h : SMap.wf d m = true) (hl : lo ≤ hi) :
    SMap.wf d (SMap.clear m lo hi) = true := by
  unfold SMap.clear SMap.cut
  have := SMap.wf_join d (m.filter (fun e => decide (e.1 < lo))) [] (m.filter (fun e => decide (hi ≤ e.1))) lo hi
    (SMap.wf_filter d m _ h) rfl (SMap.wf_filter d m _ h) ?_ ?_ ?_ hl
  · simpa using this
  · intro e he; simpa using (List.mem_filter.1 he).2
  · intro e he; simp at he
  · intro e he; simpa using (List.mem_filter.1 he).2

/-- Maps in canonical form that read the same at every key are the same data. -/
theorem SMap.ext_of_wf [DecidableEq α] (d : α) (m n : SMap α) (hm : SMap.wf d m = true) (hn : SMap.wf d n = true)
    (h : ∀ k, SMap.get d m k = SMap.get d n k) : m = n := by
  have below : ∀ (x : SMap α) (k : Nat), (∀ e ∈ x, k < e.1) → SMap.get d x k = d := fun x k hx =>
    SMap.get_of_notin d x k (fun e he hk => by have := hx e he; omega)
  induction m generalizing n with
  | nil =>
    cases n with
    | nil => rfl
    | cons e n =>
      obtain ⟨k, v⟩ := e
      have := h k
      rw [SMap.wf_iff] at hn
      simp [SMap.get] at this
      exact absurd this.symm (hn.1 (k, v) (by simp))
  | cons e m ih =>
    obtain ⟨k, v⟩ := e
    have hm' := (SMap.wf_iff d _).1 hm
    cases n with
    | nil =>
      have := h k
      simp [SMap.get] at this
      exact absurd this (hm'.1 (k, v) (by simp))
    | cons e' n =>
      obtain ⟨k', v'⟩ := e'
      have hn' := (SMap.wf_iff d _).1 hn
      have pm := List.pairwise_cons.1 hm'.2
      have pn := List.pairwise_cons.1 hn'.2
      have hkk : k = k' := by
        rcases Nat.lt_trichotomy k k' with hlt | heq | hgt
        · have h1 := h k
          have h2 : SMap.get d ((k', v') :: n) k = d := below _ k (by
            intro e he
            rcases List.mem_cons.1 he with rfl | he
            · exact hlt
            · have := pn.1 e he; have : k' < e.1 := this; omega)
          rw [h2] at h1
          simp [SMap.get] at h1
          exact absurd h1 (hm'.1 (k, v) (by simp))
        · exact heq
        · have h1 := h k'
          have h2 : SMap.get d ((k, v) :: m) k' = d := below _ k' (by
            intro e he
            rcases List.mem_cons.1 he with rfl | he
            · exact hgt
            · have := pm.1 e he; have : k < e.1 := this; omega)
          rw [h2] at h1
          simp [SMap.get] at h1
          exact absurd h1.symm (hn'.1 (k', v') (by simp))
      subst hkk
      have hv : v = v' := by have := h k; simpa [SMap.get] using this
      subst hv
      have : m = n := by
        apply ih n
        · rw [SMap.wf_iff]; exact ⟨fun e he => hm'.1 e (by simp [he]), pm.2⟩
        · rw [SMap.wf_iff]; exact ⟨fun e he => hn'.1 e (by simp [he]), pn.2⟩
        · intro j
          by_cases hj : k = j
          · subst hj
            rw [below m k pm.1, below n k pn.1]
          · have := h j
            simpa [SMap.get, hj] using this
      rw [this]

end Sys2Proof.Machine
end

