-- ==== Sys2Proof/Laws/State.lean ====
section
/-! SUPPORT. Laws of the state: for every named update and every other field of the state, that the update leaves the field; and the
reads of what an update writes. -/

namespace Sys2Proof.Machine

variable (s : State)

/-! ## wr -/

@[simp] theorem State.wr_pending (f : Fld) (v i k : Nat) : (s.wr f v i k).pending = s.pending := rfl
@[simp] theorem State.wr_tick (f : Fld) (v i k : Nat) : (s.wr f v i k).tick = s.tick := rfl
@[simp] theorem State.wr_time (f : Fld) (v i k : Nat) : (s.wr f v i k).time = s.time := rfl
@[simp] theorem State.wr_osc (f : Fld) (v i k : Nat) : (s.wr f v i k).osc = s.osc := rfl
@[simp] theorem State.wr_free (f : Fld) (v i k : Nat) : (s.wr f v i k).free = s.free := rfl
@[simp] theorem State.wr_stamp (f : Fld) (v i k : Nat) : (s.wr f v i k).stamp = s.stamp := rfl
@[simp] theorem State.wr_outbox (f : Fld) (v i k : Nat) : (s.wr f v i k).outbox = s.outbox := rfl
@[simp] theorem State.wr_recs (f : Fld) (v i k : Nat) : (s.wr f v i k).recs = s.recs := rfl
@[simp] theorem State.wr_latches (f : Fld) (v i k : Nat) : (s.wr f v i k).latches = s.latches := rfl
@[simp] theorem State.wr_pkg (f : Fld) (v i k : Nat) : (s.wr f v i k).pkg = s.pkg := rfl
@[simp] theorem State.wr_fuses (f : Fld) (v i k : Nat) : (s.wr f v i k).fuses = s.fuses := rfl
@[simp] theorem State.wr_cores (f : Fld) (v i k : Nat) : (s.wr f v i k).cores = s.cores := rfl
@[simp] theorem State.wr_recent (f : Fld) (v i k : Nat) : (s.wr f v i k).recent = s.recent := rfl
@[simp] theorem State.wr_hbm (f : Fld) (v i k : Nat) : (s.wr f v i k).hbm = s.hbm := rfl
@[simp] theorem State.wr_ddr (f : Fld) (v i k : Nat) : (s.wr f v i k).ddr = s.ddr := rfl
@[simp] theorem State.wr_dies (f : Fld) (v i k : Nat) : (s.wr f v i k).dies = s.dies := rfl
@[simp] theorem State.wr_wheels (f : Fld) (v i k : Nat) : (s.wr f v i k).wheels = s.wheels := rfl
@[simp] theorem State.wr_events (f : Fld) (v i k : Nat) : (s.wr f v i k).events = s.events := rfl
@[simp] theorem State.wr_thermtrip (f : Fld) (v i k : Nat) : (s.wr f v i k).thermtrip = s.thermtrip := rfl
@[simp] theorem State.wr_ddrSelf (f : Fld) (v i k : Nat) : (s.wr f v i k).ddrSelf = s.ddrSelf := rfl
@[simp] theorem State.wr_image (f : Fld) (v i k : Nat) : (s.wr f v i k).image = s.image := rfl
@[simp] theorem State.wr_loading (f : Fld) (v i k : Nat) : (s.wr f v i k).loading = s.loading := rfl
@[simp] theorem State.wr_done (f : Fld) (v i k : Nat) : (s.wr f v i k).done = s.done := rfl
@[simp] theorem State.wr_dealt (f : Fld) (v i k : Nat) : (s.wr f v i k).dealt = s.dealt := rfl
@[simp] theorem State.wr_groups (f : Fld) (v i k : Nat) : (s.wr f v i k).groups = s.groups := rfl
@[simp] theorem State.wr_trickIn (f : Fld) (v i k : Nat) : (s.wr f v i k).trickIn = s.trickIn := rfl
@[simp] theorem State.wr_digests (f : Fld) (v i k : Nat) : (s.wr f v i k).digests = s.digests := rfl
@[simp] theorem State.wr_timing (f : Fld) (v i k : Nat) : (s.wr f v i k).timing = s.timing := rfl
@[simp] theorem State.wr_partner (f : Fld) (v i k : Nat) : (s.wr f v i k).partner = s.partner := rfl
@[simp] theorem State.wr_partnerIn (f : Fld) (v i k : Nat) : (s.wr f v i k).partnerIn = s.partnerIn := rfl
@[simp] theorem State.wr_ports (f : Fld) (v i k : Nat) : (s.wr f v i k).ports = s.ports := rfl
@[simp] theorem State.wr_responders (f : Fld) (v i k : Nat) : (s.wr f v i k).responders = s.responders := rfl
@[simp] theorem State.wr_routes (f : Fld) (v i k : Nat) : (s.wr f v i k).routes = s.routes := rfl
@[simp] theorem State.wr_routeHi (f : Fld) (v i k : Nat) : (s.wr f v i k).routeHi = s.routeHi := rfl
@[simp] theorem State.wr_funcs (f : Fld) (v i k : Nat) : (s.wr f v i k).funcs = s.funcs := rfl
@[simp] theorem State.wr_reqs (f : Fld) (v i k : Nat) : (s.wr f v i k).reqs = s.reqs := rfl
@[simp] theorem State.wr_kvUsed (f : Fld) (v i k : Nat) : (s.wr f v i k).kvUsed = s.kvUsed := rfl
@[simp] theorem State.wr_wslots (f : Fld) (v i k : Nat) : (s.wr f v i k).wslots = s.wslots := rfl
@[simp] theorem State.wr_wcmd (f : Fld) (v i k : Nat) : (s.wr f v i k).wcmd = s.wcmd := rfl
@[simp] theorem State.wr_seats (f : Fld) (v i k : Nat) : (s.wr f v i k).seats = s.seats := rfl
@[simp] theorem State.wr_versions (f : Fld) (v i k : Nat) : (s.wr f v i k).versions = s.versions := rfl
@[simp] theorem State.wr_power (f : Fld) (v i k : Nat) : (s.wr f v i k).power = s.power := rfl
@[simp] theorem State.wr_flt (f : Fld) (v i k : Nat) : (s.wr f v i k).flt = s.flt := rfl
@[simp] theorem State.wr_mram (f : Fld) (v i k : Nat) : (s.wr f v i k).mram = s.mram := rfl
@[simp] theorem State.wr_life (f : Fld) (v i k : Nat) : (s.wr f v i k).life = s.life := rfl
@[simp] theorem State.wr_marks (f : Fld) (v i k : Nat) : (s.wr f v i k).marks = s.marks := rfl
@[simp] theorem State.wr_msixMask (f : Fld) (v i k : Nat) : (s.wr f v i k).msixMask = s.msixMask := rfl
@[simp] theorem State.wr_msixFnMask (f : Fld) (v i k : Nat) : (s.wr f v i k).msixFnMask = s.msixFnMask := rfl
@[simp] theorem State.wr_msixPend (f : Fld) (v i k : Nat) : (s.wr f v i k).msixPend = s.msixPend := rfl
@[simp] theorem State.wr_msixEntry (f : Fld) (v i k : Nat) : (s.wr f v i k).msixEntry = s.msixEntry := rfl
@[simp] theorem State.wr_pcie (f : Fld) (v i k : Nat) : (s.wr f v i k).pcie = s.pcie := rfl
@[simp] theorem State.wr_subsys (f : Fld) (v i k : Nat) : (s.wr f v i k).subsys = s.subsys := rfl

/-! ## bumpBy -/

@[simp] theorem State.bumpBy_pending (f : Fld) (n i k : Nat) : (s.bumpBy f n i k).pending = s.pending := rfl
@[simp] theorem State.bumpBy_tick (f : Fld) (n i k : Nat) : (s.bumpBy f n i k).tick = s.tick := rfl
@[simp] theorem State.bumpBy_time (f : Fld) (n i k : Nat) : (s.bumpBy f n i k).time = s.time := rfl
@[simp] theorem State.bumpBy_osc (f : Fld) (n i k : Nat) : (s.bumpBy f n i k).osc = s.osc := rfl
@[simp] theorem State.bumpBy_free (f : Fld) (n i k : Nat) : (s.bumpBy f n i k).free = s.free := rfl
@[simp] theorem State.bumpBy_stamp (f : Fld) (n i k : Nat) : (s.bumpBy f n i k).stamp = s.stamp := rfl
@[simp] theorem State.bumpBy_outbox (f : Fld) (n i k : Nat) : (s.bumpBy f n i k).outbox = s.outbox := rfl
@[simp] theorem State.bumpBy_recs (f : Fld) (n i k : Nat) : (s.bumpBy f n i k).recs = s.recs := rfl
@[simp] theorem State.bumpBy_latches (f : Fld) (n i k : Nat) : (s.bumpBy f n i k).latches = s.latches := rfl
@[simp] theorem State.bumpBy_pkg (f : Fld) (n i k : Nat) : (s.bumpBy f n i k).pkg = s.pkg := rfl
@[simp] theorem State.bumpBy_fuses (f : Fld) (n i k : Nat) : (s.bumpBy f n i k).fuses = s.fuses := rfl
@[simp] theorem State.bumpBy_cores (f : Fld) (n i k : Nat) : (s.bumpBy f n i k).cores = s.cores := rfl
@[simp] theorem State.bumpBy_recent (f : Fld) (n i k : Nat) : (s.bumpBy f n i k).recent = s.recent := rfl
@[simp] theorem State.bumpBy_hbm (f : Fld) (n i k : Nat) : (s.bumpBy f n i k).hbm = s.hbm := rfl
@[simp] theorem State.bumpBy_ddr (f : Fld) (n i k : Nat) : (s.bumpBy f n i k).ddr = s.ddr := rfl
@[simp] theorem State.bumpBy_dies (f : Fld) (n i k : Nat) : (s.bumpBy f n i k).dies = s.dies := rfl
@[simp] theorem State.bumpBy_wheels (f : Fld) (n i k : Nat) : (s.bumpBy f n i k).wheels = s.wheels := rfl
@[simp] theorem State.bumpBy_events (f : Fld) (n i k : Nat) : (s.bumpBy f n i k).events = s.events := rfl
@[simp] theorem State.bumpBy_thermtrip (f : Fld) (n i k : Nat) : (s.bumpBy f n i k).thermtrip = s.thermtrip := rfl
@[simp] theorem State.bumpBy_ddrSelf (f : Fld) (n i k : Nat) : (s.bumpBy f n i k).ddrSelf = s.ddrSelf := rfl
@[simp] theorem State.bumpBy_image (f : Fld) (n i k : Nat) : (s.bumpBy f n i k).image = s.image := rfl
@[simp] theorem State.bumpBy_loading (f : Fld) (n i k : Nat) : (s.bumpBy f n i k).loading = s.loading := rfl
@[simp] theorem State.bumpBy_done (f : Fld) (n i k : Nat) : (s.bumpBy f n i k).done = s.done := rfl
@[simp] theorem State.bumpBy_dealt (f : Fld) (n i k : Nat) : (s.bumpBy f n i k).dealt = s.dealt := rfl
@[simp] theorem State.bumpBy_groups (f : Fld) (n i k : Nat) : (s.bumpBy f n i k).groups = s.groups := rfl
@[simp] theorem State.bumpBy_trickIn (f : Fld) (n i k : Nat) : (s.bumpBy f n i k).trickIn = s.trickIn := rfl
@[simp] theorem State.bumpBy_digests (f : Fld) (n i k : Nat) : (s.bumpBy f n i k).digests = s.digests := rfl
@[simp] theorem State.bumpBy_timing (f : Fld) (n i k : Nat) : (s.bumpBy f n i k).timing = s.timing := rfl
@[simp] theorem State.bumpBy_partner (f : Fld) (n i k : Nat) : (s.bumpBy f n i k).partner = s.partner := rfl
@[simp] theorem State.bumpBy_partnerIn (f : Fld) (n i k : Nat) : (s.bumpBy f n i k).partnerIn = s.partnerIn := rfl
@[simp] theorem State.bumpBy_ports (f : Fld) (n i k : Nat) : (s.bumpBy f n i k).ports = s.ports := rfl
@[simp] theorem State.bumpBy_responders (f : Fld) (n i k : Nat) : (s.bumpBy f n i k).responders = s.responders := rfl
@[simp] theorem State.bumpBy_routes (f : Fld) (n i k : Nat) : (s.bumpBy f n i k).routes = s.routes := rfl
@[simp] theorem State.bumpBy_routeHi (f : Fld) (n i k : Nat) : (s.bumpBy f n i k).routeHi = s.routeHi := rfl
@[simp] theorem State.bumpBy_funcs (f : Fld) (n i k : Nat) : (s.bumpBy f n i k).funcs = s.funcs := rfl
@[simp] theorem State.bumpBy_reqs (f : Fld) (n i k : Nat) : (s.bumpBy f n i k).reqs = s.reqs := rfl
@[simp] theorem State.bumpBy_kvUsed (f : Fld) (n i k : Nat) : (s.bumpBy f n i k).kvUsed = s.kvUsed := rfl
@[simp] theorem State.bumpBy_wslots (f : Fld) (n i k : Nat) : (s.bumpBy f n i k).wslots = s.wslots := rfl
@[simp] theorem State.bumpBy_wcmd (f : Fld) (n i k : Nat) : (s.bumpBy f n i k).wcmd = s.wcmd := rfl
@[simp] theorem State.bumpBy_seats (f : Fld) (n i k : Nat) : (s.bumpBy f n i k).seats = s.seats := rfl
@[simp] theorem State.bumpBy_versions (f : Fld) (n i k : Nat) : (s.bumpBy f n i k).versions = s.versions := rfl
@[simp] theorem State.bumpBy_power (f : Fld) (n i k : Nat) : (s.bumpBy f n i k).power = s.power := rfl
@[simp] theorem State.bumpBy_flt (f : Fld) (n i k : Nat) : (s.bumpBy f n i k).flt = s.flt := rfl
@[simp] theorem State.bumpBy_mram (f : Fld) (n i k : Nat) : (s.bumpBy f n i k).mram = s.mram := rfl
@[simp] theorem State.bumpBy_life (f : Fld) (n i k : Nat) : (s.bumpBy f n i k).life = s.life := rfl
@[simp] theorem State.bumpBy_marks (f : Fld) (n i k : Nat) : (s.bumpBy f n i k).marks = s.marks := rfl
@[simp] theorem State.bumpBy_msixMask (f : Fld) (n i k : Nat) : (s.bumpBy f n i k).msixMask = s.msixMask := rfl
@[simp] theorem State.bumpBy_msixFnMask (f : Fld) (n i k : Nat) : (s.bumpBy f n i k).msixFnMask = s.msixFnMask := rfl
@[simp] theorem State.bumpBy_msixPend (f : Fld) (n i k : Nat) : (s.bumpBy f n i k).msixPend = s.msixPend := rfl
@[simp] theorem State.bumpBy_msixEntry (f : Fld) (n i k : Nat) : (s.bumpBy f n i k).msixEntry = s.msixEntry := rfl
@[simp] theorem State.bumpBy_pcie (f : Fld) (n i k : Nat) : (s.bumpBy f n i k).pcie = s.pcie := rfl
@[simp] theorem State.bumpBy_subsys (f : Fld) (n i k : Nat) : (s.bumpBy f n i k).subsys = s.subsys := rfl

/-! ## bump -/

@[simp] theorem State.bump_pending (f : Fld) (i k : Nat) : (s.bump f i k).pending = s.pending := rfl
@[simp] theorem State.bump_tick (f : Fld) (i k : Nat) : (s.bump f i k).tick = s.tick := rfl
@[simp] theorem State.bump_time (f : Fld) (i k : Nat) : (s.bump f i k).time = s.time := rfl
@[simp] theorem State.bump_osc (f : Fld) (i k : Nat) : (s.bump f i k).osc = s.osc := rfl
@[simp] theorem State.bump_free (f : Fld) (i k : Nat) : (s.bump f i k).free = s.free := rfl
@[simp] theorem State.bump_stamp (f : Fld) (i k : Nat) : (s.bump f i k).stamp = s.stamp := rfl
@[simp] theorem State.bump_outbox (f : Fld) (i k : Nat) : (s.bump f i k).outbox = s.outbox := rfl
@[simp] theorem State.bump_recs (f : Fld) (i k : Nat) : (s.bump f i k).recs = s.recs := rfl
@[simp] theorem State.bump_latches (f : Fld) (i k : Nat) : (s.bump f i k).latches = s.latches := rfl
@[simp] theorem State.bump_pkg (f : Fld) (i k : Nat) : (s.bump f i k).pkg = s.pkg := rfl
@[simp] theorem State.bump_fuses (f : Fld) (i k : Nat) : (s.bump f i k).fuses = s.fuses := rfl
@[simp] theorem State.bump_cores (f : Fld) (i k : Nat) : (s.bump f i k).cores = s.cores := rfl
@[simp] theorem State.bump_recent (f : Fld) (i k : Nat) : (s.bump f i k).recent = s.recent := rfl
@[simp] theorem State.bump_hbm (f : Fld) (i k : Nat) : (s.bump f i k).hbm = s.hbm := rfl
@[simp] theorem State.bump_ddr (f : Fld) (i k : Nat) : (s.bump f i k).ddr = s.ddr := rfl
@[simp] theorem State.bump_dies (f : Fld) (i k : Nat) : (s.bump f i k).dies = s.dies := rfl
@[simp] theorem State.bump_wheels (f : Fld) (i k : Nat) : (s.bump f i k).wheels = s.wheels := rfl
@[simp] theorem State.bump_events (f : Fld) (i k : Nat) : (s.bump f i k).events = s.events := rfl
@[simp] theorem State.bump_thermtrip (f : Fld) (i k : Nat) : (s.bump f i k).thermtrip = s.thermtrip := rfl
@[simp] theorem State.bump_ddrSelf (f : Fld) (i k : Nat) : (s.bump f i k).ddrSelf = s.ddrSelf := rfl
@[simp] theorem State.bump_image (f : Fld) (i k : Nat) : (s.bump f i k).image = s.image := rfl
@[simp] theorem State.bump_loading (f : Fld) (i k : Nat) : (s.bump f i k).loading = s.loading := rfl
@[simp] theorem State.bump_done (f : Fld) (i k : Nat) : (s.bump f i k).done = s.done := rfl
@[simp] theorem State.bump_dealt (f : Fld) (i k : Nat) : (s.bump f i k).dealt = s.dealt := rfl
@[simp] theorem State.bump_groups (f : Fld) (i k : Nat) : (s.bump f i k).groups = s.groups := rfl
@[simp] theorem State.bump_trickIn (f : Fld) (i k : Nat) : (s.bump f i k).trickIn = s.trickIn := rfl
@[simp] theorem State.bump_digests (f : Fld) (i k : Nat) : (s.bump f i k).digests = s.digests := rfl
@[simp] theorem State.bump_timing (f : Fld) (i k : Nat) : (s.bump f i k).timing = s.timing := rfl
@[simp] theorem State.bump_partner (f : Fld) (i k : Nat) : (s.bump f i k).partner = s.partner := rfl
@[simp] theorem State.bump_partnerIn (f : Fld) (i k : Nat) : (s.bump f i k).partnerIn = s.partnerIn := rfl
@[simp] theorem State.bump_ports (f : Fld) (i k : Nat) : (s.bump f i k).ports = s.ports := rfl
@[simp] theorem State.bump_responders (f : Fld) (i k : Nat) : (s.bump f i k).responders = s.responders := rfl
@[simp] theorem State.bump_routes (f : Fld) (i k : Nat) : (s.bump f i k).routes = s.routes := rfl
@[simp] theorem State.bump_routeHi (f : Fld) (i k : Nat) : (s.bump f i k).routeHi = s.routeHi := rfl
@[simp] theorem State.bump_funcs (f : Fld) (i k : Nat) : (s.bump f i k).funcs = s.funcs := rfl
@[simp] theorem State.bump_reqs (f : Fld) (i k : Nat) : (s.bump f i k).reqs = s.reqs := rfl
@[simp] theorem State.bump_kvUsed (f : Fld) (i k : Nat) : (s.bump f i k).kvUsed = s.kvUsed := rfl
@[simp] theorem State.bump_wslots (f : Fld) (i k : Nat) : (s.bump f i k).wslots = s.wslots := rfl
@[simp] theorem State.bump_wcmd (f : Fld) (i k : Nat) : (s.bump f i k).wcmd = s.wcmd := rfl
@[simp] theorem State.bump_seats (f : Fld) (i k : Nat) : (s.bump f i k).seats = s.seats := rfl
@[simp] theorem State.bump_versions (f : Fld) (i k : Nat) : (s.bump f i k).versions = s.versions := rfl
@[simp] theorem State.bump_power (f : Fld) (i k : Nat) : (s.bump f i k).power = s.power := rfl
@[simp] theorem State.bump_flt (f : Fld) (i k : Nat) : (s.bump f i k).flt = s.flt := rfl
@[simp] theorem State.bump_mram (f : Fld) (i k : Nat) : (s.bump f i k).mram = s.mram := rfl
@[simp] theorem State.bump_life (f : Fld) (i k : Nat) : (s.bump f i k).life = s.life := rfl
@[simp] theorem State.bump_marks (f : Fld) (i k : Nat) : (s.bump f i k).marks = s.marks := rfl
@[simp] theorem State.bump_msixMask (f : Fld) (i k : Nat) : (s.bump f i k).msixMask = s.msixMask := rfl
@[simp] theorem State.bump_msixFnMask (f : Fld) (i k : Nat) : (s.bump f i k).msixFnMask = s.msixFnMask := rfl
@[simp] theorem State.bump_msixPend (f : Fld) (i k : Nat) : (s.bump f i k).msixPend = s.msixPend := rfl
@[simp] theorem State.bump_msixEntry (f : Fld) (i k : Nat) : (s.bump f i k).msixEntry = s.msixEntry := rfl
@[simp] theorem State.bump_pcie (f : Fld) (i k : Nat) : (s.bump f i k).pcie = s.pcie := rfl
@[simp] theorem State.bump_subsys (f : Fld) (i k : Nat) : (s.bump f i k).subsys = s.subsys := rfl

/-! ## wrPair -/

@[simp] theorem State.wrPair_pending (lo hi : Fld) (v i k : Nat) : (s.wrPair lo hi v i k).pending = s.pending := rfl
@[simp] theorem State.wrPair_tick (lo hi : Fld) (v i k : Nat) : (s.wrPair lo hi v i k).tick = s.tick := rfl
@[simp] theorem State.wrPair_time (lo hi : Fld) (v i k : Nat) : (s.wrPair lo hi v i k).time = s.time := rfl
@[simp] theorem State.wrPair_osc (lo hi : Fld) (v i k : Nat) : (s.wrPair lo hi v i k).osc = s.osc := rfl
@[simp] theorem State.wrPair_free (lo hi : Fld) (v i k : Nat) : (s.wrPair lo hi v i k).free = s.free := rfl
@[simp] theorem State.wrPair_stamp (lo hi : Fld) (v i k : Nat) : (s.wrPair lo hi v i k).stamp = s.stamp := rfl
@[simp] theorem State.wrPair_outbox (lo hi : Fld) (v i k : Nat) : (s.wrPair lo hi v i k).outbox = s.outbox := rfl
@[simp] theorem State.wrPair_recs (lo hi : Fld) (v i k : Nat) : (s.wrPair lo hi v i k).recs = s.recs := rfl
@[simp] theorem State.wrPair_latches (lo hi : Fld) (v i k : Nat) : (s.wrPair lo hi v i k).latches = s.latches := rfl
@[simp] theorem State.wrPair_pkg (lo hi : Fld) (v i k : Nat) : (s.wrPair lo hi v i k).pkg = s.pkg := rfl
@[simp] theorem State.wrPair_fuses (lo hi : Fld) (v i k : Nat) : (s.wrPair lo hi v i k).fuses = s.fuses := rfl
@[simp] theorem State.wrPair_cores (lo hi : Fld) (v i k : Nat) : (s.wrPair lo hi v i k).cores = s.cores := rfl
@[simp] theorem State.wrPair_recent (lo hi : Fld) (v i k : Nat) : (s.wrPair lo hi v i k).recent = s.recent := rfl
@[simp] theorem State.wrPair_hbm (lo hi : Fld) (v i k : Nat) : (s.wrPair lo hi v i k).hbm = s.hbm := rfl
@[simp] theorem State.wrPair_ddr (lo hi : Fld) (v i k : Nat) : (s.wrPair lo hi v i k).ddr = s.ddr := rfl
@[simp] theorem State.wrPair_dies (lo hi : Fld) (v i k : Nat) : (s.wrPair lo hi v i k).dies = s.dies := rfl
@[simp] theorem State.wrPair_wheels (lo hi : Fld) (v i k : Nat) : (s.wrPair lo hi v i k).wheels = s.wheels := rfl
@[simp] theorem State.wrPair_events (lo hi : Fld) (v i k : Nat) : (s.wrPair lo hi v i k).events = s.events := rfl
@[simp] theorem State.wrPair_thermtrip (lo hi : Fld) (v i k : Nat) : (s.wrPair lo hi v i k).thermtrip = s.thermtrip := rfl
@[simp] theorem State.wrPair_ddrSelf (lo hi : Fld) (v i k : Nat) : (s.wrPair lo hi v i k).ddrSelf = s.ddrSelf := rfl
@[simp] theorem State.wrPair_image (lo hi : Fld) (v i k : Nat) : (s.wrPair lo hi v i k).image = s.image := rfl
@[simp] theorem State.wrPair_loading (lo hi : Fld) (v i k : Nat) : (s.wrPair lo hi v i k).loading = s.loading := rfl
@[simp] theorem State.wrPair_done (lo hi : Fld) (v i k : Nat) : (s.wrPair lo hi v i k).done = s.done := rfl
@[simp] theorem State.wrPair_dealt (lo hi : Fld) (v i k : Nat) : (s.wrPair lo hi v i k).dealt = s.dealt := rfl
@[simp] theorem State.wrPair_groups (lo hi : Fld) (v i k : Nat) : (s.wrPair lo hi v i k).groups = s.groups := rfl
@[simp] theorem State.wrPair_trickIn (lo hi : Fld) (v i k : Nat) : (s.wrPair lo hi v i k).trickIn = s.trickIn := rfl
@[simp] theorem State.wrPair_digests (lo hi : Fld) (v i k : Nat) : (s.wrPair lo hi v i k).digests = s.digests := rfl
@[simp] theorem State.wrPair_timing (lo hi : Fld) (v i k : Nat) : (s.wrPair lo hi v i k).timing = s.timing := rfl
@[simp] theorem State.wrPair_partner (lo hi : Fld) (v i k : Nat) : (s.wrPair lo hi v i k).partner = s.partner := rfl
@[simp] theorem State.wrPair_partnerIn (lo hi : Fld) (v i k : Nat) : (s.wrPair lo hi v i k).partnerIn = s.partnerIn := rfl
@[simp] theorem State.wrPair_ports (lo hi : Fld) (v i k : Nat) : (s.wrPair lo hi v i k).ports = s.ports := rfl
@[simp] theorem State.wrPair_responders (lo hi : Fld) (v i k : Nat) : (s.wrPair lo hi v i k).responders = s.responders := rfl
@[simp] theorem State.wrPair_routes (lo hi : Fld) (v i k : Nat) : (s.wrPair lo hi v i k).routes = s.routes := rfl
@[simp] theorem State.wrPair_routeHi (lo hi : Fld) (v i k : Nat) : (s.wrPair lo hi v i k).routeHi = s.routeHi := rfl
@[simp] theorem State.wrPair_funcs (lo hi : Fld) (v i k : Nat) : (s.wrPair lo hi v i k).funcs = s.funcs := rfl
@[simp] theorem State.wrPair_reqs (lo hi : Fld) (v i k : Nat) : (s.wrPair lo hi v i k).reqs = s.reqs := rfl
@[simp] theorem State.wrPair_kvUsed (lo hi : Fld) (v i k : Nat) : (s.wrPair lo hi v i k).kvUsed = s.kvUsed := rfl
@[simp] theorem State.wrPair_wslots (lo hi : Fld) (v i k : Nat) : (s.wrPair lo hi v i k).wslots = s.wslots := rfl
@[simp] theorem State.wrPair_wcmd (lo hi : Fld) (v i k : Nat) : (s.wrPair lo hi v i k).wcmd = s.wcmd := rfl
@[simp] theorem State.wrPair_seats (lo hi : Fld) (v i k : Nat) : (s.wrPair lo hi v i k).seats = s.seats := rfl
@[simp] theorem State.wrPair_versions (lo hi : Fld) (v i k : Nat) : (s.wrPair lo hi v i k).versions = s.versions := rfl
@[simp] theorem State.wrPair_power (lo hi : Fld) (v i k : Nat) : (s.wrPair lo hi v i k).power = s.power := rfl
@[simp] theorem State.wrPair_flt (lo hi : Fld) (v i k : Nat) : (s.wrPair lo hi v i k).flt = s.flt := rfl
@[simp] theorem State.wrPair_mram (lo hi : Fld) (v i k : Nat) : (s.wrPair lo hi v i k).mram = s.mram := rfl
@[simp] theorem State.wrPair_life (lo hi : Fld) (v i k : Nat) : (s.wrPair lo hi v i k).life = s.life := rfl
@[simp] theorem State.wrPair_marks (lo hi : Fld) (v i k : Nat) : (s.wrPair lo hi v i k).marks = s.marks := rfl
@[simp] theorem State.wrPair_msixMask (lo hi : Fld) (v i k : Nat) : (s.wrPair lo hi v i k).msixMask = s.msixMask := rfl
@[simp] theorem State.wrPair_msixFnMask (lo hi : Fld) (v i k : Nat) : (s.wrPair lo hi v i k).msixFnMask = s.msixFnMask := rfl
@[simp] theorem State.wrPair_msixPend (lo hi : Fld) (v i k : Nat) : (s.wrPair lo hi v i k).msixPend = s.msixPend := rfl
@[simp] theorem State.wrPair_msixEntry (lo hi : Fld) (v i k : Nat) : (s.wrPair lo hi v i k).msixEntry = s.msixEntry := rfl
@[simp] theorem State.wrPair_pcie (lo hi : Fld) (v i k : Nat) : (s.wrPair lo hi v i k).pcie = s.pcie := rfl
@[simp] theorem State.wrPair_subsys (lo hi : Fld) (v i k : Nat) : (s.wrPair lo hi v i k).subsys = s.subsys := rfl

/-! ## emit -/

@[simp] theorem State.emit_pending (o : Out) : (s.emit o).pending = s.pending := rfl
@[simp] theorem State.emit_tick (o : Out) : (s.emit o).tick = s.tick := rfl
@[simp] theorem State.emit_time (o : Out) : (s.emit o).time = s.time := rfl
@[simp] theorem State.emit_osc (o : Out) : (s.emit o).osc = s.osc := rfl
@[simp] theorem State.emit_free (o : Out) : (s.emit o).free = s.free := rfl
@[simp] theorem State.emit_stamp (o : Out) : (s.emit o).stamp = s.stamp := rfl
@[simp] theorem State.emit_regs (o : Out) : (s.emit o).regs = s.regs := rfl
@[simp] theorem State.emit_recs (o : Out) : (s.emit o).recs = s.recs := rfl
@[simp] theorem State.emit_latches (o : Out) : (s.emit o).latches = s.latches := rfl
@[simp] theorem State.emit_pkg (o : Out) : (s.emit o).pkg = s.pkg := rfl
@[simp] theorem State.emit_fuses (o : Out) : (s.emit o).fuses = s.fuses := rfl
@[simp] theorem State.emit_cores (o : Out) : (s.emit o).cores = s.cores := rfl
@[simp] theorem State.emit_recent (o : Out) : (s.emit o).recent = s.recent := rfl
@[simp] theorem State.emit_hbm (o : Out) : (s.emit o).hbm = s.hbm := rfl
@[simp] theorem State.emit_ddr (o : Out) : (s.emit o).ddr = s.ddr := rfl
@[simp] theorem State.emit_dies (o : Out) : (s.emit o).dies = s.dies := rfl
@[simp] theorem State.emit_wheels (o : Out) : (s.emit o).wheels = s.wheels := rfl
@[simp] theorem State.emit_events (o : Out) : (s.emit o).events = s.events := rfl
@[simp] theorem State.emit_thermtrip (o : Out) : (s.emit o).thermtrip = s.thermtrip := rfl
@[simp] theorem State.emit_ddrSelf (o : Out) : (s.emit o).ddrSelf = s.ddrSelf := rfl
@[simp] theorem State.emit_image (o : Out) : (s.emit o).image = s.image := rfl
@[simp] theorem State.emit_loading (o : Out) : (s.emit o).loading = s.loading := rfl
@[simp] theorem State.emit_done (o : Out) : (s.emit o).done = s.done := rfl
@[simp] theorem State.emit_dealt (o : Out) : (s.emit o).dealt = s.dealt := rfl
@[simp] theorem State.emit_groups (o : Out) : (s.emit o).groups = s.groups := rfl
@[simp] theorem State.emit_trickIn (o : Out) : (s.emit o).trickIn = s.trickIn := rfl
@[simp] theorem State.emit_digests (o : Out) : (s.emit o).digests = s.digests := rfl
@[simp] theorem State.emit_timing (o : Out) : (s.emit o).timing = s.timing := rfl
@[simp] theorem State.emit_partner (o : Out) : (s.emit o).partner = s.partner := rfl
@[simp] theorem State.emit_partnerIn (o : Out) : (s.emit o).partnerIn = s.partnerIn := rfl
@[simp] theorem State.emit_ports (o : Out) : (s.emit o).ports = s.ports := rfl
@[simp] theorem State.emit_responders (o : Out) : (s.emit o).responders = s.responders := rfl
@[simp] theorem State.emit_routes (o : Out) : (s.emit o).routes = s.routes := rfl
@[simp] theorem State.emit_routeHi (o : Out) : (s.emit o).routeHi = s.routeHi := rfl
@[simp] theorem State.emit_funcs (o : Out) : (s.emit o).funcs = s.funcs := rfl
@[simp] theorem State.emit_reqs (o : Out) : (s.emit o).reqs = s.reqs := rfl
@[simp] theorem State.emit_kvUsed (o : Out) : (s.emit o).kvUsed = s.kvUsed := rfl
@[simp] theorem State.emit_wslots (o : Out) : (s.emit o).wslots = s.wslots := rfl
@[simp] theorem State.emit_wcmd (o : Out) : (s.emit o).wcmd = s.wcmd := rfl
@[simp] theorem State.emit_seats (o : Out) : (s.emit o).seats = s.seats := rfl
@[simp] theorem State.emit_versions (o : Out) : (s.emit o).versions = s.versions := rfl
@[simp] theorem State.emit_power (o : Out) : (s.emit o).power = s.power := rfl
@[simp] theorem State.emit_flt (o : Out) : (s.emit o).flt = s.flt := rfl
@[simp] theorem State.emit_mram (o : Out) : (s.emit o).mram = s.mram := rfl
@[simp] theorem State.emit_life (o : Out) : (s.emit o).life = s.life := rfl
@[simp] theorem State.emit_marks (o : Out) : (s.emit o).marks = s.marks := rfl
@[simp] theorem State.emit_msixMask (o : Out) : (s.emit o).msixMask = s.msixMask := rfl
@[simp] theorem State.emit_msixFnMask (o : Out) : (s.emit o).msixFnMask = s.msixFnMask := rfl
@[simp] theorem State.emit_msixPend (o : Out) : (s.emit o).msixPend = s.msixPend := rfl
@[simp] theorem State.emit_msixEntry (o : Out) : (s.emit o).msixEntry = s.msixEntry := rfl
@[simp] theorem State.emit_pcie (o : Out) : (s.emit o).pcie = s.pcie := rfl
@[simp] theorem State.emit_subsys (o : Out) : (s.emit o).subsys = s.subsys := rfl
@[simp] theorem State.emit_rd (o : Out) (x : Fld) (a b : Nat) : (s.emit o).rd x a b = s.rd x a b := rfl

/-! ## setCore -/

@[simp] theorem State.setCore_pending (p : Nat) (c : Core) : (s.setCore p c).pending = s.pending := rfl
@[simp] theorem State.setCore_tick (p : Nat) (c : Core) : (s.setCore p c).tick = s.tick := rfl
@[simp] theorem State.setCore_time (p : Nat) (c : Core) : (s.setCore p c).time = s.time := rfl
@[simp] theorem State.setCore_osc (p : Nat) (c : Core) : (s.setCore p c).osc = s.osc := rfl
@[simp] theorem State.setCore_free (p : Nat) (c : Core) : (s.setCore p c).free = s.free := rfl
@[simp] theorem State.setCore_stamp (p : Nat) (c : Core) : (s.setCore p c).stamp = s.stamp := rfl
@[simp] theorem State.setCore_outbox (p : Nat) (c : Core) : (s.setCore p c).outbox = s.outbox := rfl
@[simp] theorem State.setCore_regs (p : Nat) (c : Core) : (s.setCore p c).regs = s.regs := rfl
@[simp] theorem State.setCore_recs (p : Nat) (c : Core) : (s.setCore p c).recs = s.recs := rfl
@[simp] theorem State.setCore_latches (p : Nat) (c : Core) : (s.setCore p c).latches = s.latches := rfl
@[simp] theorem State.setCore_pkg (p : Nat) (c : Core) : (s.setCore p c).pkg = s.pkg := rfl
@[simp] theorem State.setCore_fuses (p : Nat) (c : Core) : (s.setCore p c).fuses = s.fuses := rfl
@[simp] theorem State.setCore_recent (p : Nat) (c : Core) : (s.setCore p c).recent = s.recent := rfl
@[simp] theorem State.setCore_hbm (p : Nat) (c : Core) : (s.setCore p c).hbm = s.hbm := rfl
@[simp] theorem State.setCore_ddr (p : Nat) (c : Core) : (s.setCore p c).ddr = s.ddr := rfl
@[simp] theorem State.setCore_dies (p : Nat) (c : Core) : (s.setCore p c).dies = s.dies := rfl
@[simp] theorem State.setCore_wheels (p : Nat) (c : Core) : (s.setCore p c).wheels = s.wheels := rfl
@[simp] theorem State.setCore_events (p : Nat) (c : Core) : (s.setCore p c).events = s.events := rfl
@[simp] theorem State.setCore_thermtrip (p : Nat) (c : Core) : (s.setCore p c).thermtrip = s.thermtrip := rfl
@[simp] theorem State.setCore_ddrSelf (p : Nat) (c : Core) : (s.setCore p c).ddrSelf = s.ddrSelf := rfl
@[simp] theorem State.setCore_image (p : Nat) (c : Core) : (s.setCore p c).image = s.image := rfl
@[simp] theorem State.setCore_loading (p : Nat) (c : Core) : (s.setCore p c).loading = s.loading := rfl
@[simp] theorem State.setCore_done (p : Nat) (c : Core) : (s.setCore p c).done = s.done := rfl
@[simp] theorem State.setCore_dealt (p : Nat) (c : Core) : (s.setCore p c).dealt = s.dealt := rfl
@[simp] theorem State.setCore_groups (p : Nat) (c : Core) : (s.setCore p c).groups = s.groups := rfl
@[simp] theorem State.setCore_trickIn (p : Nat) (c : Core) : (s.setCore p c).trickIn = s.trickIn := rfl
@[simp] theorem State.setCore_digests (p : Nat) (c : Core) : (s.setCore p c).digests = s.digests := rfl
@[simp] theorem State.setCore_timing (p : Nat) (c : Core) : (s.setCore p c).timing = s.timing := rfl
@[simp] theorem State.setCore_partner (p : Nat) (c : Core) : (s.setCore p c).partner = s.partner := rfl
@[simp] theorem State.setCore_partnerIn (p : Nat) (c : Core) : (s.setCore p c).partnerIn = s.partnerIn := rfl
@[simp] theorem State.setCore_ports (p : Nat) (c : Core) : (s.setCore p c).ports = s.ports := rfl
@[simp] theorem State.setCore_responders (p : Nat) (c : Core) : (s.setCore p c).responders = s.responders := rfl
@[simp] theorem State.setCore_routes (p : Nat) (c : Core) : (s.setCore p c).routes = s.routes := rfl
@[simp] theorem State.setCore_routeHi (p : Nat) (c : Core) : (s.setCore p c).routeHi = s.routeHi := rfl
@[simp] theorem State.setCore_funcs (p : Nat) (c : Core) : (s.setCore p c).funcs = s.funcs := rfl
@[simp] theorem State.setCore_reqs (p : Nat) (c : Core) : (s.setCore p c).reqs = s.reqs := rfl
@[simp] theorem State.setCore_kvUsed (p : Nat) (c : Core) : (s.setCore p c).kvUsed = s.kvUsed := rfl
@[simp] theorem State.setCore_wslots (p : Nat) (c : Core) : (s.setCore p c).wslots = s.wslots := rfl
@[simp] theorem State.setCore_wcmd (p : Nat) (c : Core) : (s.setCore p c).wcmd = s.wcmd := rfl
@[simp] theorem State.setCore_seats (p : Nat) (c : Core) : (s.setCore p c).seats = s.seats := rfl
@[simp] theorem State.setCore_versions (p : Nat) (c : Core) : (s.setCore p c).versions = s.versions := rfl
@[simp] theorem State.setCore_power (p : Nat) (c : Core) : (s.setCore p c).power = s.power := rfl
@[simp] theorem State.setCore_flt (p : Nat) (c : Core) : (s.setCore p c).flt = s.flt := rfl
@[simp] theorem State.setCore_mram (p : Nat) (c : Core) : (s.setCore p c).mram = s.mram := rfl
@[simp] theorem State.setCore_life (p : Nat) (c : Core) : (s.setCore p c).life = s.life := rfl
@[simp] theorem State.setCore_marks (p : Nat) (c : Core) : (s.setCore p c).marks = s.marks := rfl
@[simp] theorem State.setCore_msixMask (p : Nat) (c : Core) : (s.setCore p c).msixMask = s.msixMask := rfl
@[simp] theorem State.setCore_msixFnMask (p : Nat) (c : Core) : (s.setCore p c).msixFnMask = s.msixFnMask := rfl
@[simp] theorem State.setCore_msixPend (p : Nat) (c : Core) : (s.setCore p c).msixPend = s.msixPend := rfl
@[simp] theorem State.setCore_msixEntry (p : Nat) (c : Core) : (s.setCore p c).msixEntry = s.msixEntry := rfl
@[simp] theorem State.setCore_pcie (p : Nat) (c : Core) : (s.setCore p c).pcie = s.pcie := rfl
@[simp] theorem State.setCore_subsys (p : Nat) (c : Core) : (s.setCore p c).subsys = s.subsys := rfl
@[simp] theorem State.setCore_rd (p : Nat) (c : Core) (x : Fld) (a b : Nat) : (s.setCore p c).rd x a b = s.rd x a b := rfl

/-! ## onCore -/

@[simp] theorem State.onCore_pending (p : Nat) (g : Core → Core) : (s.onCore p g).pending = s.pending := rfl
@[simp] theorem State.onCore_tick (p : Nat) (g : Core → Core) : (s.onCore p g).tick = s.tick := rfl
@[simp] theorem State.onCore_time (p : Nat) (g : Core → Core) : (s.onCore p g).time = s.time := rfl
@[simp] theorem State.onCore_osc (p : Nat) (g : Core → Core) : (s.onCore p g).osc = s.osc := rfl
@[simp] theorem State.onCore_free (p : Nat) (g : Core → Core) : (s.onCore p g).free = s.free := rfl
@[simp] theorem State.onCore_stamp (p : Nat) (g : Core → Core) : (s.onCore p g).stamp = s.stamp := rfl
@[simp] theorem State.onCore_outbox (p : Nat) (g : Core → Core) : (s.onCore p g).outbox = s.outbox := rfl
@[simp] theorem State.onCore_regs (p : Nat) (g : Core → Core) : (s.onCore p g).regs = s.regs := rfl
@[simp] theorem State.onCore_recs (p : Nat) (g : Core → Core) : (s.onCore p g).recs = s.recs := rfl
@[simp] theorem State.onCore_latches (p : Nat) (g : Core → Core) : (s.onCore p g).latches = s.latches := rfl
@[simp] theorem State.onCore_pkg (p : Nat) (g : Core → Core) : (s.onCore p g).pkg = s.pkg := rfl
@[simp] theorem State.onCore_fuses (p : Nat) (g : Core → Core) : (s.onCore p g).fuses = s.fuses := rfl
@[simp] theorem State.onCore_recent (p : Nat) (g : Core → Core) : (s.onCore p g).recent = s.recent := rfl
@[simp] theorem State.onCore_hbm (p : Nat) (g : Core → Core) : (s.onCore p g).hbm = s.hbm := rfl
@[simp] theorem State.onCore_ddr (p : Nat) (g : Core → Core) : (s.onCore p g).ddr = s.ddr := rfl
@[simp] theorem State.onCore_dies (p : Nat) (g : Core → Core) : (s.onCore p g).dies = s.dies := rfl
@[simp] theorem State.onCore_wheels (p : Nat) (g : Core → Core) : (s.onCore p g).wheels = s.wheels := rfl
@[simp] theorem State.onCore_events (p : Nat) (g : Core → Core) : (s.onCore p g).events = s.events := rfl
@[simp] theorem State.onCore_thermtrip (p : Nat) (g : Core → Core) : (s.onCore p g).thermtrip = s.thermtrip := rfl
@[simp] theorem State.onCore_ddrSelf (p : Nat) (g : Core → Core) : (s.onCore p g).ddrSelf = s.ddrSelf := rfl
@[simp] theorem State.onCore_image (p : Nat) (g : Core → Core) : (s.onCore p g).image = s.image := rfl
@[simp] theorem State.onCore_loading (p : Nat) (g : Core → Core) : (s.onCore p g).loading = s.loading := rfl
@[simp] theorem State.onCore_done (p : Nat) (g : Core → Core) : (s.onCore p g).done = s.done := rfl
@[simp] theorem State.onCore_dealt (p : Nat) (g : Core → Core) : (s.onCore p g).dealt = s.dealt := rfl
@[simp] theorem State.onCore_groups (p : Nat) (g : Core → Core) : (s.onCore p g).groups = s.groups := rfl
@[simp] theorem State.onCore_trickIn (p : Nat) (g : Core → Core) : (s.onCore p g).trickIn = s.trickIn := rfl
@[simp] theorem State.onCore_digests (p : Nat) (g : Core → Core) : (s.onCore p g).digests = s.digests := rfl
@[simp] theorem State.onCore_timing (p : Nat) (g : Core → Core) : (s.onCore p g).timing = s.timing := rfl
@[simp] theorem State.onCore_partner (p : Nat) (g : Core → Core) : (s.onCore p g).partner = s.partner := rfl
@[simp] theorem State.onCore_partnerIn (p : Nat) (g : Core → Core) : (s.onCore p g).partnerIn = s.partnerIn := rfl
@[simp] theorem State.onCore_ports (p : Nat) (g : Core → Core) : (s.onCore p g).ports = s.ports := rfl
@[simp] theorem State.onCore_responders (p : Nat) (g : Core → Core) : (s.onCore p g).responders = s.responders := rfl
@[simp] theorem State.onCore_routes (p : Nat) (g : Core → Core) : (s.onCore p g).routes = s.routes := rfl
@[simp] theorem State.onCore_routeHi (p : Nat) (g : Core → Core) : (s.onCore p g).routeHi = s.routeHi := rfl
@[simp] theorem State.onCore_funcs (p : Nat) (g : Core → Core) : (s.onCore p g).funcs = s.funcs := rfl
@[simp] theorem State.onCore_reqs (p : Nat) (g : Core → Core) : (s.onCore p g).reqs = s.reqs := rfl
@[simp] theorem State.onCore_kvUsed (p : Nat) (g : Core → Core) : (s.onCore p g).kvUsed = s.kvUsed := rfl
@[simp] theorem State.onCore_wslots (p : Nat) (g : Core → Core) : (s.onCore p g).wslots = s.wslots := rfl
@[simp] theorem State.onCore_wcmd (p : Nat) (g : Core → Core) : (s.onCore p g).wcmd = s.wcmd := rfl
@[simp] theorem State.onCore_seats (p : Nat) (g : Core → Core) : (s.onCore p g).seats = s.seats := rfl
@[simp] theorem State.onCore_versions (p : Nat) (g : Core → Core) : (s.onCore p g).versions = s.versions := rfl
@[simp] theorem State.onCore_power (p : Nat) (g : Core → Core) : (s.onCore p g).power = s.power := rfl
@[simp] theorem State.onCore_flt (p : Nat) (g : Core → Core) : (s.onCore p g).flt = s.flt := rfl
@[simp] theorem State.onCore_mram (p : Nat) (g : Core → Core) : (s.onCore p g).mram = s.mram := rfl
@[simp] theorem State.onCore_life (p : Nat) (g : Core → Core) : (s.onCore p g).life = s.life := rfl
@[simp] theorem State.onCore_marks (p : Nat) (g : Core → Core) : (s.onCore p g).marks = s.marks := rfl
@[simp] theorem State.onCore_msixMask (p : Nat) (g : Core → Core) : (s.onCore p g).msixMask = s.msixMask := rfl
@[simp] theorem State.onCore_msixFnMask (p : Nat) (g : Core → Core) : (s.onCore p g).msixFnMask = s.msixFnMask := rfl
@[simp] theorem State.onCore_msixPend (p : Nat) (g : Core → Core) : (s.onCore p g).msixPend = s.msixPend := rfl
@[simp] theorem State.onCore_msixEntry (p : Nat) (g : Core → Core) : (s.onCore p g).msixEntry = s.msixEntry := rfl
@[simp] theorem State.onCore_pcie (p : Nat) (g : Core → Core) : (s.onCore p g).pcie = s.pcie := rfl
@[simp] theorem State.onCore_subsys (p : Nat) (g : Core → Core) : (s.onCore p g).subsys = s.subsys := rfl
@[simp] theorem State.onCore_rd (p : Nat) (g : Core → Core) (x : Fld) (a b : Nat) : (s.onCore p g).rd x a b = s.rd x a b := rfl

/-! ## onDie -/

@[simp] theorem State.onDie_pending (d : Nat) (g : Die → Die) : (s.onDie d g).pending = s.pending := rfl
@[simp] theorem State.onDie_tick (d : Nat) (g : Die → Die) : (s.onDie d g).tick = s.tick := rfl
@[simp] theorem State.onDie_time (d : Nat) (g : Die → Die) : (s.onDie d g).time = s.time := rfl
@[simp] theorem State.onDie_osc (d : Nat) (g : Die → Die) : (s.onDie d g).osc = s.osc := rfl
@[simp] theorem State.onDie_free (d : Nat) (g : Die → Die) : (s.onDie d g).free = s.free := rfl
@[simp] theorem State.onDie_stamp (d : Nat) (g : Die → Die) : (s.onDie d g).stamp = s.stamp := rfl
@[simp] theorem State.onDie_outbox (d : Nat) (g : Die → Die) : (s.onDie d g).outbox = s.outbox := rfl
@[simp] theorem State.onDie_regs (d : Nat) (g : Die → Die) : (s.onDie d g).regs = s.regs := rfl
@[simp] theorem State.onDie_recs (d : Nat) (g : Die → Die) : (s.onDie d g).recs = s.recs := rfl
@[simp] theorem State.onDie_latches (d : Nat) (g : Die → Die) : (s.onDie d g).latches = s.latches := rfl
@[simp] theorem State.onDie_pkg (d : Nat) (g : Die → Die) : (s.onDie d g).pkg = s.pkg := rfl
@[simp] theorem State.onDie_fuses (d : Nat) (g : Die → Die) : (s.onDie d g).fuses = s.fuses := rfl
@[simp] theorem State.onDie_cores (d : Nat) (g : Die → Die) : (s.onDie d g).cores = s.cores := rfl
@[simp] theorem State.onDie_recent (d : Nat) (g : Die → Die) : (s.onDie d g).recent = s.recent := rfl
@[simp] theorem State.onDie_hbm (d : Nat) (g : Die → Die) : (s.onDie d g).hbm = s.hbm := rfl
@[simp] theorem State.onDie_ddr (d : Nat) (g : Die → Die) : (s.onDie d g).ddr = s.ddr := rfl
@[simp] theorem State.onDie_wheels (d : Nat) (g : Die → Die) : (s.onDie d g).wheels = s.wheels := rfl
@[simp] theorem State.onDie_events (d : Nat) (g : Die → Die) : (s.onDie d g).events = s.events := rfl
@[simp] theorem State.onDie_thermtrip (d : Nat) (g : Die → Die) : (s.onDie d g).thermtrip = s.thermtrip := rfl
@[simp] theorem State.onDie_ddrSelf (d : Nat) (g : Die → Die) : (s.onDie d g).ddrSelf = s.ddrSelf := rfl
@[simp] theorem State.onDie_image (d : Nat) (g : Die → Die) : (s.onDie d g).image = s.image := rfl
@[simp] theorem State.onDie_loading (d : Nat) (g : Die → Die) : (s.onDie d g).loading = s.loading := rfl
@[simp] theorem State.onDie_done (d : Nat) (g : Die → Die) : (s.onDie d g).done = s.done := rfl
@[simp] theorem State.onDie_dealt (d : Nat) (g : Die → Die) : (s.onDie d g).dealt = s.dealt := rfl
@[simp] theorem State.onDie_groups (d : Nat) (g : Die → Die) : (s.onDie d g).groups = s.groups := rfl
@[simp] theorem State.onDie_trickIn (d : Nat) (g : Die → Die) : (s.onDie d g).trickIn = s.trickIn := rfl
@[simp] theorem State.onDie_digests (d : Nat) (g : Die → Die) : (s.onDie d g).digests = s.digests := rfl
@[simp] theorem State.onDie_timing (d : Nat) (g : Die → Die) : (s.onDie d g).timing = s.timing := rfl
@[simp] theorem State.onDie_partner (d : Nat) (g : Die → Die) : (s.onDie d g).partner = s.partner := rfl
@[simp] theorem State.onDie_partnerIn (d : Nat) (g : Die → Die) : (s.onDie d g).partnerIn = s.partnerIn := rfl
@[simp] theorem State.onDie_ports (d : Nat) (g : Die → Die) : (s.onDie d g).ports = s.ports := rfl
@[simp] theorem State.onDie_responders (d : Nat) (g : Die → Die) : (s.onDie d g).responders = s.responders := rfl
@[simp] theorem State.onDie_routes (d : Nat) (g : Die → Die) : (s.onDie d g).routes = s.routes := rfl
@[simp] theorem State.onDie_routeHi (d : Nat) (g : Die → Die) : (s.onDie d g).routeHi = s.routeHi := rfl
@[simp] theorem State.onDie_funcs (d : Nat) (g : Die → Die) : (s.onDie d g).funcs = s.funcs := rfl
@[simp] theorem State.onDie_reqs (d : Nat) (g : Die → Die) : (s.onDie d g).reqs = s.reqs := rfl
@[simp] theorem State.onDie_kvUsed (d : Nat) (g : Die → Die) : (s.onDie d g).kvUsed = s.kvUsed := rfl
@[simp] theorem State.onDie_wslots (d : Nat) (g : Die → Die) : (s.onDie d g).wslots = s.wslots := rfl
@[simp] theorem State.onDie_wcmd (d : Nat) (g : Die → Die) : (s.onDie d g).wcmd = s.wcmd := rfl
@[simp] theorem State.onDie_seats (d : Nat) (g : Die → Die) : (s.onDie d g).seats = s.seats := rfl
@[simp] theorem State.onDie_versions (d : Nat) (g : Die → Die) : (s.onDie d g).versions = s.versions := rfl
@[simp] theorem State.onDie_power (d : Nat) (g : Die → Die) : (s.onDie d g).power = s.power := rfl
@[simp] theorem State.onDie_flt (d : Nat) (g : Die → Die) : (s.onDie d g).flt = s.flt := rfl
@[simp] theorem State.onDie_mram (d : Nat) (g : Die → Die) : (s.onDie d g).mram = s.mram := rfl
@[simp] theorem State.onDie_life (d : Nat) (g : Die → Die) : (s.onDie d g).life = s.life := rfl
@[simp] theorem State.onDie_marks (d : Nat) (g : Die → Die) : (s.onDie d g).marks = s.marks := rfl
@[simp] theorem State.onDie_msixMask (d : Nat) (g : Die → Die) : (s.onDie d g).msixMask = s.msixMask := rfl
@[simp] theorem State.onDie_msixFnMask (d : Nat) (g : Die → Die) : (s.onDie d g).msixFnMask = s.msixFnMask := rfl
@[simp] theorem State.onDie_msixPend (d : Nat) (g : Die → Die) : (s.onDie d g).msixPend = s.msixPend := rfl
@[simp] theorem State.onDie_msixEntry (d : Nat) (g : Die → Die) : (s.onDie d g).msixEntry = s.msixEntry := rfl
@[simp] theorem State.onDie_pcie (d : Nat) (g : Die → Die) : (s.onDie d g).pcie = s.pcie := rfl
@[simp] theorem State.onDie_subsys (d : Nat) (g : Die → Die) : (s.onDie d g).subsys = s.subsys := rfl
@[simp] theorem State.onDie_rd (d : Nat) (g : Die → Die) (x : Fld) (a b : Nat) : (s.onDie d g).rd x a b = s.rd x a b := rfl

/-! ## onGroup -/

@[simp] theorem State.onGroup_pending (n : Nat) (g : Group → Group) : (s.onGroup n g).pending = s.pending := rfl
@[simp] theorem State.onGroup_tick (n : Nat) (g : Group → Group) : (s.onGroup n g).tick = s.tick := rfl
@[simp] theorem State.onGroup_time (n : Nat) (g : Group → Group) : (s.onGroup n g).time = s.time := rfl
@[simp] theorem State.onGroup_osc (n : Nat) (g : Group → Group) : (s.onGroup n g).osc = s.osc := rfl
@[simp] theorem State.onGroup_free (n : Nat) (g : Group → Group) : (s.onGroup n g).free = s.free := rfl
@[simp] theorem State.onGroup_stamp (n : Nat) (g : Group → Group) : (s.onGroup n g).stamp = s.stamp := rfl
@[simp] theorem State.onGroup_outbox (n : Nat) (g : Group → Group) : (s.onGroup n g).outbox = s.outbox := rfl
@[simp] theorem State.onGroup_regs (n : Nat) (g : Group → Group) : (s.onGroup n g).regs = s.regs := rfl
@[simp] theorem State.onGroup_recs (n : Nat) (g : Group → Group) : (s.onGroup n g).recs = s.recs := rfl
@[simp] theorem State.onGroup_latches (n : Nat) (g : Group → Group) : (s.onGroup n g).latches = s.latches := rfl
@[simp] theorem State.onGroup_pkg (n : Nat) (g : Group → Group) : (s.onGroup n g).pkg = s.pkg := rfl
@[simp] theorem State.onGroup_fuses (n : Nat) (g : Group → Group) : (s.onGroup n g).fuses = s.fuses := rfl
@[simp] theorem State.onGroup_cores (n : Nat) (g : Group → Group) : (s.onGroup n g).cores = s.cores := rfl
@[simp] theorem State.onGroup_recent (n : Nat) (g : Group → Group) : (s.onGroup n g).recent = s.recent := rfl
@[simp] theorem State.onGroup_hbm (n : Nat) (g : Group → Group) : (s.onGroup n g).hbm = s.hbm := rfl
@[simp] theorem State.onGroup_ddr (n : Nat) (g : Group → Group) : (s.onGroup n g).ddr = s.ddr := rfl
@[simp] theorem State.onGroup_dies (n : Nat) (g : Group → Group) : (s.onGroup n g).dies = s.dies := rfl
@[simp] theorem State.onGroup_wheels (n : Nat) (g : Group → Group) : (s.onGroup n g).wheels = s.wheels := rfl
@[simp] theorem State.onGroup_events (n : Nat) (g : Group → Group) : (s.onGroup n g).events = s.events := rfl
@[simp] theorem State.onGroup_thermtrip (n : Nat) (g : Group → Group) : (s.onGroup n g).thermtrip = s.thermtrip := rfl
@[simp] theorem State.onGroup_ddrSelf (n : Nat) (g : Group → Group) : (s.onGroup n g).ddrSelf = s.ddrSelf := rfl
@[simp] theorem State.onGroup_image (n : Nat) (g : Group → Group) : (s.onGroup n g).image = s.image := rfl
@[simp] theorem State.onGroup_loading (n : Nat) (g : Group → Group) : (s.onGroup n g).loading = s.loading := rfl
@[simp] theorem State.onGroup_done (n : Nat) (g : Group → Group) : (s.onGroup n g).done = s.done := rfl
@[simp] theorem State.onGroup_dealt (n : Nat) (g : Group → Group) : (s.onGroup n g).dealt = s.dealt := rfl
@[simp] theorem State.onGroup_trickIn (n : Nat) (g : Group → Group) : (s.onGroup n g).trickIn = s.trickIn := rfl
@[simp] theorem State.onGroup_digests (n : Nat) (g : Group → Group) : (s.onGroup n g).digests = s.digests := rfl
@[simp] theorem State.onGroup_timing (n : Nat) (g : Group → Group) : (s.onGroup n g).timing = s.timing := rfl
@[simp] theorem State.onGroup_partner (n : Nat) (g : Group → Group) : (s.onGroup n g).partner = s.partner := rfl
@[simp] theorem State.onGroup_partnerIn (n : Nat) (g : Group → Group) : (s.onGroup n g).partnerIn = s.partnerIn := rfl
@[simp] theorem State.onGroup_ports (n : Nat) (g : Group → Group) : (s.onGroup n g).ports = s.ports := rfl
@[simp] theorem State.onGroup_responders (n : Nat) (g : Group → Group) : (s.onGroup n g).responders = s.responders := rfl
@[simp] theorem State.onGroup_routes (n : Nat) (g : Group → Group) : (s.onGroup n g).routes = s.routes := rfl
@[simp] theorem State.onGroup_routeHi (n : Nat) (g : Group → Group) : (s.onGroup n g).routeHi = s.routeHi := rfl
@[simp] theorem State.onGroup_funcs (n : Nat) (g : Group → Group) : (s.onGroup n g).funcs = s.funcs := rfl
@[simp] theorem State.onGroup_reqs (n : Nat) (g : Group → Group) : (s.onGroup n g).reqs = s.reqs := rfl
@[simp] theorem State.onGroup_kvUsed (n : Nat) (g : Group → Group) : (s.onGroup n g).kvUsed = s.kvUsed := rfl
@[simp] theorem State.onGroup_wslots (n : Nat) (g : Group → Group) : (s.onGroup n g).wslots = s.wslots := rfl
@[simp] theorem State.onGroup_wcmd (n : Nat) (g : Group → Group) : (s.onGroup n g).wcmd = s.wcmd := rfl
@[simp] theorem State.onGroup_seats (n : Nat) (g : Group → Group) : (s.onGroup n g).seats = s.seats := rfl
@[simp] theorem State.onGroup_versions (n : Nat) (g : Group → Group) : (s.onGroup n g).versions = s.versions := rfl
@[simp] theorem State.onGroup_power (n : Nat) (g : Group → Group) : (s.onGroup n g).power = s.power := rfl
@[simp] theorem State.onGroup_flt (n : Nat) (g : Group → Group) : (s.onGroup n g).flt = s.flt := rfl
@[simp] theorem State.onGroup_mram (n : Nat) (g : Group → Group) : (s.onGroup n g).mram = s.mram := rfl
@[simp] theorem State.onGroup_life (n : Nat) (g : Group → Group) : (s.onGroup n g).life = s.life := rfl
@[simp] theorem State.onGroup_marks (n : Nat) (g : Group → Group) : (s.onGroup n g).marks = s.marks := rfl
@[simp] theorem State.onGroup_msixMask (n : Nat) (g : Group → Group) : (s.onGroup n g).msixMask = s.msixMask := rfl
@[simp] theorem State.onGroup_msixFnMask (n : Nat) (g : Group → Group) : (s.onGroup n g).msixFnMask = s.msixFnMask := rfl
@[simp] theorem State.onGroup_msixPend (n : Nat) (g : Group → Group) : (s.onGroup n g).msixPend = s.msixPend := rfl
@[simp] theorem State.onGroup_msixEntry (n : Nat) (g : Group → Group) : (s.onGroup n g).msixEntry = s.msixEntry := rfl
@[simp] theorem State.onGroup_pcie (n : Nat) (g : Group → Group) : (s.onGroup n g).pcie = s.pcie := rfl
@[simp] theorem State.onGroup_subsys (n : Nat) (g : Group → Group) : (s.onGroup n g).subsys = s.subsys := rfl
@[simp] theorem State.onGroup_rd (n : Nat) (g : Group → Group) (x : Fld) (a b : Nat) : (s.onGroup n g).rd x a b = s.rd x a b := rfl

/-! ## onPort -/

@[simp] theorem State.onPort_pending (p : Nat) (g : Port → Port) : (s.onPort p g).pending = s.pending := rfl
@[simp] theorem State.onPort_tick (p : Nat) (g : Port → Port) : (s.onPort p g).tick = s.tick := rfl
@[simp] theorem State.onPort_time (p : Nat) (g : Port → Port) : (s.onPort p g).time = s.time := rfl
@[simp] theorem State.onPort_osc (p : Nat) (g : Port → Port) : (s.onPort p g).osc = s.osc := rfl
@[simp] theorem State.onPort_free (p : Nat) (g : Port → Port) : (s.onPort p g).free = s.free := rfl
@[simp] theorem State.onPort_stamp (p : Nat) (g : Port → Port) : (s.onPort p g).stamp = s.stamp := rfl
@[simp] theorem State.onPort_outbox (p : Nat) (g : Port → Port) : (s.onPort p g).outbox = s.outbox := rfl
@[simp] theorem State.onPort_regs (p : Nat) (g : Port → Port) : (s.onPort p g).regs = s.regs := rfl
@[simp] theorem State.onPort_recs (p : Nat) (g : Port → Port) : (s.onPort p g).recs = s.recs := rfl
@[simp] theorem State.onPort_latches (p : Nat) (g : Port → Port) : (s.onPort p g).latches = s.latches := rfl
@[simp] theorem State.onPort_pkg (p : Nat) (g : Port → Port) : (s.onPort p g).pkg = s.pkg := rfl
@[simp] theorem State.onPort_fuses (p : Nat) (g : Port → Port) : (s.onPort p g).fuses = s.fuses := rfl
@[simp] theorem State.onPort_cores (p : Nat) (g : Port → Port) : (s.onPort p g).cores = s.cores := rfl
@[simp] theorem State.onPort_recent (p : Nat) (g : Port → Port) : (s.onPort p g).recent = s.recent := rfl
@[simp] theorem State.onPort_hbm (p : Nat) (g : Port → Port) : (s.onPort p g).hbm = s.hbm := rfl
@[simp] theorem State.onPort_ddr (p : Nat) (g : Port → Port) : (s.onPort p g).ddr = s.ddr := rfl
@[simp] theorem State.onPort_dies (p : Nat) (g : Port → Port) : (s.onPort p g).dies = s.dies := rfl
@[simp] theorem State.onPort_wheels (p : Nat) (g : Port → Port) : (s.onPort p g).wheels = s.wheels := rfl
@[simp] theorem State.onPort_events (p : Nat) (g : Port → Port) : (s.onPort p g).events = s.events := rfl
@[simp] theorem State.onPort_thermtrip (p : Nat) (g : Port → Port) : (s.onPort p g).thermtrip = s.thermtrip := rfl
@[simp] theorem State.onPort_ddrSelf (p : Nat) (g : Port → Port) : (s.onPort p g).ddrSelf = s.ddrSelf := rfl
@[simp] theorem State.onPort_image (p : Nat) (g : Port → Port) : (s.onPort p g).image = s.image := rfl
@[simp] theorem State.onPort_loading (p : Nat) (g : Port → Port) : (s.onPort p g).loading = s.loading := rfl
@[simp] theorem State.onPort_done (p : Nat) (g : Port → Port) : (s.onPort p g).done = s.done := rfl
@[simp] theorem State.onPort_dealt (p : Nat) (g : Port → Port) : (s.onPort p g).dealt = s.dealt := rfl
@[simp] theorem State.onPort_groups (p : Nat) (g : Port → Port) : (s.onPort p g).groups = s.groups := rfl
@[simp] theorem State.onPort_trickIn (p : Nat) (g : Port → Port) : (s.onPort p g).trickIn = s.trickIn := rfl
@[simp] theorem State.onPort_digests (p : Nat) (g : Port → Port) : (s.onPort p g).digests = s.digests := rfl
@[simp] theorem State.onPort_timing (p : Nat) (g : Port → Port) : (s.onPort p g).timing = s.timing := rfl
@[simp] theorem State.onPort_partner (p : Nat) (g : Port → Port) : (s.onPort p g).partner = s.partner := rfl
@[simp] theorem State.onPort_partnerIn (p : Nat) (g : Port → Port) : (s.onPort p g).partnerIn = s.partnerIn := rfl
@[simp] theorem State.onPort_responders (p : Nat) (g : Port → Port) : (s.onPort p g).responders = s.responders := rfl
@[simp] theorem State.onPort_routes (p : Nat) (g : Port → Port) : (s.onPort p g).routes = s.routes := rfl
@[simp] theorem State.onPort_routeHi (p : Nat) (g : Port → Port) : (s.onPort p g).routeHi = s.routeHi := rfl
@[simp] theorem State.onPort_funcs (p : Nat) (g : Port → Port) : (s.onPort p g).funcs = s.funcs := rfl
@[simp] theorem State.onPort_reqs (p : Nat) (g : Port → Port) : (s.onPort p g).reqs = s.reqs := rfl
@[simp] theorem State.onPort_kvUsed (p : Nat) (g : Port → Port) : (s.onPort p g).kvUsed = s.kvUsed := rfl
@[simp] theorem State.onPort_wslots (p : Nat) (g : Port → Port) : (s.onPort p g).wslots = s.wslots := rfl
@[simp] theorem State.onPort_wcmd (p : Nat) (g : Port → Port) : (s.onPort p g).wcmd = s.wcmd := rfl
@[simp] theorem State.onPort_seats (p : Nat) (g : Port → Port) : (s.onPort p g).seats = s.seats := rfl
@[simp] theorem State.onPort_versions (p : Nat) (g : Port → Port) : (s.onPort p g).versions = s.versions := rfl
@[simp] theorem State.onPort_power (p : Nat) (g : Port → Port) : (s.onPort p g).power = s.power := rfl
@[simp] theorem State.onPort_flt (p : Nat) (g : Port → Port) : (s.onPort p g).flt = s.flt := rfl
@[simp] theorem State.onPort_mram (p : Nat) (g : Port → Port) : (s.onPort p g).mram = s.mram := rfl
@[simp] theorem State.onPort_life (p : Nat) (g : Port → Port) : (s.onPort p g).life = s.life := rfl
@[simp] theorem State.onPort_marks (p : Nat) (g : Port → Port) : (s.onPort p g).marks = s.marks := rfl
@[simp] theorem State.onPort_msixMask (p : Nat) (g : Port → Port) : (s.onPort p g).msixMask = s.msixMask := rfl
@[simp] theorem State.onPort_msixFnMask (p : Nat) (g : Port → Port) : (s.onPort p g).msixFnMask = s.msixFnMask := rfl
@[simp] theorem State.onPort_msixPend (p : Nat) (g : Port → Port) : (s.onPort p g).msixPend = s.msixPend := rfl
@[simp] theorem State.onPort_msixEntry (p : Nat) (g : Port → Port) : (s.onPort p g).msixEntry = s.msixEntry := rfl
@[simp] theorem State.onPort_pcie (p : Nat) (g : Port → Port) : (s.onPort p g).pcie = s.pcie := rfl
@[simp] theorem State.onPort_subsys (p : Nat) (g : Port → Port) : (s.onPort p g).subsys = s.subsys := rfl
@[simp] theorem State.onPort_rd (p : Nat) (g : Port → Port) (x : Fld) (a b : Nat) : (s.onPort p g).rd x a b = s.rd x a b := rfl

/-! ## Registers -/

/-- A field read after a write of any field. -/
theorem State.rd_wr (f g : Fld) (v i k i' k' : Nat) (hr : f.key i k = g.key i' k' → f.reset = g.reset) :
    (s.wr f v i k).rd g i' k' = if g.key i' k' = f.key i k then v % 2 ^ f.width else s.rd g i' k' := by
  unfold State.wr State.rd
  by_cases h : g.key i' k' = f.key i k
  · rw [if_pos h, h]
    simp only [hr h.symm, SMap.get_set_same]
  · rw [if_neg h]
    show SMap.get g.reset (SMap.set f.reset s.regs (f.key i k) (v % 2 ^ f.width)) (g.key i' k') = _
    have ex : ∀ (d d' : Nat) (m : SMap Nat) (x : Nat), (∃ e ∈ m, e.1 = x) → SMap.get d m x = SMap.get d' m x := by
      intro d d' m x
      induction m with
      | nil => rintro ⟨e, he, _⟩; simp at he
      | cons e m ih =>
        rintro ⟨e', he, hx⟩
        obtain ⟨y, w⟩ := e
        by_cases hy : y = x
        · simp [SMap.get, hy]
        · simp only [SMap.get, hy, if_false]
          rcases List.mem_cons.1 he with rfl | he
          · exact absurd hx hy
          · exact ih ⟨e', he, hx⟩
    have mem : (∃ e ∈ SMap.set f.reset s.regs (f.key i k) (v % 2 ^ f.width), e.1 = g.key i' k') ↔ ∃ e ∈ s.regs, e.1 = g.key i' k' := by
      unfold SMap.set SMap.cut
      simp only [List.mem_append, List.mem_filter, decide_eq_true_eq]
      constructor
      · rintro ⟨e, (⟨he, _⟩ | he) | ⟨he, _⟩, hk⟩
        · exact ⟨e, he, hk⟩
        · split at he
          · simp at he
          · simp at he; rw [he] at hk; exact absurd hk.symm h
        · exact ⟨e, he, hk⟩
      · rintro ⟨e, he, hk⟩
        rcases Nat.lt_or_ge e.1 (f.key i k) with hl | hl
        · exact ⟨e, Or.inl (Or.inl ⟨he, hl⟩), hk⟩
        · exact ⟨e, Or.inr ⟨he, by omega⟩, hk⟩
    by_cases hm : ∃ e ∈ s.regs, e.1 = g.key i' k'
    · rw [ex g.reset f.reset _ _ (mem.2 hm), SMap.get_set_ne _ _ _ h, ex f.reset g.reset _ _ hm]
    · rw [SMap.get_of_notin _ _ _ (fun e he hk => hm (mem.1 ⟨e, he, hk⟩)), SMap.get_of_notin _ _ _ (fun e he hk => hm ⟨e, he, hk⟩)]

/-- A field read after its own write. -/
@[simp] theorem State.rd_wr_same (f : Fld) (v i k : Nat) : (s.wr f v i k).rd f i k = v % 2 ^ f.width := by
  rw [State.rd_wr _ _ _ _ _ _ _ _ (fun _ => rfl)]; simp

/-- A field read after the write of another. -/
theorem State.rd_wr_ne (f g : Fld) (v i k i' k' : Nat) (h : g.key i' k' ≠ f.key i k) : (s.wr f v i k).rd g i' k' = s.rd g i' k' := by
  rw [State.rd_wr _ _ _ _ _ _ _ _ (fun e => absurd e.symm h)]; simp [h]

/-! ## Cores, dies, groups and ports -/

/-- A core record after an update of some core record. -/
theorem State.core_onCore (p q : Nat) (g : Core → Core) : (s.onCore p g).core q = if q = p then g (s.core p) else s.core q := by
  show SMap.get Core.reset (SMap.set Core.reset s.cores p (g (s.core p))) q = _
  rw [SMap.get_set]; rfl

@[simp] theorem State.core_onCore_same (p : Nat) (g : Core → Core) : (s.onCore p g).core p = g (s.core p) := by
  rw [State.core_onCore]; simp

theorem State.core_onCore_ne {p q : Nat} (g : Core → Core) (h : q ≠ p) : (s.onCore p g).core q = s.core q := by
  rw [State.core_onCore]; simp [h]

@[simp] theorem State.core_setCore_same (p : Nat) (c : Core) : (s.setCore p c).core p = c := SMap.get_set_same _ _ _ _

theorem State.core_setCore_ne {p q : Nat} (c : Core) (h : q ≠ p) : (s.setCore p c).core q = s.core q := SMap.get_set_ne _ _ _ h

/-- A die record after an update of some die record. -/
theorem State.die_onDie (d e : Nat) (g : Die → Die) : (s.onDie d g).die e = if e = d then g (s.die d) else s.die e := by
  show SMap.get Die.reset (SMap.set Die.reset s.dies d (g (s.die d))) e = _
  rw [SMap.get_set]; rfl

@[simp] theorem State.die_onDie_same (d : Nat) (g : Die → Die) : (s.onDie d g).die d = g (s.die d) := by
  rw [State.die_onDie]; simp

/-- A trick group after an update of some group. -/
theorem State.group_onGroup (n m : Nat) (g : Group → Group) : (s.onGroup n g).group m = if m = n then g (s.group n) else s.group m := by
  show SMap.get Group.reset (SMap.set Group.reset s.groups n (g (s.group n))) m = _
  rw [SMap.get_set]; rfl

@[simp] theorem State.group_onGroup_same (n : Nat) (g : Group → Group) : (s.onGroup n g).group n = g (s.group n) := by
  rw [State.group_onGroup]; simp

/-- A port after an update of some port. -/
theorem State.port_onPort (p q : Nat) (g : Port → Port) : (s.onPort p g).port q = if q = p then g (s.port p) else s.port q := by
  show SMap.get Port.reset (SMap.set Port.reset s.ports p (g (s.port p))) q = _
  rw [SMap.get_set]; rfl

@[simp] theorem State.port_onPort_same (p : Nat) (g : Port → Port) : (s.onPort p g).port p = g (s.port p) := by
  rw [State.port_onPort]; simp

/-! ## Memories and seals -/

/-- One byte of a tier after bytes were written. -/
theorem Tier.read_write (t : Tier) (a i : Nat) (bs : List Byte) :
    SMap.get 0#8 (t.write a bs).bytes i = if a ≤ i ∧ i < a + bs.length then bs.getD (i - a) 0#8 else SMap.get 0#8 t.bytes i :=
  SMap.get_setRun _ _ _ _ _

/-- Writing bytes leaves a tier's memory in canonical form. -/
theorem Tier.wf_write (t : Tier) (a : Nat) (bs : List Byte) (h : SMap.wf 0#8 t.bytes = true) :
    SMap.wf 0#8 (t.write a bs).bytes = true := SMap.wf_setRun _ _ _ _ h

/-- One byte of a scratchpad after bytes were written. -/
theorem Core.read_write (c : Core) (a i : Nat) (bs : List Byte) :
    SMap.get 0#8 (c.spmWrite a bs).spm i = if a ≤ i ∧ i < a + bs.length then bs.getD (i - a) 0#8 else SMap.get 0#8 c.spm i :=
  SMap.get_setRun _ _ _ _ _

/-- Writing bytes leaves a scratchpad in canonical form. -/
theorem Core.wf_spmWrite (c : Core) (a : Nat) (bs : List Byte) (h : SMap.wf 0#8 c.spm = true) :
    SMap.wf 0#8 (c.spmWrite a bs).spm = true := SMap.wf_setRun _ _ _ _ h

@[simp] theorem Tier.write_seals (t : Tier) (a : Nat) (bs : List Byte) : (t.write a bs).seals = t.seals := rfl
/-- A write clears the stored errors of the words that it covers (R232). -/
@[simp] theorem Tier.write_err (t : Tier) (a : Nat) (bs : List Byte) :
    (t.write a bs).err = clearErrs t.err ((a + 31) / 32) ((a + bs.length) / 32) := rfl
@[simp] theorem Tier.setSeal_bytes (t : Tier) (a : Nat) (x : Seal) : (t.setSeal a x).bytes = t.bytes := rfl
@[simp] theorem Tier.setSeal_err (t : Tier) (a : Nat) (x : Seal) : (t.setSeal a x).err = t.err := rfl

/-- The seal of a tile after a seal was replaced. -/
theorem Tier.sealAt_setSeal (t : Tier) (a b : Nat) (x : Seal) :
    (t.setSeal a x).sealAt b = if b / 4096 = a / 4096 then x else t.sealAt b := SMap.get_set _ _ _ _ _

/-- The seal of a scratchpad tile after a seal was replaced. -/
theorem Core.sealAt_setSeal (c : Core) (a b : Nat) (x : Seal) :
    (c.setSeal a x).sealAt b = if b / 4096 = a / 4096 then x else c.sealAt b := SMap.get_set _ _ _ _ _

end Sys2Proof.Machine
end

