-- ==== Sys2Proof/Laws/Ops.lean ====
section
/-! SUPPORT. What each shared operation can do, said once: messages and events, time, what the port answers, memories and seals, flags and
windows, the sequencer's slots, signals, faults, issue, start and completion. -/

namespace Sys2Proof.Machine

/-! ## Messages and events (R484, R499) -/

/-- Everything that an MSI-X message can do: nothing, one count of CNT_BAD_VECTOR, a pending bit, or the message itself. -/
theorem State.msix_cases (s : State) (fn n : Nat) :
    s.msix fn n = s ∨ s.msix fn n = s.bump R.HIF_CNT_BAD_VECTOR ∨
    s.msix fn n = { s with msixPend := SMap.set false s.msixPend (2048 * fn + n) true } ∨ s.msix fn n = s.emit (s.msixOut fn n) := by
  unfold State.msix; split_ifs <;> simp

/-- A message changes register fields, pending bits and the outbox only. -/
theorem State.msix_frame (s : State) (fn n : Nat) :
    s.msix fn n = { s with regs := (s.msix fn n).regs, msixPend := (s.msix fn n).msixPend, outbox := (s.msix fn n).outbox } := by
  rcases s.msix_cases fn n with h | h | h | h <;> rw [h] <;> rfl

/-- A message leaves every register field but CNT_BAD_VECTOR. -/
theorem State.msix_rd (s : State) (fn n : Nat) (f : Fld) (i k : Nat) (h : f.key i k ≠ R.HIF_CNT_BAD_VECTOR.key 0 0) :
    (s.msix fn n).rd f i k = s.rd f i k := by
  rcases s.msix_cases fn n with e | e | e | e <;> rw [e]
  · exact State.rd_wr_ne _ _ _ _ _ _ _ _ h
  · rfl
  · rfl

/-- Raising page events changes register fields, pending bits and the outbox only. -/
theorem State.setEvents_frame (s : State) (b : Block) (i mask code : Nat) :
    s.setEvents b i mask code = { s with regs := (s.setEvents b i mask code).regs, msixPend := (s.setEvents b i mask code).msixPend,
                                         outbox := (s.setEvents b i mask code).outbox } := by
  unfold State.setEvents State.pageMsg
  dsimp only
  split_ifs
  · exact State.msix_frame _ _ _
  · rfl
  · exact State.msix_frame _ _ _
  · rfl

/-- Raising one page event changes register fields, pending bits and the outbox only. -/
theorem State.raiseEvt_frame (s : State) (b : Block) (i bit code : Nat) :
    s.raiseEvt b i bit code = { s with regs := (s.raiseEvt b i bit code).regs, msixPend := (s.raiseEvt b i bit code).msixPend,
                                       outbox := (s.raiseEvt b i bit code).outbox } := s.setEvents_frame b i _ _

/-- Raising page events leaves every register field but the page's EVT_STATUS and EVT_FIRST and CNT_BAD_VECTOR. -/
theorem State.setEvents_rd (s : State) (b : Block) (i mask code : Nat) (f : Fld) (j k : Nat)
    (h1 : f.key j k ≠ R.HIF_CNT_BAD_VECTOR.key 0 0) (h2 : f.key j k ≠ (R.EVT_STATUS b).key i 0)
    (h3 : f.key j k ≠ (R.EVT_FIRST_CODE b).key i 0) : (s.setEvents b i mask code).rd f j k = s.rd f j k := by
  unfold State.setEvents State.pageMsg
  dsimp only
  split_ifs <;> simp only [State.msix_rd _ _ _ _ _ _ h1, State.rd_wr_ne _ _ _ _ _ _ _ _ h2, State.rd_wr_ne _ _ _ _ _ _ _ _ h3]

/-! ## Time (R302, R304, R308) -/

/-- Passing time changes the tick count, TABLE_TIME with its parts, and the count of free values only. -/
theorem State.elapse_frame (s : State) (n : Nat) :
    s.elapse n = { s with tick := (s.elapse n).tick, time := (s.elapse n).time, timing := (s.elapse n).timing,
                          free := (s.elapse n).free } := by
  unfold State.elapse State.advanceTime
  dsimp only
  split_ifs <;> rfl

/-- Passing `n` ticks raises the tick count by `n`. -/
@[simp] theorem State.elapse_tick (s : State) (n : Nat) : (s.elapse n).tick = s.tick + n := by
  unfold State.elapse State.advanceTime
  dsimp only
  split_ifs <;> rfl

/-- After running up to a tick, the tick count is that tick or what it was, whichever is later. -/
@[simp] theorem State.waitUntil_tick (s : State) (t : Nat) : (s.waitUntil t).tick = max s.tick t := by
  unfold State.waitUntil
  split_ifs
  · simp only [State.elapse_tick]; omega
  · omega

/-- Running up to a tick changes what passing time changes, and nothing else. -/
theorem State.waitUntil_frame (s : State) (t : Nat) :
    s.waitUntil t = { s with tick := (s.waitUntil t).tick, time := (s.waitUntil t).time, timing := (s.waitUntil t).timing,
                             free := (s.waitUntil t).free } := by
  unfold State.waitUntil
  split_ifs
  · exact State.elapse_frame _ _
  · rfl

/-! ## What the port answers (R486, R487) -/

/-- A host write of a register with behaviour of its own is dropped, counted as an access to an asleep die, or acts. -/
theorem State.hostCmd_cases (s : State) (b : Block) (i : Nat) (act : State → State) :
    (s.answers b = false ∧ s.hostCmd b i act = s) ∨
    (s.answers b = true ∧ s.awake (b.die i) = false ∧ s.hostCmd b i act = s.asleepAccess) ∨
    (s.reachable b i ∧ s.hostCmd b i act = act s) := by
  unfold State.hostCmd State.reachable
  cases h : s.answers b <;> cases h' : s.awake (b.die i) <;> simp

/-- A host write acts where its page is answered. -/
theorem State.hostCmd_acts {s : State} {b : Block} {i : Nat} (act : State → State) (h : s.reachable b i) :
    s.hostCmd b i act = act s := by
  simp [State.hostCmd, h.1, h.2]

/-- A host read of a page that is answered answers what `act` answers. -/
theorem State.hostLoad_acts {s : State} {b : Block} {i : Nat} (act : State → Nat × State) (h : s.reachable b i) :
    s.hostLoad b i act = (act s).2.emit (.readData (act s).1) := by
  have hr : s.reached = true := by have := h.1; simp only [State.answers, Bool.and_eq_true] at this; exact this.1
  simp [State.hostLoad, h.1, h.2, hr]

/-- A host read of a page whose die sleeps answers all ones and is counted (R487). -/
theorem State.hostLoad_asleep {s : State} {b : Block} {i : Nat} (act : State → Nat × State) (ha : s.answers b = true)
    (hd : s.awake (b.die i) = false) : s.hostLoad b i act = s.asleepAccess.emit (.readData 0xFFFFFFFF) := by
  have hr : s.reached = true := by simp only [State.answers, Bool.and_eq_true] at ha; exact ha.1
  simp [State.hostLoad, ha, hd, hr]

/-! ## Seals and poison (R69, R181, R204) -/

/-- A seal replaced changes cores and device memories only. -/
theorem State.setSealOf_frame (s : State) (p : Nat) (t : TileAt) (x : Seal) :
    s.setSealOf p t x = { s with cores := (s.setSealOf p t x).cores, hbm := (s.setSealOf p t x).hbm,
                                 ddr := (s.setSealOf p t x).ddr } := by
  unfold State.setSealOf; split <;> rfl

/-- A seal replaced reads back, in every space that holds seals. -/
theorem State.sealOf_setSealOf (s : State) (p : Nat) (t : TileAt) (x : Seal) (h : t.space ≠ .host) :
    (s.setSealOf p t x).sealOf p t = x := by
  unfold State.setSealOf State.sealOf
  cases hs : t.space with
  | spm => simp [Core.sealAt_setSeal]
  | hbm => simp [Tier.sealAt_setSeal]
  | ddr => simp [Tier.sealAt_setSeal]
  | host => exact absurd hs h

/-- Poisoning tiles changes cores and device memories only. -/
theorem State.poisonTiles_frame (ts : List TileAt) : ∀ (s : State) (p : Nat),
    s.poisonTiles p ts = { s with cores := (s.poisonTiles p ts).cores, hbm := (s.poisonTiles p ts).hbm,
                                  ddr := (s.poisonTiles p ts).ddr } := by
  induction ts with
  | nil => intro s p; rfl
  | cons t ts ih =>
    intro s p
    have e : s.poisonTiles p (t :: ts) = (s.poisonTile p t).poisonTiles p ts := rfl
    have h1 := ih (s.poisonTile p t) p
    have h2 := s.setSealOf_frame p t poisonSeal
    rw [e]
    unfold State.poisonTile at *
    generalize s.setSealOf p t poisonSeal = u at h1 h2 ⊢
    generalize u.poisonTiles p ts = v at h1 ⊢
    exact h1.trans (by rw [h2])

/-- Poisoning tiles leaves every byte of the device memories. -/
theorem State.poisonTiles_bytes (ts : List TileAt) : ∀ (s : State) (p : Nat),
    (s.poisonTiles p ts).hbm.bytes = s.hbm.bytes ∧ (s.poisonTiles p ts).ddr.bytes = s.ddr.bytes := by
  induction ts with
  | nil => intro s p; exact ⟨rfl, rfl⟩
  | cons t ts ih =>
    intro s p
    have := ih (s.poisonTile p t) p
    have e : (s.poisonTile p t).hbm.bytes = s.hbm.bytes ∧ (s.poisonTile p t).ddr.bytes = s.ddr.bytes := by
      unfold State.poisonTile State.setSealOf; split <;> exact ⟨rfl, rfl⟩
    exact ⟨this.1.trans e.1, this.2.trans e.2⟩

/-! ## Flags, windows, engines and blocks of a core -/

/-- A signal adds its increment to its flag modulo 65,536 and leaves the other flags (R53). -/
theorem Core.flag_signal (c : Core) (i j n : Nat) :
    (c.signal i n).flag j = if j = i then (c.flag i + n) % 65536 else c.flag j := by
  simp [Core.signal, Core.flag, SMap.get_set]

/-- A window replaced reads back; the others stay. -/
theorem Core.window_setWindow (c : Core) (i j : Nat) (x : Window) :
    (c.setWindow i x).window j = if j = i then x else c.window j := by
  simp [Core.window, Core.setWindow, SMap.get_set]

/-- An engine replaced reads back; the others stay. -/
theorem Core.engine_setEngine (c : Core) (i j : Nat) (x : Engine) :
    (c.setEngine i x).engine j = if j = i then x else c.engine j := by
  simp [Core.engine, Core.setEngine, SMap.get_set]

/-- An accumulator block replaced reads back; the others stay. -/
theorem Core.block_setBlock (c : Core) (i j : Nat) (x : AccBlock) :
    (c.setBlock i x).block j = if j = i then x else c.block j := by
  simp [Core.block, Core.setBlock, SMap.get_set]

/-- Closing a window closes that window and leaves the others (R93). -/
theorem Core.window_wclose (c : Core) (i j : Nat) :
    (c.wclose i).window j = if j = i then { c.window j with isOpen := false } else c.window j := by
  unfold Core.wclose
  dsimp only
  split_ifs with h1 h2 h2
  · rw [Core.window_setWindow, if_pos h2, h2]
  · rw [Core.window_setWindow, if_neg h2]
  · subst h2; rw [Bool.not_eq_true] at h1; rw [← h1]
  · rfl

/-- Closing a window changes the windows only. -/
theorem Core.wclose_frame (c : Core) (i : Nat) : c.wclose i = { c with windows := (c.wclose i).windows } := by
  unfold Core.wclose; dsimp only; split_ifs <;> rfl

/-- Closing the windows of a list closes each of them, leaves the others, and changes nothing else. -/
theorem Core.wclose_all (l : List Nat) : ∀ c : Core,
    (∀ j, (l.foldl Core.wclose c).window j = if j ∈ l then { c.window j with isOpen := false } else c.window j) ∧
    l.foldl Core.wclose c = { c with windows := (l.foldl Core.wclose c).windows } := by
  induction l with
  | nil => intro c; simp
  | cons a l ih =>
    intro c
    obtain ⟨h1, h2⟩ := ih (c.wclose a)
    constructor
    · intro j
      rw [List.foldl_cons, h1, Core.window_wclose]
      clear h1 h2 ih
      by_cases hj : j = a <;> by_cases hl : j ∈ l <;> simp [hj, hl]
    · have h3 := c.wclose_frame a
      rw [List.foldl_cons]
      clear h1 ih
      generalize c.wclose a = u at h2 h3 ⊢
      generalize l.foldl Core.wclose u = v at h2 ⊢
      exact h2.trans (by rw [h3])

/-! ## The sequencer (R53, R54, R69, R103, R106) -/

/-- A signal changes the cores only. -/
theorem State.applySignal_frame (s : State) (p : Nat) (w : Slot) :
    s.applySignal p w = { s with cores := (s.applySignal p w).cores } := by
  unfold State.applySignal
  split
  · rfl
  · split <;> rfl
  · rfl

/-- A core fault changes cores, device memories (their seals) and register fields only. -/
theorem State.coreFault_frame (s : State) (p code e pc info : Nat) (more : List TileAt) :
    s.coreFault p code e pc info more =
      { s with cores := (s.coreFault p code e pc info more).cores, hbm := (s.coreFault p code e pc info more).hbm,
               ddr := (s.coreFault p code e pc info more).ddr, regs := (s.coreFault p code e pc info more).regs } := by
  have put {t : State} {f : Fld} {n i k : Nat} (h : t = { s with regs := t.regs }) :
      t.wr f n i k = { s with regs := (t.wr f n i k).regs } := by
    have e : t.wr f n i k = { t with regs := (t.wr f n i k).regs } := rfl
    generalize t.wr f n i k = u at e ⊢
    exact e.trans (by rw [h])
  have key : ∀ (s1 v : State) (f : Core → Core), s1 = { s with regs := s1.regs } →
      v = { s1 with cores := v.cores, hbm := v.hbm, ddr := v.ddr } →
      v.onCore p f = { s with cores := (v.onCore p f).cores, hbm := (v.onCore p f).hbm, ddr := (v.onCore p f).ddr,
                              regs := (v.onCore p f).regs } := by
    intro s1 v f h1 h2
    have h3 : v.regs = s1.regs := by rw [h2]
    have e : v.onCore p f = { v with cores := (v.onCore p f).cores } := rfl
    rw [State.onCore_hbm, State.onCore_ddr, State.onCore_regs, h3]
    generalize v.onCore p f = w at e ⊢
    rw [e]
    conv_lhs => rw [h2, h1]
  unfold State.coreFault
  dsimp only
  split_ifs
  · exact key s _ _ rfl (State.poisonTiles_frame _ _ _)
  · exact key _ _ _ (put (put (put (put (put (put rfl)))))) (State.poisonTiles_frame _ _ _)

/-- A core fault stops the core, empties its issue queues and leaves the bytes of the device memories. -/
theorem State.coreFault_stops (s : State) (p code e pc info : Nat) (more : List TileAt) :
    ((s.coreFault p code e pc info more).core p).st = .faulted ∧ ((s.coreFault p code e pc info more).core p).eng = [] ∧
    (s.coreFault p code e pc info more).hbm.bytes = s.hbm.bytes ∧ (s.coreFault p code e pc info more).ddr.bytes = s.ddr.bytes := by
  unfold State.coreFault
  dsimp only
  refine ⟨by rw [State.core_onCore_same], by rw [State.core_onCore_same], ?_, ?_⟩
  · rw [State.onCore_hbm, (State.poisonTiles_bytes _ _ _).1]; split_ifs <;> rfl
  · rw [State.onCore_ddr, (State.poisonTiles_bytes _ _ _).2]; split_ifs <;> rfl

/-- Handling the next slot: the fault of its page, the fault that the slot meets, or its effect. -/
theorem State.handle_of {s : State} {p : Nat} {o : Op} {w : Slot} (run : Slot → State) (h : s.meets p o w) :
    s.handle p (some o) run = match s.pageBad p with
      | some b => s.pageFault p (s.core p).pc b
      | none => match s.slotFault p o w with
        | some (c, e) => s.coreFault p c e (s.core p).pc 0 []
        | none => run w := by
  obtain ⟨h1, h2, h3, h4⟩ := h
  unfold State.handle State.slotFault State.pageBad
  obtain ⟨f, hf⟩ := Option.isSome_iff_exists.mp h2
  simp only [h1, hf, h3, h4, Option.bind_some]
  simp only [Bool.not_true, Bool.false_eq_true, ↓reduceIte, ne_eq, not_true_eq_false, Option.some.injEq]
  cases hb : f.bad with
  | some b => simp
  | none => simp only [Option.isSome_none, Bool.false_eq_true, ↓reduceIte]; split_ifs <;> rfl

/-- Everything that handling a slot can do: nothing, the fault of its page, a fault of the core at the slot, or the effect of the
slot. -/
theorem State.handle_cases (s : State) (p : Nat) (o : Option Op) (run : Slot → State) :
    s.handle p o run = s ∨ (∃ b, s.pageBad p = some b ∧ s.handle p o run = s.pageFault p (s.core p).pc b) ∨
    (∃ code e, s.handle p o run = s.coreFault p code e (s.core p).pc 0 []) ∨
    (∃ w, (s.core p).slotAt (s.core p).pc = some w ∧ w.op = o ∧ s.issues p = true ∧ s.handle p o run = run w) := by
  by_cases h : s.issues p = true
  · cases hf : (s.core p).frameAt (s.core p).pc with
    | none => exact .inl (by simp [State.handle, hf])
    | some f =>
      cases hw : (s.core p).slotAt (s.core p).pc with
      | none => exact .inl (by simp [State.handle, hf, hw])
      | some w =>
        simp only [State.handle, h, hf, hw, Bool.not_true, Bool.false_eq_true, if_false]
        cases hb : f.bad with
        | some b =>
          split_ifs with h1
          · exact .inl rfl
          · exact .inr (.inl ⟨b, by simp [State.pageBad, hf, hb], by simp⟩)
          all_goals exact absurd rfl ‹¬(some b).isSome = true›
        | none =>
          split_ifs with h1
          · exact .inl rfl
          · simp_all
          · exact .inr (.inr (.inl ⟨_, _, rfl⟩))
          · exact .inr (.inr (.inl ⟨_, _, rfl⟩))
          · exact .inr (.inr (.inl ⟨_, _, rfl⟩))
          · exact .inr (.inr (.inr ⟨w, rfl, not_not.mp h1, trivial, rfl⟩))
  · exact .inl (by simp [State.handle, h])

/-- A legal slot whose wait holds has its effect. -/
theorem State.handle_runs {s : State} {p : Nat} {o : Op} {w : Slot} (run : Slot → State) (h : s.runs p o w) :
    s.handle p (some o) run = run w := by
  rw [State.handle_of _ h.1, h.2.1, h.2.2.1]

/-- A legal sequencer instruction whose wait holds has its effect, then its signal. -/
theorem State.seqOp_runs {s : State} {p : Nat} {o : Op} {w : Slot} (act : Slot → State → State) (h : s.runs p o w) :
    s.seqOp p o act = (act w s).applySignal p w := by
  unfold State.seqOp; rw [State.handle_runs _ h, if_pos h.2.2.2]

/-- Everything that a sequencer instruction can do: nothing, the fault of its page, a fault of the core at the slot, or its effect with its
signal. -/
theorem State.seqOp_cases (s : State) (p : Nat) (o : Op) (act : Slot → State → State) :
    s.seqOp p o act = s ∨ (∃ b, s.pageBad p = some b ∧ s.seqOp p o act = s.pageFault p (s.core p).pc b) ∨ (∃ code e, s.seqOp p o act = s.coreFault p code e (s.core p).pc 0 []) ∨
    (∃ w, (s.core p).slotAt (s.core p).pc = some w ∧ w.op = some o ∧ s.issues p = true ∧
      s.seqOp p o act = (act w s).applySignal p w) := by
  unfold State.seqOp
  rcases s.handle_cases p (some o) (fun w => if (s.core p).waitHolds w then (act w s).applySignal p w else s) with h | h | h | ⟨w, h1, h2, h3, h⟩
  · exact .inl h
  · exact .inr (.inl h)
  · exact .inr (.inr (.inl h))
  · rw [h]
    by_cases hw : (s.core p).waitHolds w = true
    · simp only [hw, if_true]; exact .inr (.inr (.inr ⟨w, h1, h2, h3, rfl⟩))
    · simp only [hw]; exact .inl rfl

/-- The signal of a slot after a change of its core: what `Signalled` says, with the register fields as they were. -/
theorem State.signalled_of {s s1 : State} {p : Nat} {w : Slot} {c' : Core}
    (h1 : s1 = { s with cores := s1.cores, regs := s1.regs }) (h2 : ∀ q, s1.core q = if q = p then c' else s.core q) :
    Signalled s (s1.applySignal p w) p w c' ∧ (s1.applySignal p w).regs = s1.regs := by
  have hp : ∀ x, s1.partOf x = s.partOf x := by intro x; rw [h1]; rfl
  have key : ∀ r, s.signals p w r → (∀ q, s.signals p w q → q = r) →
      s1.applySignal p w = s1.onCore r (fun c => c.signal w.sflag w.sinc) →
      Signalled s (s1.applySignal p w) p w c' ∧ (s1.applySignal p w).regs = s1.regs := by
    intro r hr hu e
    rw [e]
    refine ⟨⟨?_, ?_, ?_, ?_⟩, rfl⟩
    · generalize hz : s1.onCore r (fun c => c.signal w.sflag w.sinc) = z
      have hz' : z = { s1 with cores := z.cores } := by rw [← hz]; rfl
      rw [hz', h1]
    · intro q; rw [State.core_onCore]; clear h1 e; split_ifs <;> simp_all [Core.signal]
    · intro q i hq hi; have := hu q hq; subst this; subst hi
      rw [State.core_onCore, if_pos rfl, Core.flag_signal, if_pos rfl, h2]
    · intro q i hq
      rw [State.core_onCore]
      clear h1 e
      by_cases hqr : q = r
      · subst hqr; rw [if_pos rfl, Core.flag_signal, if_neg (fun h => hq ⟨hr, h⟩), h2]
      · rw [if_neg hqr, h2]
  have noTarget : (∀ q, ¬ s.signals p w q) → s1.applySignal p w = s1 →
      Signalled s (s1.applySignal p w) p w c' ∧ (s1.applySignal p w).regs = s1.regs := by
    intro hn e; rw [e]
    refine ⟨⟨h1, ?_, ?_, ?_⟩, rfl⟩
    · intro q; rw [h2]
    · intro q i hq; exact absurd hq (hn q)
    · intro q i _; rw [h2]
  by_cases h : w.stgt = 1
  · refine key p (Or.inl ⟨h, rfl⟩) ?_ (by clear h1; simp [State.applySignal, h])
    rintro q (⟨_, rfl⟩ | ⟨h', _⟩)
    · rfl
    · omega
  · by_cases h' : w.stgt = 2
    · cases hx : s.partOf w.starget with
      | none =>
        refine noTarget ?_ (by clear h1; simp [State.applySignal, h', hp, hx])
        rintro q (⟨h'', _⟩ | ⟨_, h''⟩)
        · omega
        · clear h1; simp_all
      | some r =>
        refine key r (Or.inr ⟨h', hx⟩) ?_ (by clear h1; simp [State.applySignal, h', hp, hx])
        rintro q (⟨h'', _⟩ | ⟨_, h''⟩)
        · omega
        · clear h1; simp_all
    · refine noTarget ?_ ?_
      · rintro q (⟨h'', _⟩ | ⟨h'', _⟩) <;> omega
      · clear h1; unfold State.applySignal; split <;> simp_all

/-- A change of one core followed by the signal of its slot. -/
theorem State.onCore_signalled (s : State) (p : Nat) (w : Slot) (f : Core → Core) :
    Signalled s ((s.onCore p f).applySignal p w) p w (f (s.core p)) ∧ ((s.onCore p f).applySignal p w).regs = s.regs :=
  State.signalled_of (s1 := s.onCore p f) rfl (by intro q; rw [State.core_onCore])

/-! ## Issue, start and completion (R75, R76, R78) -/

/-- An engine whose head is absent or may not start does nothing. -/
theorem State.startHead_idle (s : State) (p e : Nat)
    (h : ∀ q rest, ((s.core p).engine e).queue = q :: rest →
      (!s.starts p || !(s.core p).waitHolds q.word || !(s.core p).lseFree q) = true) : s.startHead p e = s := by
  unfold State.startHead
  dsimp only
  split
  · rfl
  · rename_i q rest hq
    rw [if_pos (h q rest hq)]

/-- Completion does nothing for an engine with nothing started, or whose oldest started instruction has not finished. -/
theorem State.complete_idle (s : State) (p e : Nat)
    (h : ∀ x xs, ((s.core p).engine e).exec = x :: xs →
      ((s.pkg != .running && s.pkg != .down) || (s.core p).st == .faulted || !x.finished) = true) : s.complete p e = s := by
  unfold State.complete
  dsimp only
  split
  · rfl
  · rename_i x xs hx
    rw [if_pos (h x xs hx)]

/-- A full issue queue holds its instruction at the sequencer (R75). -/
theorem State.issueOp_full {s : State} {p : Nat} {o : Op} {w : Slot} (h : s.meets p o w) (hb : s.pageBad p = none)
    (hf : s.slotFault p o w = none)
    (hq : 16 ≤ ((s.core p).engine w.engine).queue.length) : s.issueOp p o = s := by
  unfold State.issueOp
  rw [State.handle_of _ h, hb, hf]
  simp [hq]

/-- The check of a queue's head changes nothing, or counts the state fault of an MMUL and faults it where it stands (R173, R199, R200). -/
theorem State.headCheck_cases (s : State) (p e : Nat) :
    s.headCheck p e = s ∨ ∃ q, s.unready p e q ∧ s.headCheck p e = (s.mxuState p).coreFault p 0x0502 e q.pc 0 [] := by
  unfold State.headCheck State.unready
  dsimp only
  split
  · rename_i q rest hq
    split_ifs with h
    · simp only [Bool.and_eq_true, beq_iff_eq, Bool.not_eq_true'] at h
      exact .inr ⟨q, ⟨by rw [hq]; rfl, h.1.1, h.1.2, h.2⟩, rfl⟩
    · exact .inl rfl
  · exact .inl rfl

end Sys2Proof.Machine
end

