-- ==== Sys2Proof/Laws/Access.lean ====
section
/-! SUPPORT. What serving an access can do: how far started instructions have come and whether two accesses meet (R113 to R123, R235) change
counts, records, messages and the free values drawn, and no memory; an access without a rival reads and writes memory as it stands. -/

namespace Sys2Proof.Machine

/-! ## Frames -/

/-- `t` is `s` but for register fields, records, pending messages, the outbox and the count of free values. -/
def State.onlyCounts (s t : State) : Prop :=
  t = { s with regs := t.regs, recs := t.recs, msixPend := t.msixPend, outbox := t.outbox, free := t.free }

theorem State.onlyCounts_refl (s : State) : s.onlyCounts s := rfl

theorem State.onlyCounts_trans {s t u : State} (h : s.onlyCounts t) (k : t.onlyCounts u) : s.onlyCounts u := by
  unfold State.onlyCounts at *
  rw [k, h]

/-- Such a state has the memories, cores and dies of the first. -/
theorem State.onlyCounts_memory {s t : State} (h : s.onlyCounts t) :
    t.cores = s.cores ∧ t.hbm = s.hbm ∧ t.ddr = s.ddr ∧ t.recent = s.recent := by
  unfold State.onlyCounts at h
  rw [h]
  exact ⟨rfl, rfl, rfl, rfl⟩

/-- A field written after other such changes. -/
theorem State.onlyCounts_wr {s t : State} (h : s.onlyCounts t) (f : Fld) (v i k : Nat) : s.onlyCounts (t.wr f v i k) :=
  State.onlyCounts_trans h rfl

/-- A record changes what its `put` changes, and marks that it is held. -/
theorem State.record1_counts (s : State) (f : Fld) (i : Nat) (put : State → State) (h : ∀ x : State, x.onlyCounts (put x)) :
    s.onlyCounts (s.record1 f i put) := by
  unfold State.record1
  dsimp only
  split_ifs
  · exact rfl
  · exact State.onlyCounts_trans (by rfl) (h _)

/-- A collision is counted, recorded and announced. -/
theorem State.collide_counts (s : State) (p row reader writer : Nat) (ww : Bool) (pc : Nat) :
    s.onlyCounts (s.collide p row reader writer ww pc) := by
  unfold State.collide
  have h := State.record1_counts (s.bump R.SPM_CNT_COLLIDE p) R.SPM_COLLIDE_INFO_VALID p (fun s =>
    (((((s.wr R.SPM_COLLIDE_INFO_TILE (row / 8) p).wr R.SPM_COLLIDE_INFO_ROW (row % 8) p).wr
      R.SPM_COLLIDE_INFO_READER reader p).wr R.SPM_COLLIDE_INFO_WRITER writer p).wr
      R.SPM_COLLIDE_INFO_WW (ofBool ww) p).wr R.SPM_COLLIDE_PC (if reader ≥ 14 then 0xFFFFFFFF else pc) p)
    (fun x => by iterate 6 refine State.onlyCounts_wr ?_ _ _ _ _
                 exact x.onlyCounts_refl)
  refine State.onlyCounts_trans (State.onlyCounts_trans (by rfl) h) ?_
  unfold State.onlyCounts
  rw [State.raiseEvt_frame]

/-- Serving an access against one rival leaves every memory. -/
theorem State.meetOne_counts (s : State) (p code pc : Nat) (write : Bool) (sp : Space) (a n : Nat) (o : Order) (x : Rival) :
    s.onlyCounts (s.meetOne p code pc write sp a n o x).2 := by
  have met (t : State) (h : s.onlyCounts t) (m : Meet) : s.onlyCounts (t.met p code pc write a n m).1 :=
    State.onlyCounts_trans h (State.collide_counts _ _ _ _ _ _ _)
  unfold State.meetOne
  dsimp only
  split <;> split_ifs <;> first | exact rfl | exact met _ (by rfl) _

/-- Serving an access leaves every memory: who met it shows in counts, records, messages and free values only. -/
theorem State.serve_counts (l : List Rival) : ∀ (s : State) (p code pc : Nat) (write : Bool) (sp : Space) (a n : Nat) (o : Order),
    s.onlyCounts (s.serve p code pc write sp a n o l).2 := by
  induction l with
  | nil => intros; exact rfl
  | cons x xs ih =>
    intro s p code pc write sp a n o
    unfold State.serve
    split
    · exact State.onlyCounts_trans (s.meetOne_counts p code pc write sp a n o x) (ih _ _ _ _ _ _ _ _ _)
    · exact ih _ _ _ _ _ _ _ _ _

/-! ## Accesses without a rival -/

/-- Without rivals nothing is met and no fault comes. -/
@[simp] theorem State.serve_nil (s : State) (p code pc : Nat) (write : Bool) (sp : Space) (a n : Nat) (o : Order) :
    s.serve p code pc write sp a n o [] = (([], o, none), s) := rfl

/-- Rivals that an access does not concern are not met. -/
theorem State.serve_unconcerned (s : State) (p code pc : Nat) (write : Bool) (sp : Space) (a n : Nat) (o : Order) :
    ∀ l : List Rival, (∀ x ∈ l, x.concerns write sp a n = false) → s.serve p code pc write sp a n o l = (([], o, none), s)
  | [], _ => rfl
  | x :: xs, h => by
    rw [State.serve, if_neg (by simp [h x (List.mem_cons_self ..)])]
    exact State.serve_unconcerned s p code pc write sp a n o xs (fun y hy => h y (List.mem_cons_of_mem _ hy))

@[simp] theorem unserved_nil (sp : Space) (a : Nat) (bs : List Byte) : unserved [] sp a bs = bs := rfl

@[simp] theorem unservedSeal_nil (t : TileAt) (x : Seal) : unservedSeal [] t x = x := rfl

@[simp] theorem lineLost_nil (sp : Space) (a : Nat) : lineLost [] sp a = false := rfl

@[simp] theorem sealLost_nil (t : TileAt) : sealLost [] t = false := rfl

@[simp] theorem writtenPieces_nil (sp : Space) (a : Nat) (bs : List Byte) : writtenPieces [] sp a bs = [(a, bs)] := rfl

@[simp] theorem unservedErrs_nil (sp : Space) (es : SMap MemErr) : unservedErrs [] sp es = es := by simp [unservedErrs]

/-- A read that meets nothing returns the bytes, the seal and the stored errors as they stand. -/
theorem State.portRead_alone (s : State) (p code pc a n : Nat) (h : s.rivals p code .spm = []) :
    (s.portRead p code pc a n).1 = ((s.core p).spmRead a n, (s.core p).sealAt a, none, (s.core p).spmErr) := by
  simp only [State.portRead, h, State.serve_nil, unserved_nil, unservedSeal_nil, unservedErrs_nil, Core.sealAt]

/-- A write that meets nothing loses nothing and raises no fault. -/
theorem State.portWrite_alone (s : State) (p code skip a : Nat) (bs : List Byte) (h : s.rivals p code .spm = []) :
    (s.portWrite p code skip a bs).1 = (false, none) := by
  simp only [State.portWrite, h, List.filter_nil, State.serve_nil, sealLost_nil]

/-- A read leaves every memory. -/
theorem State.portRead_memory (s : State) (p code pc a n : Nat) :
    (s.portRead p code pc a n).2.cores = s.cores ∧ (s.portRead p code pc a n).2.hbm = s.hbm ∧ (s.portRead p code pc a n).2.ddr = s.ddr := by
  have h := State.onlyCounts_memory (State.serve_counts (s.rivals p code .spm) s p code pc false .spm a n ⟨[], [], false⟩)
  exact ⟨h.1, h.2.1, h.2.2.1⟩

/-- Serving the parts of a unit leaves every memory. -/
theorem State.serveParts_counts (l : List (Nat × Nat)) : ∀ (s : State) (p code pc : Nat) (write : Bool) (sp : Space) (rs : List Rival) (o : Order),
    s.onlyCounts (s.serveParts p code pc write sp rs o l).2 := by
  induction l with
  | nil => intros; exact rfl
  | cons x xs ih =>
    intro s p code pc write sp rs o
    exact State.onlyCounts_trans (State.serve_counts rs s p code pc write sp x.1 x.2 o) (ih _ _ _ _ _ _ _ _)

/-- Serving a unit leaves every memory. -/
theorem State.serveUnit_counts (s : State) (p code pc : Nat) (write : Bool) (sp : Space) (a n : Nat) (o : Order) (rs : List Rival) :
    s.onlyCounts (s.serveUnit p code pc write sp a n o rs).2 := by
  unfold State.serveUnit
  split_ifs <;> exact State.serveParts_counts _ _ _ _ _ _ _ _ _

/-- A unit whose rivals it does not concern is served as it stands. -/
theorem State.serveUnit_unconcerned (s : State) (p code pc : Nat) (write : Bool) (sp : Space) (a n : Nat) (o : Order) (rs : List Rival)
    (h : ∀ x ∈ rs, x.concerns write sp a n = false) :
    s.serveUnit p code pc write sp a n o rs = (([⟨a, n, []⟩], o, none), s) := by
  rw [State.serveUnit, if_pos (.inr (List.all_eq_true.mpr (fun x hx => by simp [h x hx])))]
  simp [State.serveParts, State.serve_unconcerned _ _ _ _ _ _ _ _ _ rs h]

/-- A BAR2 access changes no memory by being served, and is served as it stands where no instruction in progress concerns it (R493). -/
theorem State.bar2Serve_counts (s : State) (write : Bool) (a n : Nat) : s.onlyCounts (s.bar2Serve write a n).2 :=
  State.serveUnit_counts s 176 14 0xFFFFFFFF write .hbm a n ⟨[], [], false⟩ _

theorem State.bar2Serve_alone (s : State) (write : Bool) (a n : Nat)
    (h : ∀ x ∈ s.rivals 176 16 .hbm, x.concerns write .hbm a n = false) : s.bar2Serve write a n = ([⟨a, n, []⟩], s) := by
  rw [State.bar2Serve, State.serveUnit_unconcerned _ _ _ _ _ _ _ _ _ _ h]

end Sys2Proof.Machine
end

