-- ==== Sys2Proof/Tests/Slice0.lean ====
section
/-! SUPPORT. Tests: small facts whose expected results come from the spec, an ill-formed command for each check of WellFormed, and, for
every statement with hypotheses, concrete states and operands that meet them. -/

namespace Sys2Proof.Tests

open Sys2Proof.Machine

set_option Elab.async false

/-! ## Small states -/

/-- The state that a command leaves. -/
def after (c : Instr) (s : State) : State :=
  match exec c s with
  | .next t => t
  | _ => s

/-- The package with its link up and its firmware running. -/
def ready : State :=
  ((({ State.reset with pkg := .running, osc := false }).wr R.HUB_FW_STATUS_STATE 3).wr R.HUB_BRINGUP_STATUS_AON_PCIE 1).wr R.HIF_LINK_SPEED 1

/-- A stream slot by its fields: least bit and value (R80). -/
def word (l : List (Nat × Nat)) : Slot := Slot.ofNat (l.map (fun x => x.2 * 2 ^ x.1)).sum

/-- A slot of engine 0 with an opcode and further fields. -/
def sq (opcode : Nat) (l : List (Nat × Nat)) : Slot := word ((8, opcode) :: l)

/-- A hand of one stream on logical core 0, of two tricks, with every feature allowed. -/
def hand0 : Hand where
  hdr := { HandHdr.zero with handId := 7, cls := 2, group := 3, coreSet := 1, trickCount := 2, anchored := true, ddr5 := true, remote := true, digest := true,
                             waitLimit := 1000, engines := 0x1FF }
  streams := [⟨0, 0x4000, 0x8000, ⟨[⟨0, 2048, .spm, true, true⟩], []⟩⟩]
  edges := []

/-- A plan image that holds it. -/
def image0 : Image := ⟨0x100000, 0, 1, 0, 0x10000, [hand0]⟩

/-- A core that runs that stream over the slots of its first page. -/
def core0 (ws : List Slot) : Core :=
  { Core.reset with
    st := .running, frames := [⟨0, ws, none⟩], member := some ⟨3, 5, 0, 9, 0, 0, true, []⟩, tag := 5, bounds := [⟨0, 2048, .spm, true, true⟩] }

/-- The package with part 0 at those slots. -/
def seq0 (ws : List Slot) : State :=
  ({ ready with image := some image0 }).setCore 0 (core0 ws)

/-! ## The sequencer -/

theorem test_witness_PlainSequencerSlots :
    (seq0 [sq 0 []]).runs 0 .nop (sq 0 []) ∧
    (seq0 [sq 1 [(41, 2)]]).runs 0 .wait (sq 1 [(41, 2)]) ∧
    (seq0 [sq 2 [(64, 511), (73, 1), (75, 15)]]).runs 0 .signal (sq 2 [(64, 511), (73, 1), (75, 15)]) := by
  unfold State.runs State.meets; decide +kernel

theorem test_signal_adds :
    ((after (.signal 0) (seq0 [sq 2 [(64, 511), (73, 1), (75, 15)]])).core 0).flag 511 = 15 ∧
    ((after (.signal 0) (seq0 [sq 2 [(64, 511), (73, 1), (75, 15)]])).core 0).pc = 32 := by decide +kernel

theorem test_witness_LoopsAndBranchesRun :
    (seq0 [sq 3 [(128, 2), (160, 1)]]).runs 0 .loop (sq 3 [(128, 2), (160, 1)]) ∧
    (seq0 [sq 3 [(160, 1)]]).runs 0 .loop (sq 3 [(160, 1)]) ∧
    (({ ready with image := some image0 }).setCore 0 { core0 [sq 4 []] with loops := [⟨0, 0, 2, 1⟩] }).runs 0 .endl (sq 4 []) ∧
    ((seq0 [sq 4 []]).runs 0 .endl (sq 4 []) ∧ ((seq0 [sq 4 []]).core 0).loops = []) ∧
    (seq0 [sq 6 [(128, 7), (135, 1), (160, 3)]]).runs 0 .brp (sq 6 [(128, 7), (135, 1), (160, 3)]) := by
  unfold State.runs State.meets; decide +kernel

theorem test_loop_count_0_skips : ((after (.loop 0) (seq0 [sq 3 [(160, 4)]])).core 0).pc = 160 := by decide +kernel

theorem test_brp_neg_branches : ((after (.brp 0) (seq0 [sq 6 [(128, 7), (135, 1), (160, 3)]])).core 0).pc = 96 := by decide +kernel

theorem test_witness_SetpWritesPredicate :
    (seq0 [sq 5 [(128, 7), (160, 1)]]).runs 0 .setp (sq 5 [(128, 7), (160, 1)]) ∧
    (({ ready with image := some image0 }).setCore 0 { core0 [sq 5 [(136, 1), (144, 3)]] with loops := [⟨0, 0, 2, 1⟩, ⟨0, 0, 2, 1⟩, ⟨0, 0, 2, 1⟩, ⟨0, 0, 2, 1⟩] }).runs 0 .setp
      (sq 5 [(136, 1), (144, 3)]) ∧
    (seq0 [sq 5 [(136, 2), (144, 12)]]).runs 0 .setp (sq 5 [(136, 2), (144, 12)]) ∧
    (seq0 [sq 5 [(136, 3), (192, 0x7FFFFC)]]).runs 0 .setp (sq 5 [(136, 3), (192, 0x7FFFFC)]) ∧
    accessOk (seq0 []) ((seq0 []).core 0) .spm false 0x7FFFFC 4 = true ∧
    ((seq0 [sq 5 [(136, 1), (144, 3)]]).runs 0 .setp (sq 5 [(136, 1), (144, 3)]) ∧ ((seq0 []).core 0).loops[3]? = none) ∧
    (seq0 [sq 5 [(136, 4), (144, 0xFF)]]).runs 0 .setp (sq 5 [(136, 4), (144, 0xFF)]) := by
  unfold State.runs State.meets; decide +kernel

theorem test_witness_SetpWritesPredicate_read :
    ((seq0 []).portRead 0 0 0 0x7FFFFC 4).2.spmErrors 0 0x7FFFFC 4 ((seq0 []).core 0).spmErr = (((seq0 []).portRead 0 0 0 0x7FFFFC 4).2, []) := by rfl

theorem test_witness_SetpWritesPredicate_free : (seq0 [sq 5 [(136, 3), (192, 0x7FFFFC)]]).rowsFree 0 0 false 0x7FFFFC 4 := by
  unfold State.rowsFree; decide +kernel

theorem test_setp_dealing_number :
    ((after (.setp 0) (seq0 [sq 5 [(128, 2), (136, 2), (160, 9)]])).core 0).preds = 4 := by decide +kernel

theorem test_witness_AdgAndWindowsAreSet :
    (seq0 [sq 8 [(96, 63), (128, 0x40), (106, 1), (224, 2)], word [(64, 0x40)]]).runs 0 .adg
      (sq 8 [(96, 63), (128, 0x40), (106, 1), (224, 2)]) ∧
    (seq0 [sq 8 [(96, 63), (102, 1), (128, 0x40)], word []]).runs 0 .adg (sq 8 [(96, 63), (102, 1), (128, 0x40)]) ∧
    (seq0 [sq 9 [(128, 63), (136, 3), (192, 2048)]]).runs 0 .wopen (sq 9 [(128, 63), (136, 3), (192, 2048)]) ∧
    (seq0 [sq 10 [(136, 1)]]).runs 0 .wclose (sq 10 [(136, 1)]) ∧
    (seq0 [sq 10 [(128, 63)]]).runs 0 .wclose (sq 10 [(128, 63)]) := by
  unfold State.runs State.meets; decide +kernel

theorem test_adg_loads :
    ((after (.adg 0) (seq0 [sq 8 [(96, 63), (128, 0x40), (106, 1), (224, 2)], word [(64, 0x40)]])).core 0).slot 63 =
      ⟨.spm, false, 0, 0x40, 0, 0, 0, 0, [(2, 64)]⟩ := by decide +kernel

theorem test_witness_MarkAndHalt :
    ((seq0 [sq 11 [(128, 0xFFFFFFFF)]]).wr R.SEQ_CTRL_MARK_EN 1).runs 0 .mark (sq 11 [(128, 0xFFFFFFFF)]) ∧
    ((seq0 [sq 11 [(128, 0xFFFFFFFF)]]).wr R.SEQ_CTRL_MARK_EN 1).on R.SEQ_CTRL_MARK_EN 0 = true ∧
    (seq0 [sq 11 []]).runs 0 .mark (sq 11 []) ∧ (seq0 [sq 12 []]).runs 0 .halt (sq 12 []) ∧
    ((after (.halt 0) (seq0 [sq 12 []])).core 0).halted = true ∧
    (ready.onDie 0 (fun d => { d with power := .awake })).reachable .seq 0 ∧ ready.debugOpen = false ∧
    ({ ready with life := { ready.life with lcs := .fieldDebug } }).debugOpen = true := by
  unfold State.runs State.meets State.reachable; decide +kernel

theorem test_witness_TrickStopsMember :
    (seq0 [sq 7 []]).runs 0 .trick (sq 7 []) ∧ ((seq0 [sq 7 []]).streamOf ((seq0 [sq 7 []]).core 0)).isSome = true := by
  unfold State.runs State.meets; decide +kernel

theorem test_witness_SequencerStalls :
    (seq0 [sq 1 [(41, 1), (48, 1)]]).meets 0 .wait (sq 1 [(41, 1), (48, 1)]) ∧
    (seq0 [sq 1 [(41, 1), (48, 1)]]).slotFault 0 .wait (sq 1 [(41, 1), (48, 1)]) = none ∧
    ((seq0 [sq 1 [(41, 1), (48, 1)]]).core 0).waitHolds (sq 1 [(41, 1), (48, 1)]) = false ∧ ready.issues 0 = false := by
  unfold State.meets; decide +kernel

/-! ## Engines -/

/-- An engine instruction by engine, opcode and further fields; A1, A2 and A3 named where asked. -/
def en (engine opcode : Nat) (slots : List Nat) (l : List (Nat × Nat)) : Slot :=
  word ((0, engine) :: (8, opcode) :: (slots.map (fun k => (96 + 6 * k, k)) ++ l))

/-- The package with part 0 at an engine instruction: operand k at tile k, a full stationary buffer of one element, an anchored block that
holds a sum, and a route that forwards. -/
def eng0 (w : Slot) : State :=
  ({ ready with image := some image0, routes := [(0, 1)] }).setCore 0 { core0 [w] with
    adg := [(1, { AdgSlot.zero with base := 0x1000 }), (2, { AdgSlot.zero with base := 0x2000 }), (3, { AdgSlot.zero with base := 0x3000 })],
    bufs := [(0, ⟨true, 0, 0, 1, 1, [0], []⟩)], blocks := [(0, { AccBlock.empty with held := true, anchored := true, width := 8 })] }

/-- Whether the body of `w` ends without a fault after it has been queued. -/
def bodyEnds (s : State) (o : Op) (w : Slot) : Bool :=
  match bodyOf w ((s.queued 0 o w).startCtx 0 w.engine (s.entryFor 0 o w) []) with
  | .ok _ _ => true
  | .error _ _ => false

/-- The hypotheses under which an engine instruction runs at once. -/
def runsAtOnce (o : Op) (w : Slot) : Prop :=
  let s := eng0 w
  o.ofSequencer = false ∧
  (s.issues 0 = true ∧ ((s.core 0).frameAt (s.core 0).pc).isSome = true ∧ (s.core 0).slotAt (s.core 0).pc = some w ∧ w.op = some o) ∧
  s.pageBad 0 = none ∧ s.slotFault 0 o w = none ∧ ((s.core 0).engine w.engine).queue = [] ∧
  (s.starts 0 = true ∧ (s.core 0).waitHolds (s.entryFor 0 o w).word = true ∧ (s.core 0).lseFree (s.entryFor 0 o w) = true) ∧
  bodyEnds s o w = true

theorem test_witness_EngineInstructionsRun_matrix :
    runsAtOnce .mload (en 1 1 [] [(144, 1), (160, 1)]) ∧ runsAtOnce .mmul (en 1 2 [] [(128, 1), (144, 1)]) ∧
    runsAtOnce .mdrain (en 1 3 [] [(144, 1)]) ∧ runsAtOnce .mburn (en 1 4 [] [(128, 1)]) := by
  unfold runsAtOnce; decide +kernel

theorem test_witness_EngineInstructionsRun_vector :
    runsAtOnce .vop (en 2 1 [1, 2] []) ∧ runsAtOnce .vred (en 2 2 [2] [(128, 128)]) ∧ runsAtOnce .vcvt (en 2 3 [2] []) := by
  unfold runsAtOnce; decide +kernel

theorem test_witness_EngineInstructionsRun_function :
    runsAtOnce .fexp (en 3 1 [2] []) ∧ runsAtOnce .flog (en 3 2 [2] []) ∧ runsAtOnce .frsq (en 3 3 [2] []) ∧
    runsAtOnce .fact (en 3 4 [2] [(120, 2)]) := by
  unfold runsAtOnce; decide +kernel

theorem test_witness_EngineInstructionsRun_dma :
    runsAtOnce .dcopy (en 4 1 [1] [(128, 2)]) ∧ runsAtOnce .dfill (en 4 2 [1] [(128, 2), (160, 0xFFFFFFFF)]) ∧
    runsAtOnce .dgather (en 4 3 [1, 2] [(128, 2), (160, 64), (192, 1)]) := by
  unfold runsAtOnce; decide +kernel

theorem test_witness_EngineInstructionsRun_link :
    runsAtOnce .lput (en 5 1 [] []) ∧ runsAtOnce .lfetch (en 5 2 [1] []) ∧ runsAtOnce .lsig (en 5 3 [] [(73, 3), (75, 1)]) := by
  unfold runsAtOnce; decide +kernel

theorem test_witness_EngineInstructionsRun_reduction :
    runsAtOnce .radd (en 6 1 [1, 2] []) ∧ runsAtOnce .ranchor (en 6 2 [1, 2] []) ∧
    runsAtOnce .rcvt (en 6 3 [1, 2] [(128, 2)]) := by
  unfold runsAtOnce; decide +kernel

theorem test_witness_EngineInstructionsRun_rest :
    runsAtOnce .spmm (en 7 1 [1, 2] [(26, 1), (16, 1), (144, 1)]) ∧ runsAtOnce .sample (en 8 1 [1, 2] [(128, 1), (160, 1)]) ∧
    runsAtOnce .slogp (en 8 2 [1, 2] [(128, 1), (160, 1)]) := by
  unfold runsAtOnce; decide +kernel

/-- A queue entry of an engine instruction without copies. -/
def entry (w : Slot) : QEntry := ⟨w, 0, [AdgSlot.zero, AdgSlot.zero, AdgSlot.zero, AdgSlot.zero], none, 0⟩

/-- A started instruction. -/
def started (w : Slot) (remote : Nat) : ExecEntry := ⟨w, 0, [], [], [], [], remote, false, [], 0, false, 0, 0, 0, 0, []⟩

/-- The package with part 0 at an engine instruction and with a given engine 1. -/
def engWith (w : Slot) (x : Engine) : State := (eng0 w).onCore 0 (fun c => c.setEngine 1 x)

theorem test_witness_EngineInstructionsQueue :
    (engWith (en 1 4 [] [(128, 1)]) ⟨List.replicate 16 (entry (en 1 4 [] [(128, 1)])), 0, []⟩).meets 0 .mburn (en 1 4 [] [(128, 1)]) ∧
    (engWith (en 1 4 [] [(128, 1)]) ⟨List.replicate 15 (entry (en 1 4 [] [(128, 1)])), 0, []⟩).meets 0 .mburn (en 1 4 [] [(128, 1)]) ∧
    (engWith (en 1 4 [] [(128, 1)]) ⟨List.replicate 15 (entry (en 1 4 [] [(128, 1)])), 0, []⟩).slotFault 0 .mburn (en 1 4 [] [(128, 1)]) = none ∧
    (engWith (en 1 4 [] [(128, 1)]) ⟨List.replicate 16 (entry (en 1 4 [] [(128, 1)])), 0, []⟩).slotFault 0 .mburn (en 1 4 [] [(128, 1)]) = none ∧
    (eng0 (en 1 4 [] [(41, 1), (48, 1), (128, 1)])).slotFault 0 .mburn (en 1 4 [] [(41, 1), (48, 1), (128, 1)]) = none ∧
    ¬ (eng0 (en 1 4 [] [(41, 1), (48, 1), (128, 1)])).mayStart 0
      ((eng0 (en 1 4 [] [(41, 1), (48, 1), (128, 1)])).entryFor 0 .mburn (en 1 4 [] [(41, 1), (48, 1), (128, 1)])) := by
  unfold State.meets State.mayStart; decide +kernel

theorem test_witness_EngineInstructionsRun_head :
    (engWith (sq 0 []) ⟨[entry (en 1 4 [] [(128, 1)])], 0, []⟩).mayStart 0 (entry (en 1 4 [] [(128, 1)])) ∧
    ¬ (engWith (sq 0 []) ⟨[entry (en 1 4 [] [(41, 1), (48, 1), (128, 1)])], 0, []⟩).mayStart 0 (entry (en 1 4 [] [(41, 1), (48, 1), (128, 1)])) := by
  unfold State.mayStart; decide +kernel

theorem test_mburn_counts :
    (after (.engineStart 0 1) (engWith (sq 0 []) ⟨[entry (en 1 4 [] [(128, 3)])], 0, []⟩)).rd R.MXU_BURN_LO 0 = 768 := by decide +kernel

/-- Whether a body ends in a fault, with its code. -/
def bodyFault (s : State) (q : QEntry) : Option Nat :=
  match bodyOf q.word (s.startCtx 0 q.word.engine q []) with
  | .ok _ _ => none
  | .error f _ => some f.code

/-- A page whose tile at 0x104000 carries a poisoned seal. -/
def bad0 : Option PageFault := some ⟨0x0105, 0x104000, poisonSeal⟩

/-- The seal fault of a page, an absent engine, and an illegal field. -/
def badSeq (bad : Option PageFault) (w : Slot) : State := (seq0 [w]).onCore 0 (fun c => { c with frames := [⟨0, [w], bad⟩] })

theorem test_witness_FaultsStopCores :
    (badSeq bad0 (sq 0 [])).meets 0 .nop (sq 0 []) ∧ (badSeq bad0 (sq 0 [])).pageBad 0 = bad0 ∧
    (badSeq none (sq 6 [])).meets 0 .brp (sq 6 []) ∧ (badSeq none (sq 6 [])).pageBad 0 = none ∧ (badSeq none (sq 6 [])).slotFault 0 .brp (sq 6 []) = some (0x0502, 0) ∧
    ({ badSeq none (en 1 4 [] [(128, 1)]) with fuses := { Fuses.reset with engines := 2 } }).slotFault 0 .mburn (en 1 4 [] [(128, 1)]) =
      some (0x0501, 1) ∧
    (engWith (sq 0 []) ⟨[entry (en 1 2 [] [(144, 1), (130, 1)])], 0, []⟩).mayStart 0 (entry (en 1 2 [] [(144, 1), (130, 1)])) ∧
    bodyFault (engWith (sq 0 []) ⟨[entry (en 1 2 [] [(144, 1), (130, 1)])], 0, []⟩) (entry (en 1 2 [] [(144, 1), (130, 1)])) = some 0x0502 := by
  unfold State.meets State.mayStart; decide +kernel

theorem test_witness_InstructionsEnd :
    ((engWith (sq 0 []) ⟨[], 0, [started (en 1 4 [] [(128, 1)]) 0]⟩).core 0).engine 1 = ⟨[], 0, [started (en 1 4 [] [(128, 1)]) 0]⟩ ∧
    (started (en 1 4 [] [(128, 1)]) 0).finished = true ∧ (started (en 5 1 [] []) 16).finished = false ∧
    (seq0 [sq 1 [(41, 1), (48, 1)]]).up = true ∧ ((seq0 [sq 1 [(41, 1), (48, 1)]]).core 0).member.isSome = true ∧
    ((seq0 [sq 1 [(41, 1), (48, 1)]]).core 0).waitHolds (sq 1 [(41, 1), (48, 1)]) = false ∧
    (after (.trick 0) (seq0 [sq 7 []])).core 0 = { core0 [sq 7 []] with pc := 32, tricks := 1, st := .atTrick, trick := .draining, handled := 1, signalDue := some (sq 7 []) } := by
  decide +kernel

theorem test_flag_timeout :
    ((after (.flagTimeout 0 0) (seq0 [sq 1 [(41, 1), (48, 1)]])).core 0).report.map (·.code) = some 0x0301 := by decide +kernel

theorem test_witness_PagesAndRequestsArrive :
    (seq0 []).up = true ∧ (seq0 []).image = some image0 ∧ ((seq0 []).streamOf ((seq0 []).core 0)).map (·.length) = some 0x8000 ∧
    ((seq0 []).core 0).st ≠ .faulted ∧ (∀ f ∈ ((seq0 []).core 0).frames, f.page ≠ 1) ∧ 16384 * 1 < 0x8000 ∧
    (if (seq0 []).rd R.SPM_CTRL_AGE_LIMIT 0 < 8 then 32 else (seq0 []).rd R.SPM_CTRL_AGE_LIMIT 0) ≤ 32 := by decide +kernel

theorem test_stream_page_arrives :
    ((after (.streamPageFetch 0 1) (seq0 [])).core 0).frames.map (fun f => (f.page, f.slots.length)) = [(0, 0), (1, 512)] := by
  decide +kernel

theorem test_witness_TilesAreMoved :
    bodyEnds (eng0 (en 4 2 [1] [(128, 2)])) .dfill (en 4 2 [1] [(128, 2)]) = true ∧
    bodyEnds (eng0 (en 4 1 [1] [(128, 2)])) .dcopy (en 4 1 [1] [(128, 2)]) = true ∧
    (∀ sp ∈ [Space.spm, .hbm, .ddr, .host], (eng0 (en 4 1 [1] [(128, 2)])).rivals 0 4 sp = []) ∧ ((eng0 (en 4 1 [1] [(128, 2)])).core 0).spmErr = [] ∧
    (eng0 (en 4 1 [1] [(128, 2)])).hbm.err = [] := by decide +kernel

theorem test_dfill_fills :
    SMap.get 0#8 ((after (.dfill 0) (eng0 (en 4 2 [1] [(128, 2), (160, 0x04030201)]))).core 0).spm 0x103F = 4#8 := by decide +kernel

theorem test_witness_LinkEngineSends :
    bodyEnds (eng0 (en 5 1 [] [])) .lput (en 5 1 [] []) = true ∧ (∀ sp ∈ [Space.spm, .hbm, .ddr, .host], (eng0 (en 5 1 [] [])).rivals 0 5 sp = []) ∧
    ((eng0 (en 5 2 [1] [])).core 0).slot 1 = { AdgSlot.zero with base := 0x1000 } ∧ ({ AdgSlot.zero with base := 0x1000 } : AdgSlot).period ≤ 2048 := by
  decide +kernel

theorem test_lput_flits : (((after (.lput 0) (eng0 (en 5 1 [] []))).port 0).flow 0).length = 16 := by decide +kernel

/-- What the body of an engine instruction starts from on that package. -/
def ctx0 (o : Op) (w : Slot) : ECtx := ((eng0 w).queued 0 o w).startCtx 0 w.engine ((eng0 w).entryFor 0 o w) []

/-- An engine instruction of each engine with its operands at tiles of the scratchpad. -/
def bodies0 : List (Op × Slot) :=
  [(.mload, en 1 1 [] [(144, 1), (160, 1)]), (.mmul, en 1 2 [] [(128, 1), (144, 1)]), (.mdrain, en 1 3 [] [(144, 1)]), (.vop, en 2 1 [1, 2] []),
   (.fexp, en 3 1 [2] []), (.dgather, en 4 3 [1, 2] [(128, 2), (160, 64), (192, 1)]), (.radd, en 6 1 [1, 2] []),
   (.spmm, en 7 1 [1, 2] [(26, 1), (16, 1), (144, 1)]), (.sample, en 8 1 [1, 2] [(128, 1), (160, 1)])]

theorem test_witness_EnginesCompute :
    (∀ x ∈ bodies0, (∀ sp ∈ [Space.spm, .hbm, .ddr, .host], (ctx0 x.1 x.2).s.rivals 0 (ctx0 x.1 x.2).word.engine sp = []) ∧
      ((ctx0 x.1 x.2).s.core 0).spmErr = [] ∧ (ctx0 x.1 x.2).s.hbm.err = [] ∧ (ctx0 x.1 x.2).s.ddr.err = [] ∧ (ctx0 x.1 x.2).direct 0) := by
  unfold ECtx.direct; decide +kernel

theorem test_witness_EnginesCompute_operands :
    (∀ x ∈ bodies0.drop 3, (ctx0 x.1 x.2).direct 1) ∧ (∀ x ∈ bodies0.drop 5, (ctx0 x.1 x.2).direct 2) ∧
    (((ctx0 .mmul (en 1 2 [] [(128, 1), (144, 1)])).s.core 0).buf 0).ncols ≤ 256 ∧
    (ctx0 .sample (en 8 1 [1, 2] [(128, 1), (160, 1)])).word.srows = 1 ∧ (ctx0 .vop (en 2 1 [1, 2] [])).word.imm8 ∉ [6, 7, 0x0E] := by
  unfold ECtx.direct; decide +kernel

theorem test_witness_EnginesCompute_ends :
    bodyEnds (eng0 (en 1 1 [] [(144, 1), (160, 1)])) .mload (en 1 1 [] [(144, 1), (160, 1)]) = true ∧
    bodyEnds (eng0 (en 1 2 [] [(128, 1), (144, 1)])) .mmul (en 1 2 [] [(128, 1), (144, 1)]) = true ∧
    bodyEnds (eng0 (en 1 3 [] [(144, 1)])) .mdrain (en 1 3 [] [(144, 1)]) = true ∧
    bodyEnds (eng0 (en 2 1 [1, 2] [])) .vop (en 2 1 [1, 2] []) = true ∧ bodyEnds (eng0 (en 2 2 [2] [(128, 128)])) .vred (en 2 2 [2] [(128, 128)]) = true ∧
    bodyEnds (eng0 (en 2 3 [2] [])) .vcvt (en 2 3 [2] []) = true ∧ bodyEnds (eng0 (en 3 1 [2] [])) .fexp (en 3 1 [2] []) = true ∧
    bodyEnds (eng0 (en 6 1 [1, 2] [])) .radd (en 6 1 [1, 2] []) = true ∧ bodyEnds (eng0 (en 6 2 [1, 2] [])) .ranchor (en 6 2 [1, 2] []) = true ∧
    bodyEnds (eng0 (en 6 3 [1, 2] [(128, 2)])) .rcvt (en 6 3 [1, 2] [(128, 2)]) = true ∧
    bodyEnds (eng0 (en 7 1 [1, 2] [(26, 1), (16, 1), (144, 1)])) .spmm (en 7 1 [1, 2] [(26, 1), (16, 1), (144, 1)]) = true ∧
    bodyEnds (eng0 (en 8 1 [1, 2] [(128, 1), (160, 1)])) .sample (en 8 1 [1, 2] [(128, 1), (160, 1)]) = true ∧
    bodyEnds (eng0 (en 8 2 [1, 2] [(128, 1), (160, 1)])) .slogp (en 8 2 [1, 2] [(128, 1), (160, 1)]) = true := by
  have m := test_witness_EngineInstructionsRun_matrix
  have v := test_witness_EngineInstructionsRun_vector
  have f := test_witness_EngineInstructionsRun_function
  have r := test_witness_EngineInstructionsRun_reduction
  have x := test_witness_EngineInstructionsRun_rest
  unfold runsAtOnce at m v f r x
  exact ⟨m.1.2.2.2.2.2.2, m.2.1.2.2.2.2.2.2, m.2.2.1.2.2.2.2.2.2, v.1.2.2.2.2.2.2, v.2.1.2.2.2.2.2.2, v.2.2.2.2.2.2.2.2, f.1.2.2.2.2.2.2,
    r.1.2.2.2.2.2.2, r.2.1.2.2.2.2.2.2, r.2.2.2.2.2.2.2.2, x.1.2.2.2.2.2.2, x.2.1.2.2.2.2.2.2, x.2.2.2.2.2.2.2.2⟩

theorem test_witness_TilesAreMoved_gather :
    bodyEnds (eng0 (en 4 3 [1, 2] [(128, 2), (160, 64), (192, 1)])) .dgather (en 4 3 [1, 2] [(128, 2), (160, 64), (192, 1)]) = true ∧
    ((ctx0 .dgather (en 4 3 [1, 2] [(128, 2), (160, 64), (192, 1)])).operand 2 64 32 1)[0]? = some 0 ∧
    (ctx0 .dgather (en 4 3 [1, 2] [(128, 2), (160, 64), (192, 1)])).word.grows = 1 := by
  have d := test_witness_EngineInstructionsRun_dma
  unfold runsAtOnce at d
  exact ⟨d.2.2.2.2.2.2.2.2, by decide +kernel, by decide +kernel⟩

/-- A DFILL of one line, which writes, and an MBURN, which stores nothing. -/
theorem test_witness_EngineBodiesFrame :
    bodyEnds (eng0 (en 4 2 [1] [(128, 2), (160, 0xFFFFFFFF)])) .dfill (en 4 2 [1] [(128, 2), (160, 0xFFFFFFFF)]) = true ∧
    (ctx0 .dfill (en 4 2 [1] [(128, 2), (160, 0xFFFFFFFF)])).word = en 4 2 [1] [(128, 2), (160, 0xFFFFFFFF)] ∧
    (ctx0 .dfill (en 4 2 [1] [(128, 2), (160, 0xFFFFFFFF)])).wrote.length = 0 ∧
    (en 4 2 [1] [(128, 2), (160, 0xFFFFFFFF)]).dests = [(1, 64)] ∧ (en 1 4 [] [(128, 1)]).dests = [] ∧
    (ctx0 .dfill (en 4 2 [1] [(128, 2), (160, 0xFFFFFFFF)])).operandSlot 1 = { AdgSlot.zero with base := 0x1000 } := by
  have d := test_witness_EngineInstructionsRun_dma
  unfold runsAtOnce at d
  exact ⟨d.2.1.2.2.2.2.2.2, by decide +kernel, by decide +kernel, by decide +kernel, by decide +kernel, by decide +kernel⟩

theorem test_witness_EnginesCompute_sums : [Val.ofRat 1, Val.inf false].Perm [Val.inf false, Val.ofRat 1] :=
  List.Perm.swap _ _ _

/-! ## Dealings and tricks -/

/-- The dealing of group 3 that core 0 is a member of. -/
def deal0 : Dealing := ⟨0, 9, 0, 0, [0], [], [], 0, 0, 0, 0⟩

/-- The loaded package with its die awake and tested, dealing that hand on group 3 with core `c`. -/
def dealing0 (c : Core) : State :=
  let s := { ready with image := some image0, groups := [(3, { Group.reset with serial := 5, st := .collecting, dealing := some deal0 })] }
  (((((((s.onDie 0 (fun d => { d with power := .awake, tested := true, passed := true, trained := true })).wr R.PLN_IMAGE_STATE 1).wr
    R.HUB_BRINGUP_DIES_BIST_OK 1).wr R.HUB_BRINGUP_STATUS_ANCHOR_OK 1).wr R.DDR_STATUS_TIER_READY 1).wr R.HUB_BRINGUP_STATUS_EVKAI 1).wr
    R.HUB_BRINGUP_STATUS_TIME 1).setCore 0 c

/-- The core at its trick. -/
def atTrick0 (k : TrickSt) : Core := { core0 [] with st := .atTrick, trick := k, pc := 32, tricks := 1 }

/-- The same with port 1 as a child and port 2 as the parent of group 3. -/
def tree0 (c : Core) (parent : Bool) : State :=
  let s := (dealing0 c).wr R.TRK_TREE_CHILDREN 2 0 3
  if parent then (s.wr R.TRK_TREE_PARENT 2 0 3).wr R.TRK_TREE_PARENT_VALID 1 0 3 else s

/-- A TRICK flit of group 3 that a port has brought. -/
def flitOf (kind : Nat) : TrickFlit := { TrickFlit.plain kind 3 5 with handId := 7, t := 77, need := 4 }

def brought (s : State) (port kind : Nat) : State := { s with trickIn := [(port, flitOf kind)] }

theorem test_witness_MembersArrive :
    ((dealing0 (atTrick0 .draining)).core 0).member.map (·.hand) = some 0 ∧ (dealing0 (atTrick0 .draining)).dealerUp = true ∧
    ((dealing0 (atTrick0 .draining)).core 0).quiet = true ∧ ((dealing0 (atTrick0 .aborting)).core 0).trick = .aborting ∧
    ({ atTrick0 .draining with eng := [(1, ⟨[], 0, [started (en 1 4 [] [(128, 1)]) 0]⟩)] } : Core).quiet = false := by decide +kernel

theorem test_witness_TricksAreCombined :
    trickRow 7 15 = some (.trickEnd 15) ∧ (brought State.reset 15 7).dealerUp = false ∧ ready.trickAt 15 = none ∧
    ((brought ready 15 2).trickAt 15).map (·.kind) = some 2 ∧
    ((dealing0 (atTrick0 .arrived)).group 3).dealing = some deal0 ∧ ((dealing0 (atTrick0 .arrived)).group 3).abort = none ∧
    (dealing0 (atTrick0 .arrived)).subtreeArrived 3 deal0 = true ∧ (dealing0 (atTrick0 .draining)).subtreeArrived 3 deal0 = false ∧
    (dealing0 (atTrick0 .arrived)).parentPort 3 = none ∧ deal0.trick + 1 < ((dealing0 (atTrick0 .arrived)).dealHdr deal0).trickCount ∧
    ((dealing0 (atTrick0 .arrived)).dealHdr { deal0 with trick := 1 }).trickCount ≤ 1 + 1 ∧
    (dealing0 (atTrick0 .arrived)).rd R.PLN_IMAGE_STATE ≠ 2 ∧
    ((tree0 (atTrick0 .arrived) true).onGroup 3 (fun x => { x with kids := [(1, 0)] })).subtreeArrived 3 deal0 = true ∧
    (tree0 (atTrick0 .arrived) true).parentPort 3 = some 2 ∧ ((tree0 (atTrick0 .arrived) true).group 3).sentUp = false := by
  decide +kernel

theorem test_root_releases :
    (((dealing0 (atTrick0 .arrived)).release 3 4000).core 0).resumeAt = some 4000 ∧ (dealing0 (atTrick0 .arrived)).margin 3 = 4000 := by decide +kernel

theorem test_witness_TreeFlitsAreTaken :
    (brought (tree0 (atTrick0 .arrived) false) 1 1).dealerUp = true ∧
    (brought (tree0 (atTrick0 .arrived) false) 1 1).trickAt 1 = some (flitOf 1) ∧
    1 ∈ (brought (tree0 (atTrick0 .arrived) false) 1 1).childPorts 3 ∧ 0 ∉ (brought (tree0 (atTrick0 .arrived) false) 0 1).childPorts 3 ∧
    (flitOf 1).serial = ((brought (tree0 (atTrick0 .arrived) false) 1 1).group 3).serial ∧ deal0.trick = (flitOf 1).trick ∧
    deal0.trick ≠ ({ flitOf 1 with trick := 1 } : TrickFlit).trick ∧
    ((brought (tree0 (atTrick0 .arrived) true) 2 2).onGroup 3 (fun x => { x with sentUp := true })).waitsOn 2 (flitOf 2) = true ∧
    ((brought (tree0 (atTrick0 .arrived) true) 2 7).onGroup 3 (fun x => { x with sentUp := true })).waitsOn 2 (flitOf 7) = true ∧
    (brought (tree0 (atTrick0 .arrived) true) 2 7).waitsOn 2 (flitOf 7) = false := by decide +kernel

/-- An ARRIVE for the load dealing of group 3 from the only child of its root. -/
def loadArrive0 : State :=
  { tree0 Core.reset false with groups := [], trickIn := [(1, { flitOf 1 with serial := 0 })] }

theorem test_witness_TreeFlitsAreTaken_load :
    loadArrive0.dealerUp = true ∧ loadArrive0.trickAt 1 = some { flitOf 1 with serial := 0 } ∧ loadArrive0.childPorts 3 = [1] ∧
    (loadArrive0.group 3).abort = none ∧ (loadArrive0.group 3).voted = false ∧ (loadArrive0.group 3).serial = 0 ∧
    loadArrive0.rd R.PLN_IMAGE_STATE = 1 ∧ loadArrive0.multi 3 = true ∧ (loadArrive0.group 3).sentUp = false ∧
    (((loadArrive0.group 3).arrivedFrom 1 4).kids.map (·.1)) = [1] := by decide +kernel

theorem test_release_taken :
    ((after (.trickRelease 2) ((brought (tree0 (atTrick0 .arrived) true) 2 2).onGroup 3 (fun x => { x with sentUp := true }))).core 0).resumeAt =
      some 77 := by decide +kernel

/-- The package with the hand ready on group 3, its group idle. -/
def idle0 : State := { dealing0 Core.reset with groups := [(3, { Group.reset with serial := 5 })] }

theorem test_witness_DealsStart :
    idle0.dealerUp = true ∧ idle0.image = some image0 ∧ (∀ g < 64, idle0.askedHand g = none) ∧ idle0.handAt 0 = some hand0 ∧
    (hand0.hdr.kind, 0) ∈ idle0.boundaryEnds.dealCands [] ∧
    (∀ c ∈ idle0.boundaryEnds.dealCands [], c ≠ (hand0.hdr.kind, 0) → idle0.boundaryEnds.before (hand0.hdr.kind, 0) c = true) ∧
    idle0.boundaryEnds.dealings = [] ∧ ¬ hand0.hdr.cls ≤ 1 ∧
    (idle0.onGroup 3 (fun x => { x with asked := some (7, 6, 500) })).askedHand 3 = some (0, hand0, 6, 500) ∧
    (∀ o < 3, (idle0.onGroup 3 (fun x => { x with asked := some (7, 6, 500) })).askedHand o = none) := by decide +kernel

theorem test_deal_serial :
    nextSerial 5 = 6 ∧ nextSerial 0xFFFFFFFF = 0 ∧ ((idle0.setMembers image0 hand0 ⟨3, 6, 0, 9, 0, 4000, false, []⟩).core 0).member.map (·.dealAt) = some 4000 := by
  decide +kernel

/-- A DEAL from the parent of an idle group for its next serial. -/
def dealFlit0 : State :=
  { tree0 Core.reset true with groups := [(3, { Group.reset with serial := 4 })], trickIn := [(2, flitOf 3)] }

theorem test_witness_DealsStart_parent :
    dealFlit0.dealerUp = true ∧ dealFlit0.trickAt 2 = some (flitOf 3) ∧ dealFlit0.parentPort 3 = some 2 ∧
    (flitOf 3).serial = nextSerial (dealFlit0.group 3).serial ∧ (dealFlit0.group 3).busy = false ∧ (dealFlit0.group 3).abort = none := by decide +kernel

/-- The dealing with its core faulted and reported. -/
def faulted0 : State := dealing0 { core0 [] with st := .faulted, report := some ⟨0x0301, 0, 64, 0⟩ }

/-- An abort in progress on group 3. -/
def abort0 : AbortInfo := ⟨5, 0x0301, 0, true, some 0, 0, 64, false⟩

theorem test_witness_AbortsStopAndReturn :
    faulted0.dealerUp = true ∧ (faulted0.core 0).report = some ⟨0x0301, 0, 64, 0⟩ ∧ (faulted0.core 0).member.map (·.group) = some 3 ∧
    (faulted0.group 3).dealing = some deal0 ∧ (faulted0.group 3).abort = none ∧
    ((faulted0.onGroup 3 (fun x => { x with abort := some abort0 })).group 3).abort ≠ none ∧
    (brought (tree0 (atTrick0 .arrived) true) 2 4).trickAt 2 = some (flitOf 4) ∧ 2 ∈ (tree0 (atTrick0 .arrived) true).treePorts 3 ∧
    1 ∈ (tree0 (atTrick0 .arrived) true).childPorts 3 ∧ (flitOf 5).trick = 0 ∧ abort0.serial = (flitOf 5).serial ∧
    ((tree0 (atTrick0 .abortDone) true).onGroup 3 (fun x => { x with abort := some abort0, sentUp := true })).rd R.PLN_IMAGE_STATE = 1 ∧
    (∀ o ∈ List.range 64, o ≠ 3 → ((tree0 (atTrick0 .abortDone) true).group o).sinceCkpt = []) := by decide +kernel

theorem test_abort_begins :
    ((after (.abortTrick 0) faulted0).group 3).returns = 1 ∨ ((after (.abortTrick 0) faulted0).group 3).st = .aborting := by decide +kernel

/-- The core waits for its deal time. -/
def due0 (c : Core) : State := dealing0 { c with resumeAt := some 500 }

theorem test_witness_MembersResumeAndRamp :
    ((due0 (atTrick0 .arrived)).core 0).resumeAt = some 500 ∧ (due0 (atTrick0 .arrived)).up = true ∧ (due0 (atTrick0 .arrived)).awake 0 = true ∧
    ((due0 (atTrick0 .arrived)).core 0).region = .running ∧ ((due0 (atTrick0 .arrived)).core 0).member.isSome = true ∧
    0 ≤ (due0 (atTrick0 .arrived)).timing.slew ∧
    ((dealing0 { atTrick0 .arrived with arrivedAt := some 0, active := 16, floor := 2 }).core 0).arrivedAt = some 0 := by decide +kernel

theorem test_witness_MembersResumeAndRamp_down :
    ({ due0 (atTrick0 .arrived) with pkg := .down }).linkLive = true ∧ ({ due0 (atTrick0 .arrived) with pkg := .down }).up = false := by decide +kernel

theorem test_member_resumes :
    ((after (.memberResume 0) (due0 (atTrick0 .arrived))).core 0).st = .running ∧ (after (.memberResume 0) (due0 (atTrick0 .arrived))).tick = 500 := by
  decide +kernel

theorem test_dummy_load_falls :
    ((after (.dummyLoadStep 0) (dealing0 { atTrick0 .arrived with arrivedAt := some 0, active := 16, floor := 2 })).core 0).dummy = 15 := by
  decide +kernel

/-- Core 0 marked for retirement on a package that deals nothing. -/
def marked0 : State := { idle0 with flt := { idle0.flt with marked := [(0, 0x0C02)] } }

theorem test_witness_GroupsResumeAndJokersSwap :
    marked0.dealerUp = true ∧ (marked0.group 3).abort = none ∧
    (∀ q ∈ marked0.treePorts 3, marked0.portActive q = true ∧ marked0.portLost q = false) ∧ marked0.jokerOf 0 = some 10 ∧
    marked0.logicalOf 0 = some 0 ∧ marked0.swapDue 0 = true ∧ marked0.betweenRounds 0 = true ∧
    (∀ q ∈ ((tree0 Core.reset false).wr R.LNK_STATUS_STATE 5 1).treePorts 3, ((tree0 Core.reset false).wr R.LNK_STATUS_STATE 5 1).portActive q = true ∧
      ((tree0 Core.reset false).wr R.LNK_STATUS_STATE 5 1).portLost q = false) := by decide +kernel

theorem test_joker_swap : (after (.jokerSwap 0) marked0).partOf 0 = some 10 := by decide +kernel

/-! ## The Evkai ports -/

/-- A data flit of a number on route 1. -/
def dflit (ty seq : Nat) : Flit := { Flit.zero with ty := ty, seq := seq, route := 1, tag := 5 }

/-- The package with port 0 ACTIVE, its last accepted number 0xFFFF as after a fresh start, and `p` as the rest of the port; route 1 delivers
to logical core 0, route 2 forwards to port 1, route 3 returns to logical core 0. -/
def link0 (p : Port) : State :=
  let s := { dealing0 { core0 [] with windows := [(0, ⟨true, true, true, 0, 2048, true⟩)] } with
    routes := [(1, 2), (2, 1 + 4), (3, 3)], ports := [(0, p)] }
  ((s.wr R.LNK_STATUS_STATE 5).wr R.LNK_SEQ_RX_LAST 0xFFFF).wr R.LNK_STATUS_LANES 15

set_option maxRecDepth 20000 in
theorem test_flit_round_trip :
    Flit.decode ({ dflit 2 0xFFFF with ack := 0xABCD, window := 63, offset := 0xFFFFC0, sflag := 511, sinc := 15, nak := true, partner := true, carry := 1#64 } : Flit).encode =
      some { dflit 2 0xFFFF with ack := 0xABCD, window := 63, offset := 0xFFFFC0, sflag := 511, sinc := 15, nak := true, partner := true, carry := 1#64 } := by
  decide +kernel

theorem test_witness_PortsSend :
    (link0 Port.reset).flows 0 = true ∧ ((link0 Port.reset).port 0).pause = none ∧
    ((link0 { Port.reset with replay := some ⟨0xFFFF, [0], 0⟩, buffer := [⟨0, dflit 1 0, 0⟩] }).port 0).buffer.find? (fun b => b.seq == 0) =
      some ⟨0, dflit 1 0, 0⟩ ∧
    ((link0 { Port.reset with due := [(1, 0xFFFF)] }).port 0).replay = none ∧ ((link0 Port.reset).port 0).mayNew = true ∧
    ((link0 { Port.reset with quiet := 1022 }).port 0).quiet < 1023 ∧
    (link0 Port.reset).tick - ((link0 Port.reset).port 0).timeAt < (link0 Port.reset).beaconEvery ∧
    (link0 Port.reset).wheelFlow 0 0 = none ∧
    ((((link0 { Port.reset with flows := [(5, [(dflit 1 0, .none)])] }).wr R.LNK_WHEEL_VALID 1 0 63).wr R.LNK_WHEEL_FLOW 5 0 63).wheelFlow 0 0 = some 5) := by
  decide +kernel

theorem test_wheel_follows_suit :
    (((after (.flitTimeSend 0) (((link0 { Port.reset with flows := [(5, [(dflit 1 0, .none)])] }).wr R.LNK_WHEEL_VALID 1 0 63).wr R.LNK_WHEEL_FLOW 5 0 63)).port 0).sent) =
      [(0, .none)] := by decide +kernel

set_option maxRecDepth 20000 in
theorem test_witness_PortsReceive :
    Flit.decode (dflit 1 0).encode = some (dflit 1 0) ∧ Flit.decode [] = none ∧ (dflit 1 0).sequenced = true ∧ (dflit 1 0).nak = false ∧
    ((dflit 1 0).seq + 65536 - (link0 Port.reset).rd R.LNK_SEQ_RX_LAST 0) % 65536 = 1 ∧
    ((dflit 1 0xFFFF).seq + 65536 - (link0 Port.reset).rd R.LNK_SEQ_RX_LAST 0) % 65536 = 0 ∧
    2 ≤ ((dflit 1 0x7FFE).seq + 65536 - (link0 Port.reset).rd R.LNK_SEQ_RX_LAST 0) % 65536 ∧
    ((dflit 1 0x7FFE).seq + 65536 - (link0 Port.reset).rd R.LNK_SEQ_RX_LAST 0) % 65536 ≤ 32767 ∧
    ((link0 Port.reset).route 1).kind = 2 ∧ (link0 Port.reset).misroute (dflit 1 0) = false ∧ (link0 Port.reset).verdict (dflit 1 0) = .pass 0 ∧
    (TrickFlit.of (flitOf 7).flit.payload).kind = 7 ∧ (link0 Port.reset).dealerUp = true := by decide +kernel

/-- Port 0 with four descramblers that stand at 0. -/
def four : Port := { Port.reset with rxHist := [0, 0, 0, 0] }

/-- What four lanes bring of a flit whose scramblers stood at 0. -/
def wire (f : Flit) : List (List Nat) := (sendLanes [0, 0, 0, 0] (codeword f.encode)).map (·.1)

/-- What port 0 finds in a word on its lanes: the header's type and number, and how many symbols were corrected. -/
def found (levels : List (List Nat)) : Option (Option (Nat × Nat) × Nat) :=
  (rsCorrect (receiveLanes ((link0 four).port 0).rxHist levels).1).map (fun x =>
    ((Flit.decode (symbolBytes x.1)).map (fun f => (f.ty, f.seq)), x.2.length))

set_option maxRecDepth 100000 in
theorem test_witness_PortsReceive_flit : found (wire (dflit 1 0)) = some (some (1, 0), 0) := by decide +kernel

set_option maxRecDepth 100000 in
theorem test_witness_PortsReceive_undecoded : found (List.replicate 4 (List.replicate 306 0)) = some (none, 0) := by decide +kernel

set_option maxRecDepth 100000 in
theorem test_witness_PortsReceive_uncorrectable : found (List.replicate 4 ((List.range 306).map (fun i => i * i % 7 % 4))) = none := by decide +kernel

/-- Expected from R255: the errors 0x155 at symbol 3 and 1 at symbol 271 are found from the syndromes that they give. -/
theorem test_two_errors_found :
    let syn := (List.range 16).map (fun i => gfMul 0x155 (gfPow 2 (268 * i % 511)) ^^^ 1)
    let lam := (locator syn).cur
    ((locator syn).len, [0, 3, 270, 271].map (fun k => gfEval lam (gfPow 2 (240 + k)) == 0), errorAt syn lam 3, errorAt syn lam 271) =
      (2, [false, true, false, true], 0x155, 1) := by decide +kernel

theorem test_flit_accepted :
    (((link0 Port.reset).accept 0 (dflit 1 0) []).port 0).elastic.map (fun x => (x.addr, x.checked)) = [(0, true)] ∧
    ((link0 Port.reset).accept 0 (dflit 1 0) []).rd R.LNK_SEQ_RX_LAST = 0 ∧
    ((link0 Port.reset).accept 0 (dflit 1 1) []).rd R.LNK_STATUS_NAK = 1 := by decide +kernel

/-- Expected from R254: the generator is the product of (x − α^i) for i from 0 to 15, in GF(2^9) with α^9 = α^4 + 1. -/
theorem test_generator :
    (List.range 16).foldl (fun p i => (List.range (p.length + 1)).map (fun k =>
      (if k = 0 then 0 else p.getD (k - 1) 0) ^^^ gfMul (gfPow 2 i) (p.getD k 0))) [1] = rsGen ∧ gfPow 2 9 = 17 ∧
    rsRows = (List.range 9).map (fun b => ((rsGen.take 16).zipIdx.map (fun x => gfMul x.1 (gfPow 2 b) * 2 ^ (9 * x.2))).sum) := by decide +kernel

theorem test_witness_ReplaysAndRedeals :
    ((link0 { Port.reset with buffer := [⟨0, dflit 1 0, 7⟩] }).port 0).buffer.filter (fun x => !seqLe x.seq 0xFFFF) = [⟨0, dflit 1 0, 7⟩] ∧
    ((link0 { Port.reset with pause := some (9, 0xFFFF) }).port 0).pause = some (9, 0xFFFF) ∧ 3 ∈ (link0 Port.reset).lanes 0 ∧
    ((link0 Port.reset).onDie 16 (fun d => { d with power := .awake })).reachable .lnk 0 ∧ (link0 Port.reset).portAbsent 0 = false ∧
    ((link0 Port.reset).port 0).starts[1]? = none ∧ ((link0 { Port.reset with starts := [0, 0] }).port 0).starts[1]? = some 0 ∧
    (link0 { Port.reset with starts := [0, 0] }).tick - 0 < 100000000 ∧ (link0 Port.reset).flows 0 = true := by unfold State.reachable; decide +kernel

theorem test_ack_timeout_replays :
    ((after (.ackTimeout 0) (link0 { Port.reset with buffer := [⟨0, dflit 1 0, 7⟩] })).port 0).replay.map (·.rest) = some [0] ∧
    (after (.ackTimeout 0) (link0 { Port.reset with buffer := [⟨0, dflit 1 0, 7⟩] })).tick = 3000 := by decide +kernel

theorem test_redeal_keeps_buffer :
    ((after (.redealReq 0) (link0 { Port.reset with buffer := [⟨0, dflit 1 0, 7⟩] })).port 0).buffer.length = 1 ∧
    (after (.redealReq 0) (link0 { Port.reset with buffer := [⟨0, dflit 1 0, 7⟩] })).rd R.LNK_STATUS_STATE = 0 := by decide +kernel

/-- A training report: everything passes at 400 Gb/s. -/
def report0 : TrainReport :=
  { found := true, errors := List.replicate 12 0, pass400 := 15, pass200 := 15, pass100 := 15, chip := 7, port := 3, fresh := true, last := 0xFFFF,
    retired := 0xFFFF, rtt := 4000, sent := List.replicate 4 1#58, got := List.replicate 4 2#58, heard := true }

/-- Port 0 in a training state. -/
def training (st : Nat) (p : Port) : State :=
  ((link0 { p with train := true }).onDie 16 (fun d => { d with power := .awake })).wr R.LNK_STATUS_STATE st

theorem test_witness_TrainingAdvances :
    (training 0 Port.reset).linkLive = true ∧ (training 6 Port.reset).portAbsent 0 = false ∧ (training 6 Port.reset).reachable .lnk 0 ∧
    ((training 0 Port.reset).port 0).train = true ∧ report0.found = true ∧
    chooseLanes (fun c => (List.range 4).filter (fun n =>
        bitOf (match c with | 0 => report0.pass400 | 1 => report0.pass200 | _ => report0.pass100).toNat n &&
        bitOf (if ((training 2 Port.reset).port 0).laneMask = 0 then 15 else ((training 2 Port.reset).port 0).laneMask) n &&
        ((report0.errors[4 * c + n]?).map (fun e => decide (e ≤ (training 2 Port.reset).rd R.LNK_TRAIN_MAX_ERR 0))).getD false))
      (if ((training 2 Port.reset).port 0).maxRate = 3 then 0 else ((training 2 Port.reset).port 0).maxRate) = some (0, [0, 1, 2, 3]) ∧
    ((training 4 { Port.reset with heard := true }).port 0).heard = true ∧ report0.heard = true ∧ ((training 3 Port.reset).port 0).fresh = true ∧ ((training 3 Port.reset).port 0).redeal = false ∧
    (trainLimit 2 false).isSome = true ∧ (trainLimit 2 true).isSome = true := by unfold State.reachable; decide +kernel

theorem test_fresh_start :
    (after (.trainingStateDone 0 report0) (training 3 Port.reset)).rd R.LNK_STATUS_STATE = 4 ∧
    (after (.trainingStateDone 0 report0) (training 3 Port.reset)).rd R.LNK_PEER_CHIP_ID = 7 := by decide +kernel

/-- A flit in the elastic buffer. -/
def el (f : Flit) (forward checked written : Bool) : Elastic := ⟨f, f.encode, forward, checked, written, 0, false, true⟩

theorem test_witness_ElasticHeadsLeave :
    ((link0 { Port.reset with elastic := [el (dflit 2 0) false true false] }).elasticHead 0).map (·.1) = some 0 ∧
    (link0 Port.reset).partOf ((link0 Port.reset).route 1).core = some 0 ∧
    ((link0 { Port.reset with elastic := [el (dflit 3 0) false true false] }).elasticHead 0).map (fun x => x.2.flit.ty) = some 3 ∧
    (link0 Port.reset).verdict { dflit 1 0 with tag := 6 } = .wait ∧
    [el { dflit 1 0 with route := 2 } true false false].findIdx? (fun e => e.forward) = some 0 ∧
    ((link0 Port.reset).wr R.LNK_STATUS_STATE 5 1).flows ((link0 Port.reset).route 2).port = true ∧ (link0 Port.reset).rowsFree 0 15 true 0 256 := by
  unfold State.rowsFree; decide +kernel

theorem test_data_last_writes_seal :
    ((after (.linkReceiveWrite 0) (link0 { Port.reset with elastic := [el { dflit 2 0 with carry := 1#64 } false true false] })).core 0).sealAt 0 = 1#64 := by
  decide +kernel

theorem test_remote_signal :
    ((after (.remoteSignalApply 0) (link0 { Port.reset with elastic := [el { dflit 3 0 with sflag := 511, sinc := 15 } false true false] })).core 0).flag 511 = 15 := by
  decide +kernel

/-- The package whose core 0 has an LFETCH in flight with tag 0, its tiles wanted at slot 1. -/
def fetching : State :=
  (link0 { Port.reset with elastic := [el { dflit 1 0 with route := 3, offset := 4 } false true false] }).onCore 0 (fun c =>
    c.setEngine 5 ⟨[], 0, [{ started (en 5 2 [1] []) 0 with slots := [AdgSlot.zero, { AdgSlot.zero with base := 0x7FF000 }] }]⟩)

theorem test_witness_FetchesServed :
    SMap.get [] ({ link0 Port.reset with responders := [(175, [⟨0x7FF000, 1, 7, 5, 2⟩])] }).responders 175 = [⟨0x7FF000, 1, 7, 5, 2⟩] ∧
    ({ link0 Port.reset with responders := [(175, [⟨0x7FF000, 1, 7, 5, 2⟩])] }).rowsFree 175 5 false 0x7FF000 4096 ∧
    (fetching.elasticHead 0).map (·.1) = some 0 ∧ (fetching.route 3).kind = 3 ∧ fetching.partOf (fetching.route 3).core = some 0 ∧
    (((fetching.core 0).engine 5).exec.find? (fun y => y.word.op == some .lfetch && y.remote == 0)).isSome = true ∧
    (((fetching.core 0).engine 5).exec.find? (fun y => y.word.op == some .lfetch && y.remote == 7)) = none ∧
    accessOk fetching (fetching.core 0) .spm true (0x7FF000 + 256) 256 = true ∧ fetching.rowsFree 0 15 true (0x7FF000 + 256) 256 := by
  unfold State.rowsFree; decide +kernel

/-! ## Partner mode, time, power -/

/-- A partner flit of group 3. -/
def pf (kind value : Nat) : PartnerFlit := ⟨kind, 3, 7, 9, value, 0, 1, 4, 32⟩

/-- The package with a partner flit before it. -/
def partner0 (f : PartnerFlit) (p : PartnerSt) : State := { idle0 with partnerIn := [f], partner := p }

theorem test_witness_PartnerModeCompares :
    (partner0 (pf 1 5) { PartnerSt.reset with waiting := [pf 1 5] }).dealerUp = true ∧
    [pf 1 5].find? (fun x => x.group == (pf 1 5).group && x.handId == (pf 1 5).handId && x.deal == (pf 1 5).deal) = some (pf 1 5) ∧
    [pf 1 4].find? (fun x => x.group == (pf 1 5).group && x.handId == (pf 1 5).handId && x.deal == (pf 1 5).deal) = some (pf 1 4) ∧
    (pf 2 5).same (pf 2 4) = true ∧ (partner0 (pf 3 0) PartnerSt.reset).rd R.PLN_IMAGE_STATE ≠ 2 ∧
    ((partner0 (pf 3 0) PartnerSt.reset).group 3).abort = none ∧ ((partner0 (pf 3 0) PartnerSt.reset).group 3).busy = false ∧
    idle0.reachable .xpk 0 ∧
    ((partner0 (pf 3 0) { PartnerSt.reset with held := true, bad := some 3 }).wr R.XPK_PSTATUS_STATE 3).rd R.XPK_PSTATUS_STATE = 3 := by
  unfold State.reachable; decide +kernel

theorem test_compare_mismatch :
    (after .partnerCompare (partner0 (pf 1 5) { PartnerSt.reset with waiting := [pf 1 4] })).rd R.XPK_PSTATUS_STATE = 3 ∧
    (after .partnerCompare (partner0 (pf 1 5) { PartnerSt.reset with waiting := [pf 1 4] })).rd R.XPK_MINE_LO = 4 := by decide +kernel

/-- A package that follows port 0, in a time state, with a beacon that shows `stamp`. -/
def follow (st stamp arrived : Nat) : State :=
  let b : Beacon := ⟨stamp, 0, 4, 0, 7, arrived⟩
  (({ link0 Port.reset with timing := { TimeSt.reset with beacons := [(0, b)] }, ports := [(0, { Port.reset with beacon := some b, stratum := 4 }), (1, { Port.reset with beacon := some b, beaconAt := 500, stratum := 4 })] }).wr
    R.TIM_STATUS_STATE st).wr R.LNK_STATUS_STATE 5 1

/-- The same with a beacon whose sender is in HOLDOVER. -/
def held3 (st : Nat) : State := { follow st 3 0 with timing := { TimeSt.reset with beacons := [(0, ⟨3, 0, 3, 0, 7, 0⟩)] } }

/-- The same with a beacon whose sender is in no tree. -/
def lost255 : State := { follow 2 3 0 with timing := { TimeSt.reset with beacons := [(0, ⟨3, 0, 1, 255, 7, 0⟩)] } }

theorem test_witness_TimeFollowsBeacons :
    (follow 2 1000 0).up = true ∧ (follow 2 1000 0).rd R.TIM_STATUS_STATE = 2 ∧ (follow 2 1000 0).rd R.TIM_STATUS_ALT = 0 ∧
    (follow 2 1000 0).portActive 0 = true ∧ (follow 2 1000 0).timing.beacons = [((follow 2 1000 0).rd R.TIM_STATUS_PORT, ⟨1000, 0, 4, 0, 7, 0⟩)] ∧
    lost255.timing.beacons = [(lost255.rd R.TIM_STATUS_PORT, ⟨3, 0, 1, 255, 7, 0⟩)] ∧ lost255.rd R.TIM_STATUS_STATE = 2 ∧ lost255.portActive 0 = true ∧
    lost255.rd R.TIM_CFG_ALT_VALID = 0 ∧ lost255.up = true ∧ ((follow 1 3 0).port 0).stratum < 255 ∧
    16 * (follow 2 1001 0).stepNs < ((follow 2 1001 0).offsetOf 0 ⟨1001, 0, 4, 0, 7, 0⟩).natAbs ∧
    ((follow 2 1000 0).offsetOf 0 ⟨1000, 0, 4, 0, 7, 0⟩).natAbs ≤ 16 * (follow 2 1000 0).stepNs ∧
    ((follow 2 3 0).offsetOf 0 ⟨3, 0, 4, 0, 7, 0⟩).natAbs ≤ 16 * (follow 2 3 0).lockNs ∧
    ({ follow 1 3 0 with timing := { TimeSt.reset with inLimit := some 5 } }).timing.inLimit = some 5 ∧ ((follow 1 3 0).port 0).peerTime ≠ 3 ∧
    (((follow 3 3 0).wr R.TIM_CFG_ALT_VALID 1).wr R.TIM_CFG_ALT_PORT 1).beaconsLost.followable 1 = true ∧ (follow 2 3 0).rd R.TIM_CFG_ALT_VALID = 0 ∧
    (held3 1).up = true ∧ (held3 1).rd R.TIM_STATUS_ALT = 0 ∧ (held3 1).portActive 0 = true ∧ (held3 1).timing.beacons = [((held3 1).rd R.TIM_STATUS_PORT, ⟨3, 0, 3, 0, 7, 0⟩)] := by
  decide +kernel

/-- Expected from R309: a package whose followed port reports HOLDOVER reports HOLDOVER. -/
theorem test_holdover_spreads : (after (.beacon 0) (held3 1)).rd R.TIM_STATUS_STATE = 3 ∧ (after (.beacon 0) lost255).rd R.TIM_STATUS_STATE = 3 ∧ (after (.beacon 0) (held3 1)).rd R.TIM_CNT_HOLDOVER = 1 := by
  decide +kernel

theorem test_time_locks :
    (after .timeLock { follow 1 3 0 with timing := { TimeSt.reset with inLimit := some 5 } }).rd R.TIM_STATUS_STATE = 2 ∧
    (after .timeLock { follow 1 3 0 with timing := { TimeSt.reset with inLimit := some 5 } }).tick = 1000005 := by decide +kernel

theorem test_witness_TimeStepsAndClocks :
    ({ dealing0 (atTrick0 .arrived) with timing := { TimeSt.reset with step := some (.by (-5)), held := [(3, 77)] } }).dealTimePending = false ∧
    (due0 (atTrick0 .arrived)).dealTimePending = true ∧ ((dealing0 (atTrick0 .arrived)).core 0).awaits = true ∧
    (dealing0 (atTrick0 .arrived)).awake 0 = true ∧ ((dealing0 (atTrick0 .arrived)).die 0).tested = true ∧ ready.reachable .tim 0 ∧
    ((ready.wr R.TIM_STATUS_STATE 4).wr R.TIM_CFG_EXT_EN 1).rd R.TIM_STATUS_STATE = 4 ∧ (ready.wr R.TIM_STATUS_STATE 4).rd R.TIM_CFG_EXT_EN = 0 ∧
    (ready.wr R.TIM_STATUS_STATE 3).rd R.TIM_STATUS_STATE = 3 ∧ (ready.wr R.CLK_STATUS_RETUNING 1 15).rd R.CLK_STATUS_RETUNING 15 = 1 := by
  unfold State.reachable; decide +kernel

theorem test_witness_TimeStepsAndClocks_down :
    ({ ready with pkg := .down }).linkLive = true ∧ ({ due0 (atTrick0 .arrived) with pkg := .hubReset }).linkLive = true ∧
    (dealing0 (atTrick0 .arrived)).up = true := by decide +kernel

theorem test_pps_edge :
    (after .ppsEdge { (ready.wr R.TIM_STATUS_STATE 4).wr R.TIM_CFG_EXT_EN 1 with time := 1499999999 }).timing.step = some (.by (-499999999)) := by decide +kernel

/-- A power report of one reading. -/
def temp0 (t : Nat) : PowerReport := ⟨[(0, t)]⟩

theorem test_witness_PowerIsAccounted :
    ready.dealerUp = true ∧ ready.rd R.PWR_STATUS_DRIFT = 0 ∧ (∃ x ∈ (temp0 115).temps, 115 ≤ x.2) ∧ (∀ x ∈ (temp0 114).temps, x.2 < 115) ∧
    (ready.wr R.PWR_CFG_MEAS_EN 1).rd R.PWR_CFG_MEAS_EN = 1 ∧ (ready.wr R.PWR_CFG_MEAS_EN 1).regulators.length = 0 ∧
    (((ready.wr R.PWR_CFG_MEAS_EN 1).wr R.PWR_VR_VALID 1 0 0).regulators.length = 1) ∧ ready.reachable .pwr 0 := by
  unfold State.reachable; decide +kernel

theorem test_trip_at_115 : (after (.powerTick (temp0 115)) ready).pkg = .tripped := by decide +kernel

/-- The die of core 0 with its timers. -/
def die0 (f : Die → Die) : State := (dealing0 (atTrick0 .arrived)).onDie 0 f

theorem test_witness_PacingAndFrequency :
    ((die0 id).die 0).droopAt = none ∧ ((die0 (fun d => { d with droopAt := some 0 })).die 0).droopAt.isSome = true ∧ (die0 id).awake 0 = true ∧
    7 < (die0 id).dieFreq 0 ∧ (die0 (fun d => { d with freq := 7 })).dieFreq 0 ≤ 7 ∧
    (∃ p, p / 11 = 0 ∧ 100 ≤ (((die0 id).onCore 10 (fun c => { c with deepTicks := 100 })).core p).deepTicks) ∧
    (∀ p < 11, ((die0 id).core p).deepTicks < 100) ∧ 100 ≤ ((die0 (fun d => { d with richTicks := 100, freq := 0x1B })).die 0).richTicks ∧
    ((die0 id).die 0).richTicks < 100 ∧
    ((die0 (fun d => { d with richTicks := 100, freq := 0x1B })).die 0).freq < (die0 id).fmax ∧
    ((die0 id).wr R.PWR_DIE_TEMP 127 0 0).throttleC ≤ ((die0 id).wr R.PWR_DIE_TEMP 127 0 0).rd R.PWR_DIE_TEMP 0 0 ∧
    ((die0 id).wr R.PWR_DIE_FLIMIT 27 0 0).rd R.PWR_DIE_TEMP 0 0 < (die0 id).throttleC ∧ 100 ≤ ((die0 (fun d => { d with coolTicks := 100 })).die 0).coolTicks ∧
    min (((die0 id).wr R.PWR_DIE_FLIMIT 27 0 0).rd R.PWR_DIE_FLIMIT 0 0) (die0 id).fmax < (die0 id).fmax ∧ (die0 id).linkLive = true :=
  ⟨by decide +kernel, by decide +kernel, by decide +kernel, by decide +kernel, by decide +kernel, ⟨10, by decide +kernel⟩, by decide +kernel⟩

theorem test_droop_sets_level_8 : ((after (.droopDetect 0) (die0 id)).core 10).pace = 8 ∧ ((after (.droopDetect 0) (die0 id)).core 11).pace = 16 := by
  decide +kernel

/-- Core 0's region in a state, its die awake, with gating enabled and nothing dealt. -/
def region0 (r : Region) (keep : Bool) : State :=
  ({ idle0 with image := none }.wr R.PWR_CFG_GATE_EN 1).setCore 0 { Core.reset with region := r, retained := keep, spm := [(0, 1#8)] }

theorem test_witness_RegionsAndDiesSleep :
    ((region0 .running true).core 0).regionIdle = true ∧ (region0 .stopped true).rd R.PWR_CFG_GATE_EN = 1 ∧ (region0 .waking true).awake 0 = true ∧
    ((region0 .waking true).core 0).retained = true ∧ ((region0 .waking false).core 0).retained = false ∧
    bitOf ((region0 .gated true).rd R.PWR_HOLD_AWAKE) 0 = false ∧
    (∀ c, c < 11 → (((List.range 11).foldl (fun (s : State) c => s.setCore c { Core.reset with region := .gated }) (region0 .gated true)).core c).region = .gated) ∧
    (region0 .gated true).dieNeeded 0 = false ∧ ((region0 .gated true).die 0).tested = true ∧ (region0 .gated true).pDieNeeded 7 = false ∧
    (((region0 .gated true).onDie 23 (fun d => { d with power := .waking })).die 23).power = .waking ∧ (region0 .gated true).reachable .pwr 0 := by
  unfold State.reachable; decide +kernel

theorem test_wake_without_retention :
    SMap.get 0#8 ((after (.regionWakeDone 0) (region0 .waking false)).core 0).spm 0 = 0#8 ∧
    (after (.regionWakeDone 0) (region0 .waking false)).rd R.SPM_STATUS_LOST 0 = 1 := by decide +kernel

/-! ## Weight slots, delta seats and requests -/

/-- The package with a command epoch and pair 31's back slot in a state. -/
def wsl0 (st : SlotSt) : State :=
  ({ idle0 with wcmd := none }.wr R.WSL_CMD_EPOCH 1).setWslot 63 ⟨st, 1, 63, true, true⟩

/-- The same with the back slot FREE and no plan loaded. -/
def wslAuto : State := { wsl0 .free with image := none }.wr R.PLN_IMAGE_STATE 0

theorem test_witness_WeightSlotsChange :
    (wsl0 .free).slotsSound = true ∧ (wsl0 .free).reachable .wsl 0 ∧ (wsl0 .free).rd R.WSL_CMD_STATUS_STATE ≠ 1 ∧ (wsl0 .free).auto 31 = false ∧
    (wsl0 .free).multiPair 31 = false ∧ ((wsl0 .free).wslot 63).st = .free ∧ epochOk ((wsl0 .free).wslot 62) ((wsl0 .free).rd R.WSL_CMD_EPOCH) = true ∧
    (wsl0 .staged).slotsSound = true ∧ (wsl0 .staged).reachable .wsl 0 ∧ ((wsl0 .staged).wslot 63).st = .staged ∧ (wsl0 .staged).cutOk 31 = true ∧
    (∀ d ∈ (wsl0 .staged).dealings, (wsl0 .staged).namesSlot d.2 63 = false) ∧ ((wsl0 .retiring).wslot 63).st ≠ .staged ∧
    (wsl0 .retiring).reachable .wsl 0 ∧ (wsl0 .retiring).slotsSound = true ∧
    { wsl0 .staged with wcmd := some (.cut, 31) }.wcmd = some (.cut, 31) ∧ { wsl0 .staged with wcmd := some (.cut, 31) }.dealerUp = true ∧
    { wsl0 .staged with wcmd := some (.cut, 31) }.cutOk 31 = true ∧ { wsl0 .free with wcmd := some (.cut, 31) }.cutOk 31 = false ∧
    (∀ i, i < 64 → ((wsl0 .free).wslot i).st ≠ .retiring) ∧
    wslAuto.slotsSound = true ∧ wslAuto.reachable .wsl 0 ∧ wslAuto.dealerUp = true ∧ wslAuto.loaded = false ∧ (1#32).toNat % 2 = 1 ∧
    (wslAuto.wslot 63).st = .free ∧ (wslAuto.wslot 62).epoch + 1 < 2 ^ 32 := by
  unfold State.reachable; decide +kernel

/-- Expected from R365: AUTO stages the epoch after the front slot's into the FREE back slot. -/
theorem test_auto_stages :
    (after (.registerWrite (.bar0 (Block.page .wsl 0 + 0x17C) 0xF#4) 1#32) wslAuto).wslot 63 = ⟨.staged, 1, 63, false, false⟩ ∧
    ((after (.registerWrite (.bar0 (Block.page .wsl 0 + 0x17C) 0xF#4) 0#32) wslAuto).wslot 63).st = .free := by decide +kernel

theorem test_stage_first_epoch :
    (after (.stage 31) (wsl0 .free)).wslot 63 = ⟨.staged, 1, 63, false, false⟩ ∧
    (after (.stage 31) ((wsl0 .free).wr R.WSL_CMD_EPOCH 0)).rd R.WSL_CMD_STATUS_STATE = 3 := by decide +kernel

theorem test_cut_exchanges :
    (after (.cut 31) (wsl0 .staged)).wslot 62 = ⟨.ready, 1, 63, false, false⟩ ∧ ((after (.cut 31) (wsl0 .staged)).wslot 63).st = .free := by
  decide +kernel

/-- The package with 4,096 seats, delta set 9 in hand, and the last seat in a state. -/
def seat0 (st : SeatSt) : State :=
  { (idle0.wr R.DPL_CFG_SEATS 4096).wr R.DPL_CMD_ID 9 with seats := [(4, ⟨.live, 9, 7⟩), (4095, ⟨st, 9, 3⟩)], versions := [(9, 7)] }

theorem test_witness_DeltaSeatsChange :
    idle0.reachable .dpl 0 ∧ (seat0 .free).reachable .dpl 0 ∧ bitOf idle0.fuses.engines 7 = false ∧ 4095 < (seat0 .free).rd R.DPL_CFG_SEATS ∧
    ((seat0 .free).seat 4095).st = .free ∧ ((seat0 .loading).seat 4095).st = .loading ∧ ((seat0 .retired).seat 4095).st ≠ .free ∧
    (seat0 .loading).liveSeat ((seat0 .loading).rd R.DPL_CMD_ID) = some 4 ∧ (4 : Nat) ≠ 4095 ∧
    ((seat0 .loading).wr R.DPL_CMD_ID 10).liveSeat 10 = none := by
  unfold State.reachable; decide +kernel

theorem test_enlist_next_version :
    (after (.enlist 4095) (seat0 .loading)).seat 4095 = ⟨.live, 9, 8⟩ ∧ ((after (.enlist 4095) (seat0 .loading)).seat 4).st = .free := by
  decide +kernel

/-- A log whose last slot holds a request of four prompt tokens in host memory, with the valid word given. -/
def logOf (valid : Nat) : SMap Byte :=
  let a : Nat := 128 * 511
  [(a + 0x30, 4#8), (a + 0x34, 1#8), (a + 0x51, 0x3F#8)] ++ (if valid = 0 then [] else [(a + 0x7C, BitVec.ofNat 8 valid), (a + 0x7E, 9#8)])

/-- The package with a hand of class 0 that serves pair 0 through slot 0, and function 15 enabled with that log. -/
def serve0 (valid : Nat) : State :=
  let h : Hand := { hand0 with hdr := { hand0.hdr with cls := 0, wslots := 1 } }
  let s := { idle0 with image := some { image0 with hands := [h] }, funcs := [(15, { Func.reset with log := logOf valid })], stamp := 40 }
  ((((s.wr R.SRV_GROUP_ROWS 16 0 3).wr R.SRV_KV_PAGES 4).wr R.SRV_KV_CFG_LIST_LINES 5).wr R.SRV_FUNC_EN 1 0 15).setWslot 0 ⟨.ready, 6, 0, false, false⟩

/-- The entry that this log spells. -/
def req0 : Req := Req.taken (512 * 15 + 511) 9 40 ((serve0 1).func 15 |>.entry 511)

/-- No other slot of that log is submitted. -/
def onlyLast (valid : Nat) : Bool :=
  (List.range 511).all (fun k => ((serve0 valid).func 15).valid k % 4 == 0)

theorem test_witness_RequestsAreTaken_log : idle0.dealerUp = true ∧ idle0.fnReached 0 = true ∧
    (idle0.wr R.HIF_FUNC_PRESENT 1 0 15).fnReached 15 = true := by decide +kernel

theorem test_witness_RequestsAreTaken_sweep :
    (serve0 1).dealerUp = true ∧ (serve0 1).rd R.SRV_FUNC_EN 0 15 = 1 ∧ (∀ g, g < 16 → g ≠ 15 → (serve0 1).rd R.SRV_FUNC_EN 0 g = 0) ∧
    onlyLast 1 = true ∧ onlyLast 2 = true ∧ ((serve0 1).func 15).busy = [] ∧ SMap.get 0 ((serve0 1).func 15).lastTag 511 ≠ 10 ∧ ((serve0 1).func 15).stale = [] ∧
    ((serve0 1).func 15).valid 511 = 0x90001 ∧ ((serve0 2).func 15).valid 511 = 0x90002 ∧
    (serve0 1).refusal 15 (((serve0 1).func 15).entry 511) (((serve0 1).func 15).logAt (128 * 511 + 0x54) 40 + bitsOf 0x90001 2 14) = none ∧
    ({ serve0 1 with image := none }).refusal 15 (((serve0 1).func 15).entry 511) 0 = some 0x21 := by decide +kernel

theorem test_witness_RequestsAreTaken_admit :
    ({ serve0 0 with reqs := [req0] }).reqs.find? (fun r => r.fn == 15 && !r.admitted) = some req0 ∧
    ((serve0 0).wslot (2 * req0.entry.pair)).st = .ready ∧ (serve0 0).kvNeed req0.entry = 1 ∧ ((serve0 0).freePages 1).length = 1 ∧
    (serve0 0).chunkSize req0.entry 0 = 16 ∧ (serve0 0).canPay 15 (firstCost req0.entry 16) = true ∧ req0.entry.delta = false := by decide +kernel

theorem test_sweep_takes :
    ((serve0 1).sweepSlot 15 511).reqs = [req0] ∧ (((serve0 2).sweepSlot 15 511).func 15).cpls.map (fun c => (c.status, c.cancel)) = [(0x10, 1)] := by
  decide +kernel

theorem test_admit_lowest_page :
    (after (.requestAdmit 15) { serve0 0 with reqs := [req0] }).reqs.map (fun r => (r.admitted, r.epoch, r.pages)) = [(true, 6, [0])] := by
  decide +kernel

/-- Function 15 with a final completion entry that waits, after `w` entries written to a ring of 64. -/
def cpl0 (w bme : Nat) : State :=
  let c : Cpl := ⟨512 * 15 + 511, true, 9, 3, 0x20, 0, 0, 0, 0, 0, 0, 0, 0⟩
  (((idle0.onFunc 15 (fun x => { x with cpls := [c], busy := [511], since := 1, firstAt := some 50 })).wr R.SRV_CPL_WRITTEN w 0 15).wr R.HIF_FUNC_BME bme 0 15).wr
    R.SRV_CPL_BASE_HI 1 0 15

theorem test_witness_CompletionsAreWritten :
    (cpl0 63 1).dealerUp = true ∧ ((cpl0 63 1).func 15).cpls.length = 1 ∧ (cpl0 63 1).rd R.HIF_FUNC_BME 0 15 = 1 ∧
    ((cpl0 63 1).rd R.SRV_CPL_WRITTEN 0 15 + 2 ^ 32 - ((cpl0 63 1).func 15).cplHead) % 2 ^ 32 < (cpl0 63 1).ringSize 15 ∧
    (cpl0 64 1).ringSize 15 ≤ ((cpl0 64 1).rd R.SRV_CPL_WRITTEN 0 15 + 2 ^ 32 - ((cpl0 64 1).func 15).cplHead) % 2 ^ 32 ∧
    (cpl0 64 1).rd R.HIF_FUNC_BME 0 15 = 1 ∧ (cpl0 64 0).rd R.HIF_FUNC_BME 0 15 = 0 ∧ ((cpl0 63 1).func 15).firstAt = some 50 ∧
    ((cpl0 63 1).func 15).since ≠ 0 ∧ ((cpl0 63 1).wr R.HIF_FUNC_MSIX_EN 1 0 15).rd R.HIF_FUNC_MSIX_EN 0 15 = 1 ∧
    (cpl0 63 1).rd R.SRV_CPL_CFG_VECTOR 0 15 < msixSize 15 ∧
    SMap.get true ({ cpl0 63 1 with msixMask := SMap.set true (cpl0 63 1).msixMask (2048 * 15) false }).msixMask (2048 * 15) = false ∧
    SMap.get false (cpl0 63 1).msixFnMask 15 = false := by decide +kernel

theorem test_completion_phase :
    ((after (.completionWrite 15) (cpl0 63 1)).outbox.drop 1).take 1 = [.hostWrite 15 (2 ^ 32 + 64 * 63 + 60) [1#8, 0#8, 0#8, 0#8]] ∧
    ((after (.completionWrite 15) ((cpl0 64 1).onFunc 15 (fun x => { x with log := [(0x10000, 64#8)] }))).outbox.drop 1).take 1 =
      [.hostWrite 15 (2 ^ 32 + 60) [0#8, 0#8, 0#8, 0#8]] := by decide +kernel

/-! ## Functions, health, faults and resets -/

theorem test_witness_FunctionsComeAndGo :
    idle0.reachable .srv 0 ∧ idle0.rd R.SRV_FUNC_EN 0 15 = 0 ∧ (idle0.wr R.SRV_FUNC_EN 1 0 15).rd R.SRV_FUNC_EN 0 15 = 1 ∧
    (idle0.wr R.SRV_FUNC_EN 1 0 15).reachable .srv 0 ∧ idle0.pkg ≠ .held := by
  unfold State.reachable; decide +kernel

theorem test_stake_is_cut :
    (after (.stakeBurstWrite 15 5#32) ((idle0.wr R.SRV_STAKE_RATE 0 0 15).setStake 15 (7 * 1000000000))).stake 15 = 5000000000 ∧
    (after (.functionDisable 15) { idle0.wr R.SRV_FUNC_EN 1 0 15 with reqs := [req0] }).reqs = [] := by decide +kernel

theorem test_witness_HealthIsKept :
    idle0.dealerUp = true ∧ idle0.score 215 ≤ 0xFFFFFFFF ∧ idle0.nvmIdle ∧ idle0.flt.dirtyAt = none ∧
    ({ idle0 with flt := { idle0.flt with dirtyAt := some 0 } }).flt.dirtyAt.isSome = true ∧
    ({ idle0 with flt := { idle0.flt with dirtyAt := some 0 } }).nvmIdle := by unfold State.nvmIdle; decide +kernel

theorem test_health_decays :
    (after .healthDecay { idle0 with flt := { idle0.flt with health := [(200, 81)] } }).score 200 = 71 := by decide +kernel

/-- Stack 15 trained, its scrubber on, with a word of it in a state. -/
def scrub0 (e : MemErr) : State :=
  let s := ready.wr R.HBM_STATUS_TRAINED 1 15
  { s with hbm := { s.hbm with err := SMap.set .none [] (s.unitWord false 15 3) e } }

/-- Channel 7 of a ready tier, its scrubber on. -/
def scrubD : State := ((((ready.wr R.DDR_STATUS_TIER_READY 1 0).wr R.DDR_STATUS_TRAINED 1 4).wr R.DDR_STATUS_TIER_READY 1 7).wr R.DDR_SCRUB_SCRUB_EN 1 7)

/-- A DCOPY that reads host memory, started. -/
def hostCopy : ExecEntry := { started (en 4 1 [0, 1] []) 0 with slots := [{ AdgSlot.zero with space := .host, base := 0x1000 }] }

theorem test_witness_MemoryErrorsAreHandled :
    (scrub0 .none).scrubs false 15 = true ∧ scrubD.scrubs true 7 = true ∧
    SMap.get MemErr.none ((scrub0 .none).tier false).err ((scrub0 .none).unitWord false 15 3) = .none ∧
    (engWith (en 4 1 [0, 1] []) ⟨[], 0, [hostCopy]⟩).up = true ∧
    ((engWith (en 4 1 [0, 1] []) ⟨[], 0, [hostCopy]⟩).core 0).hostReader = some hostCopy ∧
    ((engWith (en 4 1 [0, 1] []) ⟨[], 0, [hostCopy]⟩).core 0).st ≠ .faulted ∧
    ({ idle0 with reqs := [req0] }).reqs.find? (fun r => r.key == 512 * 15 + 511 && !r.detached) = some req0 ∧ req0.entry.promptSpace ≠ 1 ∧
    ({ idle0 with reqs := [req0] }).held req0 = false ∧
    ({ dealing0 Core.reset with groups := [(3, { Group.reset with dealing := some { deal0 with reqs := [⟨40, 0, 0, 0, false, false, 0, false⟩] } })] }).held req0 = true ∧
    (ready.wr R.HUB_FW_STATUS_STATE 1).rd R.HUB_FW_STATUS_STATE = 1 ∧ ({ ready with life := { ready.life with op := some .cert } }).life.op = some .cert := by
  decide +kernel

theorem test_scrub_poisons_tile :
    (after (.scrubPass false 15 3 .uncorrectable) (scrub0 .none)).rd R.HBM_CNT_UNCORR_SCRUB 15 = 1 ∧
    sealPoison ((after (.scrubPass false 15 3 .uncorrectable) (scrub0 .none)).hbm.sealAt (15 * 2 ^ 36)) = true := by decide +kernel

/-- The package without jokers. -/
def noJoker0 : State :=
  { idle0 with flt := { idle0.flt with maps := idle0.flt.maps.map (fun (m : JokerMap) => { m with jokers := 0 }) } }

theorem test_witness_FaultControls :
    idle0.reachable .flt 0 ∧ (marked0).outOfPlay 0 = true ∧ idle0.outOfPlay 0 = false ∧ (idle0.logicalOf 0).isSome = true ∧ (idle0.jmap 0).jokers ≠ 0 ∧
    (noJoker0.jmap 15).jokers = 0 ∧
    (noJoker0.jmap 15).waits = false ∧
    noJoker0.outOfPlay 165 = false ∧
    (noJoker0.logicalOf 165).isSome = true ∧
    idle0.flt.maps.length = 16 ∧ idle0.outOfPlay 175 = false ∧ idle0.logicalOf 175 = none := by
  unfold State.reachable; decide +kernel

theorem test_retire_joker : ((after (.retire 175) idle0).jmap 15).retired = [10] ∧ (after (.retire 176) idle0).rd R.FLT_CNT_SWAP = 0 := by decide +kernel

theorem test_witness_DealerDownAndSag :
    idle0.dealerUp = true ∧ idle0.pkg ≠ .held ∧ idle0.pkg ≠ .sagged ∧ ({ idle0 with pkg := .sagged }).pkg = .sagged ∧
    ({ idle0 with pkg := .sagged }).rd R.HUB_POWER_EVENT_SAVE_DONE = 0 ∧ idle0.life.nvmNow = none ∧ idle0.life.op = none ∧ idle0.life.resetDue = none := by
  decide +kernel

theorem test_dealer_down : (after .lockstepMismatch idle0).rd R.AON_STATUS_STATE = 1 ∧ (after .lockstepMismatch idle0).rd R.AON_STATUS_MISMATCH = 1 := by
  decide +kernel

theorem test_witness_ResetsRestore :
    ({ idle0 with pkg := .sagged }).perstWaits = true ∧ idle0.perstWaits = false ∧ idle0.life.nvmNow = none ∧ State.reset.pkg = .held ∧
    State.reset.osc = true ∧ (after .sysrefReturn State.reset).osc = false ∧ (after .sysrefReturn State.reset).pkg = .held ∧
    (seat0 .retired).reachable .aon 0 ∧ ((seat0 .retired).seat 4095).st = .retired ∧ ({ wsl0 .staged with wcmd := some (.cut, 31) }).wcmd.isSome = true ∧
    idle0.pkg ≠ .held ∧ idle0.reachable .aon 0 ∧ ({ idle0 with pkg := .down }).reachable .aon 0 ∧ ({ idle0 with pkg := .down }).pkg = .down ∧
    (∀ i, i < 64 → (idle0.wslot i).st ≠ .retiring) ∧ ({ idle0 with pkg := .hubReset }).pkg = .hubReset := by
  unfold State.reachable; decide +kernel

theorem test_release_gives_defaults :
    (after .resetRelease (after .sysrefReturn State.reset)).rd R.TIM_LIMITS_STEP_NS = State.reset.rd R.TIM_LIMITS_STEP_NS ∧
    (after .resetRelease (after .sysrefReturn State.reset)).pkg = .running ∧ (after .resetRelease State.reset).pkg = .held := by
  decide +kernel

/-- Stage 3 of bring-up on die 15. -/
def up0 (f : Die → Die) : State := ready.onDie 15 (fun d => f { d with power := .awake })

theorem test_witness_BringUpAdvances :
    linkOk 6 16 true = true ∧ linkOk 1 1 false = true ∧ ready.pkg = .running ∧
    (ready.wr R.HUB_FW_STATUS_STATE 0).reachable .hub 0 ∧ (ready.wr R.HUB_FW_STATUS_STATE 4).rd R.HUB_FW_STATUS_STATE = 4 ∧
    (ready.wr R.HUB_FW_STATUS_STATE 2).rd R.HUB_FW_STATUS_STATE = 2 ∧ (ready.wr R.HUB_FW_LEN 0x2000).rd R.HUB_FW_LEN < 0x2001 ∧
    0x2001 ≤ (ready.wr R.HUB_FW_LEN 0x400000).rd R.HUB_FW_LEN ∧ (ready.wr R.HUB_FW_LEN 0x400000).rd R.HUB_FW_LEN ≤ 0x400000 ∧
    (up0 id).dealerUp = true ∧ (up0 id).awake 15 = true ∧ ((up0 id).die 15).tested = false ∧ (up0 id).markedOn 15 < ((up0 id).jmap 15).jokers ∧ ((([⟨0, true, true, true, true, true⟩, ⟨15, true, false, true, false, true⟩] : List FnConfig).map (·.fn)).Nodup) ∧
    ((up0 (fun d => { d with passed := true })).die 15).passed = true ∧ ((up0 (fun d => { d with passed := true })).die 15).memDone = false ∧
    ((up0 (fun d => { d with passed := true, trained := true })).die 15).trained = true ∧
    ((up0 (fun d => { d with passed := true, trained := true })).die 15).anchored = false ∧ (up0 id).outOfPlay 165 = false ∧
    ((up0 id).logicalOf 165).isSome = true ∧ ({ ready with life := { ready.life with ddrTrain := true } }).life.ddrTrain = true ∧
    ready.rd R.HUB_BRINGUP_STATUS_EVKAI = 0 ∧ (ready.onDie (Block.ddr.die 0) (fun d => { d with power := .awake })).reachable .ddr 0 ∧ (∀ d ∈ ready.dealings, (ready.dealHdr d.2).ddr5 = false) ∧
    (∃ d ∈ (dealing0 Core.reset).dealings, ((dealing0 Core.reset).dealHdr d.2).ddr5 = true) := by
  unfold State.reachable; decide +kernel

theorem test_bist_and_tier :
    (after (.bistDone 15 true []) (up0 id)).rd R.HUB_BRINGUP_DIES_BIST_OK = 2 ^ 15 ∧
    (after (.ddrTrainingDone (List.replicate 8 ⟨true, true, false, 64, 2, 6400⟩)) { ready with life := { ready.life with ddrTrain := true } }).rdPair
      R.DDR_CAPACITY_LO R.DDR_CAPACITY_HI = 8 * 64 * 2 ^ 30 / 512 * 511 := by decide +kernel

/-! ## Plans, MRAM and life cycle -/

/-- The bytes of a plan image at address 0x100000: one hand of class 2 on group 3 and logical core 0, whose stream is one TRICK. -/
def imageBytes (cls : Byte) : SMap Byte :=
  ([(0, 1#8), (6, 1#8), (8, 1#8), (0x11, 0x20#8), (0x19, 1#8), (0x20, 0x80#8), (0x21, 1#8),
    (0x104, cls), (0x105, 0xC#8), (0x106, 1#8), (0x108, 1#8), (0x131, 2#8), (0x140, 1#8),
    (0x201, 0x10#8), (0x208, 0x20#8), (0x211, 4#8), (0x1001, 7#8)] : SMap Byte).map (fun x => (0x100000 + x.1, x.2))

/-- The package with that image in a trained stack 0 and being checked. -/
def load0 (cls : Byte) : State :=
  let s := (ready.wr R.HBM_STATUS_TRAINED 1 0).wr R.PLN_LOAD_STATUS_STATE 1
  { s with hbm := { s.hbm with bytes := imageBytes cls }, loading := some ⟨0x100000⟩ }

/-- Whether the load check accepts the image, and the REASON when it does not. -/
def checked (s : State) : Option Nat :=
  match (s.loadEnv 0x100000).check' with
  | .ok _ => none
  | .error r => some r.reason

theorem test_witness_PlansLoadAndUnload :
    ready.reachable .pln 0 ∧ ready.rd R.PLN_IMAGE_STATE = 0 ∧ ready.rd R.PLN_LOAD_STATUS_STATE ≠ 1 ∧ ready.life.lcs.plans = true ∧
    idle0.rd R.PLN_IMAGE_STATE = 1 ∧ idle0.reqs = [] ∧ SMap.wf Group.reset idle0.groups = true ∧ idle0.reachable .pln 0 ∧
    (∀ d ∈ idle0.dealings, d.2.hand = checkHand) ∧ (∃ d ∈ (dealing0 Core.reset).dealings, d.2.hand ≠ checkHand) ∧
    SMap.wf Group.reset (dealing0 Core.reset).groups = true ∧ (load0 2#8).dealerUp = true ∧ (load0 2#8).loading = some ⟨0x100000⟩ ∧
    (load0 2#8).rd R.XPK_LOAD_STATE ≠ 3 ∧ (load0 2#8).allTreePorts = [] ∧ (load0 2#8).hbm.err = [] ∧ (load0 2#8).rd R.XPK_LOAD_ABORT_HELD = 0 ∧
    (∀ g, g < 64 → (load0 2#8).multi g = false) ∧ ((load0 2#8).wr R.XPK_LOAD_STATE 3).rd R.XPK_LOAD_STATE = 3 := by
  unfold State.reachable; decide +kernel

theorem test_witness_PlansLoadAndUnload_check : checked (load0 2#8) = none ∧ checked (load0 7#8) = some 2 := by decide +kernel

theorem test_rejected_load :
    (after .planLoadDone (load0 7#8)).rd R.PLN_LOAD_STATUS_STATE = 3 ∧ (after .planLoadDone (load0 7#8)).rd R.PLN_LOAD_OFFSET_LO = 0x104 := by
  decide +kernel

/-- The package with an MRAM operation of the host in progress on section 6, which has a stored value. -/
def nvm0 (store : Bool) : State :=
  { ready with
    life := { ready.life with nvmNow := some ⟨6, store, .host, [(0, 7)]⟩ }
    mram := [(6, { Section.blank with bank0 := .written 6 1 [(0, 3)], stored := some false })] }

theorem test_witness_MramStores :
    ready.reachable .nvm 0 ∧ ready.rd R.NVM_STATUS_STATE ≠ 1 ∧ ready.nvmIdle ∧ ready.life.lcs ≠ .test ∧ ready.life.lcs ≠ .ret ∧
    (ready.wr R.NVM_STATUS_STATE 1).rd R.NVM_STATUS_STATE = 1 ∧ (ready.wr R.NVM_STATUS_STATE 1).reachable .nvm 0 ∧
    (nvm0 true).life.nvmNow = some ⟨6, true, .host, [(0, 7)]⟩ ∧ (nvm0 false).life.nvmNow = some ⟨6, false, .host, [(0, 7)]⟩ ∧
    (nvm0 true).life.nvmWait = [] ∧ (nvm0 true).life.resetDue = none ∧ ready.life.nvmNow = none := by
  unfold State.reachable State.nvmIdle; decide +kernel

theorem test_mram_banks :
    ((after (.nvmOperationDone true) (nvm0 true)).sect 6).bank1.seq = 2 ∧ (after (.nvmOperationDone false) (nvm0 true)).stored 6 = some [(0, 3)] ∧
    (after (.store 7) ready).rd R.NVM_STATUS_REASON = 1 := by decide +kernel

/-- The package in a life-cycle state, with an identity key. -/
def lcs0 (l : Lcs) : State := { ready with life := { ready.life with lcs := l, identity := some [1#8] } }

theorem test_witness_LifeCycleAndAttestation :
    ready.reachable .lcs 0 ∧ (lcs0 .provision).reachable .lcs 0 ∧ (lcs0 .fieldDebug).reachable .lcs 0 ∧ ready.rd R.LCS_STATUS_STATE ≠ 1 ∧
    ready.lcsStopped = false ∧ (ready.wr R.HUB_POWER_EVENT_AUX_LOW 1).lcsStopped = true ∧ (ready.wr R.HUB_POWER_EVENT_AUX_LOW 1).reachable .lcs 0 ∧
    ready.loaded = false ∧ ready.ownerKey = none ∧ ({ ready with mram := [(9, { Section.blank with bank0 := .written 9 1 [], stored := some false })] }).ownerKey.isSome = true ∧
    (lcs0 .provision).lcsStopped = false ∧ (lcs0 .provision).chain = [] ∧ ready.life.lcs ≠ .provision ∧ ready.life.lcs ≠ .fieldDebug ∧
    ({ ready with life := { ready.life with op := some (.submit false) } }).life.op = some (.submit false) ∧ ready.life.resetDue = none ∧ ready.reachable .att 0 ∧
    ready.rd R.ATT_STATUS_STATE ≠ 1 ∧ ready.life.identity = none ∧ (lcs0 .field).life.identity.isSome = true ∧
    ({ lcs0 .field with life := { (lcs0 .field).life with attOp := some 1 } }).life.attOp = some 1 := by unfold State.reachable; decide +kernel

theorem test_exit_debug :
    (after .exitDebug (lcs0 .fieldDebug)).life.lcs = .field ∧ (after .cert ready).rd R.LCS_STATUS_REASON = 0xA := by decide +kernel

/-! ## Registers, device memory and the whole package -/

/-- A register page by its block. -/
def page (b : Block) (inst : Nat) : Nat := Block.page b inst

theorem test_page_map :
    pageAt (page .tim 0 + 0x044) = some (.tim, 0) ∧ pageAt (page .rte 0 + 0x040) = some (.rte, 0) ∧ pageAt (page .seq 175) = some (.seq, 175) ∧
    pageAt (page .lnk 15 + 0xFFC) = some (.lnk, 15) ∧ pageAt 0x0FFFFFFC = none := by decide +kernel

theorem test_witness_RegistersAreAccessed :
    pageAt (page .tim 0 + 0x05C) = some (.tim, 0) ∧ ready.reachable .tim 0 ∧ ready.pageAbsent .tim 0 = false ∧ ddrOnly .tim 0 0x05C = false ∧
    Block.fieldsAt .tim 0x040 ≠ [] ∧ (∀ y ∈ Block.fieldsAt .srv 0x04C, y.1.ownCommand = false) ∧
    ((Block.fieldsAt .srv 0x048).map (fun y => y.1.key 0 y.2)).Nodup ∧ ready.reachable .srv 0 ∧ pageAt (page .srv 0 + 0x048) = some (.srv, 0) ∧
    idle0.reachable .rte 0 ∧ (∀ y ∈ Block.fieldsAt .rte 0x048, idle0.locked y.1 y.2 = true) ∧ Block.fieldsAt .rte 0x048 ≠ [] ∧
    pageAt (page .xpk 0 + 0x058) = some (.xpk, 0) ∧ ready.loaded = false ∧ ready.reachable .xpk 0 ∧ ready.pageAbsent .xpk 0 = false ∧
    pageAt (page .dpl 0 + 0x048) = some (.dpl, 0) ∧ ready.reachable .dpl 0 ∧ ready.pageAbsent .dpl 0 = false ∧ (0x4#32).toNat % 16 = 4 ∧
    4 < (0x5#32).toNat % 16 ∧ ready.rd R.TIM_STATUS_ALT = 0 ∧ (∀ y ∈ Block.fieldsAt .spm 0x044, y.1.acc = .ro) ∧
    (Block.spm, 0x044) ≠ (.dpl, 0x048) ∧
    (page .srv 0 + 0x049) % 4 ≠ 0 ∧ pageAt (page .srv 0 + 0x049) = some (.srv, 0) ∧ ready.answers .srv = true ∧ State.reset.answers .srv = false ∧
    ready.answers .hif = true ∧ Block.isLo .hub 0x100 = true ∧ ready.reachable .hub 0 ∧ Block.isLo .srv 0x048 = false ∧
    (ready.wr R.HUB_FW_STATUS_STATE 0).reached = true ∧ ({ ready with pkg := .down }).answers .srv = false ∧ ({ ready with pkg := .down }).reached = true := by
  unfold State.reachable; decide +kernel

theorem test_witness_RegistersAreAccessed_unlocked :
    (∀ y ∈ Block.fieldsAt .srv 0x048, ready.locked y.1 y.2 = false) ∧ (∀ y ∈ Block.fieldsAt .srv 0x048, y.1.ownCommand = false) ∧
    pageAt (page .tim 0 + 0x044) = some (.tim, 0) := by decide +kernel

theorem test_witness_RegistersAreAccessed_locks : ∀ y ∈ Block.fieldsAt .srv 0x048, ¬setsLock (y.1.key 0 y.2) := by
  intro y hy
  have h : y.1.key 0 y.2 ∈ (Block.fieldsAt .srv 0x048).map (fun y => y.1.key 0 y.2) := List.mem_map_of_mem hy
  rw [show (Block.fieldsAt .srv 0x048).map (fun y => y.1.key 0 y.2) = [R.SRV_KV_CFG_PAGE_TILES.key 0 0, R.SRV_KV_CFG_PAGE_TOKENS.key 0 0,
    R.SRV_KV_CFG_LIST_LINES.key 0 0] by decide +kernel] at h
  generalize y.1.key 0 y.2 = k at h
  simp only [List.mem_cons, List.not_mem_nil, or_false] at h
  unfold setsLock
  rcases h with rfl | rfl | rfl <;> simp [Fld.key, R.SRV_KV_CFG_PAGE_TILES, R.SRV_KV_CFG_PAGE_TOKENS, R.SRV_KV_CFG_LIST_LINES, R.PLN_IMAGE_STATE,
    R.HUB_FW_STATUS_STATE, R.SRV_FUNC_EN, Block.page] <;> omega

/-- A STAGE that waits for the RETIRING back slot of pair 31, which an admitted request of function 15 pins. -/
def pinned0 : State :=
  { wsl0 .retiring with wcmd := some (.stage 2, 31), reqs := [{ req0 with admitted := true, pinned := true, epoch := 1, entry := { req0.entry with flags := 31 * 2 ^ 16 } }] }

theorem test_witness_RegistersAreAccessed_others :
    pageAt (page .flt 0 + 0x064) = some (.flt, 0) ∧ idle0.reachable .flt 0 ∧ idle0.pageAbsent .flt 0 = false ∧
    ({ idle0 with image := some { image0 with packages := 2000 } } : State).healthMode = false ∧
    ready.healthMode = true ∧ ready.outOfPlay 0 = false ∧ (ready.logicalOf 0).isSome = true ∧ ready.score 0 = 0 ∧
    pageAt (page .wsl 0 + 0x054) = some (.wsl, 0) ∧ pinned0.reachable .wsl 0 ∧ pinned0.pageAbsent .wsl 0 = false ∧
    pinned0.wcmd = some (.stage 2, 31) ∧ (pinned0.wslot 63).st = .retiring ∧
    (∀ r ∈ pinned0.reqs, r.pins 63 (pinned0.wslot 63).epoch = true → bitOf 0x8000 (r.key / 512) = true) ∧
    (pinned0.reqs.any (fun r => r.pins 63 (pinned0.wslot 63).epoch)) = true ∧ (0x7#4 : BitVec 4) ≠ 0xF#4 := by unfold State.reachable; decide +kernel

/-- Expected from R369: the bit of the last function that holds the slot converts its request. -/
theorem test_convert_by_write :
    (after (.registerWrite (.bar0 (page .wsl 0 + 0x054) 0xF#4) 0x8000#32) pinned0).reqs.map (·.pinned) = [false] ∧
    (after (.registerWrite (.bar0 (page .wsl 0 + 0x054) 0xF#4) 0x7FFF#32) pinned0).reqs.map (·.pinned) = [true] := by decide +kernel

theorem test_register_write :
    (after (.registerWrite (.bar0 (page .srv 0 + 0x048) 0xF#4) 0x0FF00A01#32) ready).rd R.SRV_KV_CFG_LIST_LINES = 0xFF ∧
    (after (.registerWrite (.bar0 (page .srv 0 + 0x020) 0xF#4) 3#32) (ready.wr R.SRV_CNT_REFUSED 5)).rd R.SRV_CNT_REFUSED = 4 ∧
    (after (.registerWrite (.bar0 (page .srv 0 + 0x048) 0x7#4) 1#32) ready).rd R.HIF_CNT_BAD_ACCESS = 1 := by decide +kernel

theorem test_nv_fields_distinct : (([2, 3, 6].flatMap nvFields).map (fun x => x.1.key x.2.1 x.2.2)).Nodup := by decide +kernel

/-- The FLT page with events enabled, its message on entry 7 of an open table. -/
def flt0 : State :=
  let s := ((ready.wr R.HIF_FUNC_MSIX_EN 1 0 0).wr (R.PAGE_CTRL_VECTOR .flt) 7 0).wr (R.PAGE_CTRL_MSG_EN .flt) 1 0
  { s.wr (R.EVT_ENABLE .flt) 63 0 with msixMask := SMap.set true s.msixMask 7 false }

theorem test_witness_PageEventsSignal :
    pageAt (page .flt 0) = some (.flt, 0) ∧ flt0.reachable .flt 0 ∧ Block.events .flt ≠ [] ∧ flt0.pageAbsent .flt 0 = false ∧
    flt0.pageCond .flt 0 = false ∧ (flt0.wr (R.EVT_STATUS .flt) 8 0).pageCond .flt 0 = true ∧ (flt0.wr (R.EVT_STATUS .flt) 8 0).pageSends .flt 0 ∧
    flt0.eventBits .flt 8 ≠ 0 ∧ flt0.eventBits .flt 0x40 = 0 := by unfold State.reachable State.pageSends; decide +kernel

theorem test_event_message :
    (after (.evtForce (page .flt 0) 8#32) flt0).outbox = [.msix 0 7 0 0] ∧ (after (.evtForce (page .flt 0) 8#32) flt0).rd (R.EVT_FIRST_CODE .flt) = 0x0C04 := by
  decide +kernel

/-- Part 0 with debug pages open. -/
def dbg0 : State := ({ idle0 with life := { idle0.life with lcs := .fieldDebug } }).wr R.SPM_DBG_ADDR 0x1FFFFF 0

theorem test_witness_DebugAndDeviceMemory_debug :
    dbg0.reachable .spm 0 ∧ dbg0.debugOpen = true ∧ (dbg0.core 0).region = .running ∧ (dbg0.core 0).spmErr = [] ∧ idle0.debugOpen = false ∧
    idle0.reachable .spm 0 ∧ idle0.reachable .mxu 0 ∧ idle0.reachable .sea 0 := by unfold State.reachable; decide +kernel

theorem test_witness_DebugAndDeviceMemory_free : dbg0.rowsFree 0 14 true 0x7FFFFC 4 ∧ dbg0.rowsFree 0 14 false 0x7FFFFC 4 := by unfold State.rowsFree; decide +kernel

/-- Stack 0 trained and awake. -/
def mem0 : State := idle0.wr R.HBM_STATUS_TRAINED 1 0

theorem test_witness_DebugAndDeviceMemory_memory :
    mem0.bar2Reaches 0x0FFC 4 ∧ mem0.hbmFree true (mem0.bar2 0x0FFC) 4 ∧ mem0.hbmFree false (mem0.bar2 0x0FFC) 4 ∧ mem0.hbm.err = [] ∧ ({ mem0 with pkg := .tripped }).reached = true ∧ ({ mem0 with pkg := .tripped }).memStopped = true ∧
    mem0.dealerUp = true ∧ mem0.reached = true ∧ (mem0.wr R.HIF_FUNC_PRESENT 1 0 15).fnReached 15 = true ∧ mem0.fnReached 0 = true ∧ (63 : Nat) < msixSize 15 ∧ 2047 < msixSize 0 ∧
    SMap.get false ({ mem0 with msixPend := [(2048 * 15 + 63, true)] }).msixPend (2048 * 15 + 63) = true ∧ SMap.get false mem0.msixFnMask 15 = false ∧
    (mem0.wr R.HIF_FUNC_MSIX_EN 1 0 15).rd R.HIF_FUNC_MSIX_EN 0 15 = 1 ∧ SMap.get false mem0.msixPend (2048 * 15 + 63) = false := by
  unfold State.bar2Reaches State.hbmFree; decide +kernel

theorem test_witness_DebugAndDeviceMemory_spaces :
    idle0.fnReached 0 = true ∧ idle0.dealerUp = true ∧ idle0.fnReached 15 = false ∧ (idle0.wr R.HIF_LINK_SPEED 0).pcieUp = false ∧ idle0.pcieUp = true ∧
    idle0.fnPresent 15 = false ∧ regionOf 0 (0x80000 + 16 * 2047 + 12) = 0 ∧ regionOf 15 0x10000 = 15 ∧ regionOf 0 0xF10000 = 15 ∧
    0x10000 % 2 ^ 20 + 4 ≤ 0x10004 ∧ idle0.rd R.HIF_FUNC_D3HOT 0 0 = 0 ∧ (idle0.fnCfg 0).vfEnable = false ∧ (0x40000003#32).toNat % 4 = 3 ∧
    (0x1#32).toNat % 2 = 1 := by decide +kernel

/-- Expected from R381 and R499: the log reads as last written, also through the physical function, and a table entry gives the message. -/
theorem test_bar4 :
    (after (.latchedPairRead (.bar4 0 0xF10000)) (after (.registerWrite (.bar4 0 0xF10000) 0x12345678#32) idle0)).outbox = [.readData 0x12345678] ∧
    (after (.msixUnmask 0 (some 7)) (after (.registerWrite (.bar4 0 0x80078) 0x99#32)
      { idle0.wr R.HIF_FUNC_MSIX_EN 1 0 0 with msixPend := [(7, true)] })).outbox = [.msix 0 7 0 0x99] := by decide +kernel

/-- Expected from R475 and R476: Device ID 0x0250, a function that is not there reads all ones, and VF Enable makes NumVFs functions. -/
theorem test_config :
    (after (.latchedPairRead (.config 15 .id)) idle0).outbox = [.readData 0xFFFFFFFF] ∧ idle0.cfgRead 0 .classCode / 2 ^ 8 = 0x120000 ∧
    ((after (.registerWrite (.config 0 .sriovCtl) 1#32) (after (.registerWrite (.config 0 .sriovNum) 15#32) idle0)).rd R.HIF_FUNC_PRESENT 0 15,
      (after (.registerWrite (.config 0 .sriovCtl) 1#32) (after (.registerWrite (.config 0 .sriovNum) 2#32) idle0)).rd R.HIF_FUNC_PRESENT 0 3) = (1, 0) := by
  decide +kernel

theorem test_bar2_write_unseals :
    (after (.bar2Write 0 0xFFC [1#8, 2#8, 3#8, 4#8]) mem0).hbmByte 0xFFF = 4#8 ∧
    sealPoison ((after (.bar2Write 0 0xFFC [1#8, 2#8, 3#8, 4#8]) mem0).hbm.sealAt 0xFFC) = true := by decide +kernel

theorem test_witness_RouteEntriesAreAccessed :
    ready.reachable .rte 0 ∧ ready.loaded = false ∧ idle0.reachable .rte 0 ∧ idle0.loaded = true := by unfold State.reachable; decide +kernel

theorem test_route_pair :
    (after (.routeEntryWrite 0x11#32) { ready.wr R.RTE_ADDR 4095 with routeHi := 3 }).routes = [(4095, 0x300000011)] ∧
    (after (.routeEntryWrite 0x11#32) (ready.wr R.RTE_ADDR 4095)).rd R.RTE_ADDR = 0 := by decide +kernel

theorem test_witness_AsleepDiesAnswerNothing :
    commandPage (.mxuInject 175) = some (.mxu, 175) ∧ ready.answers .mxu = true ∧ ready.awake (Block.mxu.die 175) = false ∧
    pageAt (page .mxu 175) = some (.mxu, 175) ∧ ready.answers .spm = true ∧ ready.awake (Block.spm.die 175) = false ∧ ready.reached = true ∧
    ready.memStopped = false ∧ ready.stackAsleep (ready.bar2 0) = true ∧ ready.reachable .pwr 0 ∧ (ready.die 23).power = .gated ∧
    (ready.die 0).tested = false := by unfold State.reachable; decide +kernel

theorem test_asleep_read :
    (after (.latchedPairRead (.bar0 (page .mxu 175) 0x1#4)) ready).outbox = [.readData 0xFFFFFFFF] ∧ (after (.latchedPairRead (.bar0 (page .mxu 175) 0x1#4)) ready).rd R.FLT_CNT_ASLEEP = 1 := by
  decide +kernel

theorem test_witness_StepRunsFrontCommand : ({ ready with pending := [.sweep] }).pending = [.sweep] ∧ ready.pending = [] := by decide +kernel

theorem test_witness_StepsKeepMemoriesSound : State.reset.memoryWf = true ∧ State.reset.slotsSound = true := by decide +kernel

/-! ## Further witnesses -/

theorem test_witness_ResetIsSound :
    (∀ i < 16, R.SPM_CTRL_AGE_LIMIT.key 175 0 ≠ R.PWR_COEF.key 0 i) ∧ State.reset.rd R.PWR_COEF 0 4 = 9273000 ∧ State.reset.rd R.PWR_COEF 0 15 = 20000 := by
  decide +kernel

theorem test_witness_IdleStepIsOneTick :
    ready.pending = [] ∧ State.reset.pkg = .held ∧ ready.pkg ≠ .held ∧ ready.osc = false ∧ ready.timing.slew = 0 ∧ 0 ≤ ready.timing.slewAcc ∧
    ready.timing.slewAcc < 1000000 := by decide +kernel

theorem test_witness_StepsKeepFuses :
    (match step { ready with pending := [.sysrefLoss] } with | .next t => t.osc && t.pending.isEmpty | _ => false) = true := by decide +kernel

theorem test_witness_FlitsRoundTrip :
    ([2 ^ 58 - 1, 0] : List Nat).length = 2 ∧ (∀ h ∈ ([2 ^ 58 - 1, 0] : List Nat), h < 2 ^ 58) ∧ (dflit 7 0xFFFF).encode.length = 288 ∧
    (dflit 7 0xFFFF).payload.length = 256 := by decide +kernel

theorem test_witness_PortsSend_new :
    (link0 Port.reset).sendsNew 0 ∧ (link0 { Port.reset with tricks := [(flitOf 1).flit] }).sendsNew 0 ∧
    ((link0 { Port.reset with replay := some ⟨0xFFFF, [0], 0⟩, buffer := [⟨0, dflit 1 0, 0⟩] }).port 0).toReplay = [0] ∧
    ((link0 { Port.reset with due := [(1, 0xFFFF)] }).port 0).toReplay = [] ∧
    (link0 Port.reset).beaconEvery ≤ ({ link0 Port.reset with tick := 1000000 }).tick - ((link0 Port.reset).port 0).timeAt := by
  unfold State.sendsNew; decide +kernel

theorem test_witness_ElasticHeadsLeave_forward : ((link0 Port.reset).port 1).hasRoom 1 = true ∧ ((link0 { Port.reset with
    elastic := [el (dflit 1 0) false true false] }).route 1).kind = 2 := by decide +kernel

theorem test_witness_PartnerModeCompares_held :
    (partner0 (pf 1 5) { PartnerSt.reset with held := true }).partner.held = true ∧ (partner0 (pf 1 5) { PartnerSt.reset with held := true }).partner.bad = none ∧
    (partner0 (pf 3 0) PartnerSt.reset).returnsAlone 3 ∧ (partner0 (pf 2 5) { PartnerSt.reset with search := true, mine := [pf 2 4] }).partner.search = true ∧
    (partner0 (pf 2 5) { PartnerSt.reset with search := true, mine := [pf 2 4] }).rd R.XPK_PSTATUS_STATE ≠ 5 := by
  refine ⟨by decide +kernel, by decide +kernel, ?_, by decide +kernel, by decide +kernel⟩
  intro o ho
  have h : SMap.get Group.reset [(3, { Group.reset with serial := 5 })] o = Group.reset := by
    simp [SMap.get, show ¬(3 = o) from fun h => ho h.symm]
  show (SMap.get Group.reset [(3, { Group.reset with serial := 5 })] o).sinceCkpt = []
  rw [h]; rfl

theorem test_witness_AbortsStopAndReturn_codes :
    ({ flitOf 4 with code := 0x0C05 } : TrickFlit).serial ≠ 0 ∧ ({ brought idle0 2 4 with trickIn := [(2, { flitOf 4 with code := 0x0801 })] }).trickAt 2 =
      some { flitOf 4 with code := 0x0801 } ∧ 2 ∈ (tree0 Core.reset true).treePorts 3 ∧ (dealFlit0.group 3).busy = false ∧
    (tree0 (atTrick0 .arrived) false).dealtAt 1 3 = false ∧ ((tree0 (atTrick0 .arrived) false).group 3).busy = true := by decide +kernel

/-- An image that is rejected on a package in a tree. -/
def loadTree : State := (load0 7#8).wr R.TRK_TREE_CHILDREN 2 0 3

theorem test_witness_PlansLoadAndUnload_tree :
    loadTree.allTreePorts = [1] ∧ checked loadTree = some 2 ∧ loadTree.rd R.PLN_IMAGE_STATE = 0 ∧ loadTree.rd R.XPK_LOAD_STATE ≠ 3 := by decide +kernel

theorem test_rejected_load_withdraws :
    ((after .planLoadDone loadTree).port 1).tricks.map (fun f => (TrickFlit.of f.payload).kind) = [4] ∧
    (after .planLoadDone loadTree).rd R.XPK_LOAD_STATE = 3 := by decide +kernel

theorem test_witness_FaultsAreHandled_words :
    3 < (scrub0 .none).unitWords false ∧ 0 < (scrubD.wr R.DDR_CAPACITY_HI 16).unitWords true ∧ ready.dealerUp = true := by decide +kernel

theorem test_witness_DebugAndDeviceMemory_unmask :
    mem0.pcieUp = true ∧ mem0.fnPresent 0 = true ∧ (mem0.wr R.HIF_FUNC_PRESENT 1 0 15).fnPresent 15 = true ∧
    SMap.get true ({ mem0 with msixMask := SMap.set true mem0.msixMask (2048 * 15 + 63) false }).msixMask (2048 * 15 + 63) = false := by decide +kernel

theorem test_witness_AsleepDiesAnswerNothing_tiles : stackOf (ready.bar2 0) = stackOf (ready.bar2 0 + 8192 - 1) ∧ 0 + 8192 ≤ 2 ^ 36 := by decide +kernel

theorem test_witness_LifeCycleAndAttestation_busy :
    (ready.wr R.LCS_STATUS_STATE 1).reachable .lcs 0 ∧ (ready.wr R.LCS_STATUS_STATE 1).rd R.LCS_STATUS_STATE = 1 ∧ idle0.loaded = true ∧
    ({ idle0 with life := { idle0.life with lcs := .field } }).life.lcs = .field ∧ idle0.reachable .lcs 0 ∧
    ({ idle0 with life := { idle0.life with lcs := .provision } }).life.lcs ≠ .field := by unfold State.reachable; decide +kernel

theorem test_witness_PowerIsAccounted_live : ready.linkLive = true ∧ (die0 id).linkLive = true ∧ (region0 .running true).linkLive = true := by decide +kernel

/-! ## Well-formedness -/

/-- R308: R is the time at which the flit's first symbol arrived. -/
theorem test_beacon_arrival :
    (((ready.plain 3 24 { Flit.zero with ty := 6 }).port 3).beacon.map (·.arrived)) = some (16 * (ready.time : Int) - 24) := by decide +kernel

theorem test_wellFormed_engines : (Instr.engineStart 0 0).wellFormed = false ∧ (Instr.instructionComplete 175 0).wellFormed = false := by decide
theorem test_wellFormed_page : (Instr.streamPageFetch 0 0).wellFormed = false ∧ (Instr.streamPageFetch 0 (2 ^ 18)).wellFormed = false := by decide
theorem test_wellFormed_pick : (Instr.deal [8192] 0 0).wellFormed = false ∧ (Instr.deal [5, 5] 0 0).wellFormed = false := by decide
theorem test_wellFormed_flit : (Instr.flitReceive 0 [[0, 4]] 0).wellFormed = false ∧ (Instr.flitReceive 0 [[3], [0]] 0).wellFormed = true := by decide
theorem test_wellFormed_power :
    (Instr.powerTick ⟨[(25, 40)]⟩).wellFormed = false ∧ (Instr.powerMeasure (List.replicate 9 none)).wellFormed = false := by decide
theorem test_wellFormed_log :
    (Instr.requestLogWrite 0 0 []).wellFormed = false ∧ (Instr.requestLogWrite 0 0x10040 [0#8]).wellFormed = false ∧
    (Instr.requestLogWrite 0 0 (List.replicate 513 0#8)).wellFormed = false := by decide +kernel
theorem test_wellFormed_scrub :
    (Instr.scrubPass true 8 0 .clean).wellFormed = false ∧ (Instr.scrubPass false 16 0 .clean).wellFormed = false ∧
    (Instr.scrubPass false 0 (2 ^ 33) .clean).wellFormed = false := by decide +kernel
theorem test_wellFormed_cores :
    (Instr.bistDone 0 true [11]).wellFormed = false ∧ (Instr.bistDone 0 true [3, 3]).wellFormed = false ∧
    (Instr.anchorSelftestDone 0 [11]).wellFormed = false ∧ (Instr.anchorSelftestDone 0 [0, 0]).wellFormed = false := by decide
theorem test_wellFormed_dimms : (Instr.ddrTrainingDone (List.replicate 9 ⟨true, true, false, 64, 2, 6400⟩)).wellFormed = false := by decide
theorem test_wellFormed_bar2 :
    (Instr.bar2Write 0 0 []).wellFormed = false ∧ (Instr.bar2Write 0 0xFFF [0#8, 0#8]).wellFormed = false ∧
    (Instr.bar2Write 0 (2 ^ 36) [0#8]).wellFormed = false ∧ (Instr.bar2Read 0 0 0).wellFormed = false ∧
    (Instr.bar2Read 0 0xFFF 2).wellFormed = false ∧ (Instr.bar2Read 0 (2 ^ 36) 1).wellFormed = false := by decide +kernel
theorem test_wellFormed_bar0 :
    (Instr.registerWrite (.bar0 (2 ^ 28) 0xF#4) 0).wellFormed = false ∧ (Instr.latchedPairRead (.bar0 (2 ^ 28) 0xF#4)).wellFormed = false ∧
    (Instr.latchedPairRead (.bar0 2 0xF#4)).wellFormed = false ∧ (Instr.registerWrite (.bar4 1 (2 ^ 20)) 0).wellFormed = false ∧
    (Instr.latchedPairRead (.bar4 0 2)).wellFormed = false ∧ (Instr.evtForce (2 ^ 28) 0).wellFormed = false ∧ (Instr.evtForce 4 0).wellFormed = false ∧
    (Instr.evtEnableWrite (2 ^ 28) 0).wellFormed = false ∧ (Instr.evtEnableWrite 4 0).wellFormed = false ∧
    (Instr.pageCtrlWrite (2 ^ 28) 0).wellFormed = false ∧ (Instr.pageCtrlWrite 4 0).wellFormed = false := by decide +kernel
theorem test_wellFormed_word : (Instr.spmDbgWrite 0 (2 ^ 32)).wellFormed = false := by decide +kernel
theorem test_wellFormed_vector : (Instr.msixUnmask 1 (some 64)).wellFormed = false ∧ (Instr.msixUnmask 0 (some 2047)).wellFormed = true := by
  decide +kernel
theorem test_wellFormed_link :
    (Instr.pcieLinkUp 0 16 true []).wellFormed = false ∧ (Instr.pcieLinkUp 7 16 true []).wellFormed = false ∧
    (Instr.pcieLinkUp 6 3 true []).wellFormed = false ∧
    (Instr.pcieLinkUp 6 16 true (List.replicate 17 ⟨0, true, true, true, true, false⟩)).wellFormed = false := by decide +kernel
theorem test_wellFormed_part : (Instr.retire 176).wellFormed = false := by decide
theorem test_wellFormed_some : (Instr.engineStart 0 8).wellFormed = true ∧ (Instr.bar2Read 0 0xFFF 1).wellFormed = true ∧ (Instr.retire 175).wellFormed = true := by
  decide +kernel

end Sys2Proof.Tests
end

-- ==== Registers and maps: what is kept ====
section
/-! PROOFS. Laws of register fields: which fields an update keeps, states that differ in register fields alone, maps changed entry by entry, and the
stages of bring-up. -/

namespace Sys2Proof.Machine

/-! ## Register fields kept -/

theorem FieldsKept.refl (s : State) (ks : List Nat) : FieldsKept s s ks := fun _ _ _ _ => rfl

theorem FieldsKept.trans {s t u : State} {ks : List Nat} (h : FieldsKept s t ks) (h' : FieldsKept t u ks) : FieldsKept s u ks :=
  fun f i k hk => (h' f i k hk).trans (h f i k hk)

theorem FieldsKept.mono {s t : State} {ks ks' : List Nat} (h : FieldsKept s t ks) (hs : ks ⊆ ks') : FieldsKept s t ks' :=
  fun f i k hk => h f i k (fun hm => hk (hs hm))

/-- A read depends on the register fields alone. -/
theorem State.rd_of_regs {s t : State} (h : t.regs = s.regs) (f : Fld) (i k : Nat) : t.rd f i k = s.rd f i k := by
  unfold State.rd; rw [h]

theorem FieldsKept.of_regs {s t u : State} {ks : List Nat} (h : FieldsKept s t ks) (hr : u.regs = t.regs) : FieldsKept s u ks :=
  fun f i k hk => (State.rd_of_regs hr f i k).trans (h f i k hk)

theorem FieldsKept.wr {s t : State} {ks : List Nat} (h : FieldsKept s t ks) {f : Fld} {i k : Nat} (v : Nat) (hf : f.key i k ∈ ks) :
    FieldsKept s (t.wr f v i k) ks :=
  fun g j m hk => (State.rd_wr_ne t f g v i k j m (fun e => hk (e ▸ hf))).trans (h g j m hk)

theorem FieldsKept.bumpBy {s t : State} {ks : List Nat} (h : FieldsKept s t ks) {f : Fld} {i k : Nat} (n : Nat) (hf : f.key i k ∈ ks) :
    FieldsKept s (t.bumpBy f n i k) ks := h.wr _ hf

theorem FieldsKept.bump {s t : State} {ks : List Nat} (h : FieldsKept s t ks) {f : Fld} {i k : Nat} (hf : f.key i k ∈ ks) :
    FieldsKept s (t.bump f i k) ks := h.wr _ hf

/-! ## Maps changed entry by entry -/

theorem SMap.get_map {α : Type} (d : α) (g : α → α) (hd : g d = d) (m : SMap α) (k : Nat) :
    SMap.get d (m.map (fun e => (e.1, g e.2))) k = g (SMap.get d m k) := by
  induction m with
  | nil => exact hd.symm
  | cons e m ih =>
    simp only [List.map_cons, SMap.get, ih]
    split_ifs <;> rfl

/-- A read of a map from which single keys have been cleared. -/
theorem SMap.get_clearKeys {α : Type} (d : α) (ks : List Nat) (k : Nat) (hk : k ∉ ks) : ∀ m : SMap α,
    SMap.get d (ks.foldl (fun m k => SMap.clear m k (k + 1)) m) k = SMap.get d m k := by
  induction ks with
  | nil => intro m; rfl
  | cons a ks ih =>
    intro m
    have hne : k ≠ a := fun h => hk (by simp [h])
    rw [List.foldl_cons, ih (fun h => hk (by simp [h])), SMap.get_clear, if_neg (by omega)]

/-! ## Bring-up stages -/

/-- The fields that bring-up's stages set are those of the stages. -/
theorem State.stage_kept {s t : State} {ks : List Nat} (h : FieldsKept s t ks) {f : Fld} (c : Bool) (hf : f.key 0 0 ∈ ks) :
    FieldsKept s (t.stage f c) ks := by
  unfold State.stage
  split_ifs
  · exact h.wr _ hf
  · exact h

theorem State.stages_kept (s : State) : FieldsKept s s.stages bringupKeys := by
  unfold State.stages
  refine FieldsKept.wr (FieldsKept.wr ?_ _ (by decide)) _ (by decide)
  iterate 6 refine State.stage_kept ?_ _ (by decide)
  exact FieldsKept.refl s _

/-! ## States that differ in register fields alone -/

/-- `t` is `s` but for register fields. -/
def State.onlyRegs (s t : State) : Prop := t = { s with regs := t.regs }

theorem State.onlyRegs.refl (s : State) : s.onlyRegs s := rfl

theorem State.onlyRegs.trans {s t u : State} (h : s.onlyRegs t) (h' : t.onlyRegs u) : s.onlyRegs u := by
  unfold State.onlyRegs at *
  rw [h', h]

theorem State.onlyRegs.wr {s t : State} (h : s.onlyRegs t) (f : Fld) (v i k : Nat) : s.onlyRegs (t.wr f v i k) :=
  h.trans rfl

theorem State.onlyRegs.stage {s t : State} (h : s.onlyRegs t) (f : Fld) (c : Bool) : s.onlyRegs (t.stage f c) := by
  unfold State.stage
  split_ifs
  · exact h.wr _ _ _ _
  · exact h

theorem State.stages_onlyRegs (s : State) : s.onlyRegs s.stages := by
  unfold State.stages
  refine State.onlyRegs.wr (State.onlyRegs.wr ?_ _ _ _ _) _ _ _ _
  iterate 6 refine State.onlyRegs.stage ?_ _ _
  exact State.onlyRegs.refl s

end Sys2Proof.Machine
end

-- ==== Package reset ====
section
/-! PROOFS. Every field, byte and seal after a package reset (O3). -/

namespace Sys2Proof.Machine

/-- The register fields that a package reset lists are those of PWR_COEF, each with its default (R421). -/
theorem coefFields_eq : coefFields = (List.range 16).map (fun i => (R.PWR_COEF.key 0 i, coefDefault i)) := by decide +kernel

/-- After a package reset every other field reads its Reset value (R7). -/
theorem reset_rd (f : Fld) (inst idx : Nat) (h : ∀ i < 16, f.key inst idx ≠ R.PWR_COEF.key 0 i) :
    State.reset.rd f inst idx = f.reset := by
  refine SMap.get_of_notin _ _ _ fun e he => ?_
  change e ∈ coefFields at he
  rw [coefFields_eq] at he
  obtain ⟨i, hi, rfl⟩ := List.mem_map.1 he
  exact (h i (List.mem_range.1 hi)).symm

/-- PWR_COEF holds the defaults of R421 after a package reset. -/
theorem reset_rd_coef : ∀ i < 16, State.reset.rd R.PWR_COEF 0 i = coefDefault i := by decide +kernel

/-- Settles O3: no register but PWR_COEF is listed after a package reset, no byte and no seal is. -/
theorem resetIsSound : Obligations.ResetIsSound := by
  unfold Obligations.ResetIsSound
  exact ⟨reset_rd, reset_rd_coef, fun _ _ => ⟨rfl, rfl⟩, fun _ => ⟨rfl, rfl⟩, rfl, rfl, rfl, rfl, by decide +kernel, by decide +kernel⟩

end Sys2Proof.Machine
end

-- ==== Resets and release ====
section
/-! PROOFS. The package reset, stage 1 at its release, and the hub-only reset (O51). -/

namespace Sys2Proof.Machine

/-! ## Package reset (R505, R506) -/

/-- The keys of HUB_RESET_CAUSE, the only register that a package reset does not put to its reset value. -/
def resetCauseKeys : List Nat :=
  [R.HUB_RESET_CAUSE_CAUSE.key 0 0, R.HUB_RESET_CAUSE_SAVED.key 0 0, R.HUB_RESET_CAUSE_TRIPPED.key 0 0]

theorem ofBool_mod_two (b : Bool) : ofBool b % 2 ^ 1 = ofBool b := by cases b <;> rfl

theorem State.resetNow_kept (s : State) (perst : Bool) : FieldsKept State.reset (s.resetNow perst) resetCauseKeys := by
  unfold State.resetNow
  refine FieldsKept.wr (FieldsKept.wr (FieldsKept.wr ?_ _ ?_) _ ?_) _ ?_
  · exact (FieldsKept.refl State.reset _).of_regs rfl
  all_goals decide

/-- What HUB_RESET_CAUSE holds after a package reset (R535). -/
theorem State.resetNow_cause (s : State) (perst : Bool) :
    (s.resetNow perst).rd R.HUB_RESET_CAUSE_CAUSE = ofBool perst ∧
    (s.resetNow perst).rd R.HUB_RESET_CAUSE_SAVED = ofBool (s.pkg == .sagged && s.on R.HUB_POWER_EVENT_SAVE_DONE) ∧
    (s.resetNow perst).rd R.HUB_RESET_CAUSE_TRIPPED = s.rd R.PWR_STATUS_TRIPPED % 2 := by
  unfold State.resetNow
  simp (disch := decide) only [State.rd_wr_ne, State.rd_wr_same]
  refine ⟨?_, ofBool_mod_two _, rfl⟩
  cases perst <;> rfl

/-- MRAM is cut short by a power-on reset alone, and only during an operation (R506, R520). -/
theorem State.resetNow_mram (s : State) (perst : Bool) (h : s.life.nvmNow = none ∨ perst = true) : (s.resetNow perst).mram = s.mram := by
  change (if perst then s else s.cutShort).mram = s.mram
  rcases h with h | rfl
  · split
    · rfl
    · simp [State.cutShort, h]
  · rfl

/-! ## Writes of a list of fields -/

/-- The fields of a list set to values of their own, each named by field, page and index. -/
def State.wrAll (s : State) (v : Fld × Nat × Nat → Nat) (l : List (Fld × Nat × Nat)) : State :=
  l.foldl (fun s x => s.wr x.1 (v x) x.2.1 x.2.2) s

/-- The keys of fields named by field, page and index. -/
def keysOf (l : List (Fld × Nat × Nat)) : List Nat := l.map (fun x => x.1.key x.2.1 x.2.2)

theorem State.wrAll_onlyRegs (v : Fld × Nat × Nat → Nat) (l : List (Fld × Nat × Nat)) : ∀ s : State, s.onlyRegs (s.wrAll v l) := by
  induction l with
  | nil => exact State.onlyRegs.refl
  | cons x l ih => exact fun s => ((State.onlyRegs.refl s).wr _ _ _ _).trans (ih _)

theorem State.wrAll_kept (v : Fld × Nat × Nat → Nat) (l : List (Fld × Nat × Nat)) :
    ∀ s : State, FieldsKept s (s.wrAll v l) (keysOf l) := by
  induction l with
  | nil => exact fun s => FieldsKept.refl s _
  | cons x l ih =>
    intro s
    refine FieldsKept.trans ((FieldsKept.refl s _).wr (v x) (List.mem_cons_self ..)) ((ih _).mono ?_)
    exact List.subset_cons_self _ _

/-- Fields of distinct keys hold the values given. -/
theorem State.rd_wrAll (v : Fld × Nat × Nat → Nat) (l : List (Fld × Nat × Nat)) (hl : (keysOf l).Nodup) :
    ∀ (s : State), ∀ x ∈ l, (s.wrAll v l).rd x.1 x.2.1 x.2.2 = v x % 2 ^ x.1.width := by
  induction l with
  | nil => intro s x hx; simp at hx
  | cons y l ih =>
    obtain ⟨hy, hl⟩ := List.nodup_cons.1 hl
    intro s x hx
    rcases List.mem_cons.1 hx with rfl | hx
    · exact (State.wrAll_kept v l _ _ _ _ hy).trans (State.rd_wr_same _ _ _ _ _)
    · exact ih hl _ x hx

/-! ## Stage 1 (R508, R519) -/

/-- The value that stage 1 gives an NV field: the stored one, or its Reset value (R7, R519). -/
def nvValue (b : Option Bank) (x : Fld × Nat × Nat) : Nat :=
  match b with
  | some b => SMap.get 0 b.data (x.1.key x.2.1 x.2.2)
  | none => nvReset x.1 x.2.2

theorem State.loadFields_eq (s : State) (n : Nat) : s.loadFields n = s.wrAll (nvValue (s.sect n).value) (nvFields n) := rfl

theorem State.sect_setSect (s : State) (n m : Nat) (x : Section) : (s.setSect n x).sect m = if m = n then x else s.sect m :=
  SMap.get_set _ _ _ _ _

/-- One section sensed (R519). -/
def State.senseOne (s : State) (n : Nat) : State :=
  if n = 0 then s
  else
    let x := (s.sect n).sense n
    let s1 := s.setSect n x
    if x.failed then s1.bump R.NVM_CNT_DIGEST_FAIL else s1

theorem State.senseAll_eq (s : State) : s.senseAll = (List.range 10).foldl State.senseOne s := rfl

theorem State.senseOne_frame (s : State) (n : Nat) :
    s.senseOne n = { s with mram := (s.senseOne n).mram, regs := (s.senseOne n).regs } := by
  unfold State.senseOne
  dsimp only
  split_ifs <;> rfl

theorem State.sect_senseOne (s : State) (n m : Nat) :
    (s.senseOne n).sect m = if m = n ∧ m ≠ 0 then (s.sect m).sense m else s.sect m := by
  have hm : (s.senseOne n).sect m = if n = 0 then s.sect m else (s.setSect n ((s.sect n).sense n)).sect m := by
    unfold State.senseOne
    dsimp only
    split_ifs <;> rfl
  rw [hm, State.sect_setSect]
  by_cases h : m = n
  · subst h; by_cases h0 : m = 0 <;> simp [h0]
  · simp [h]

theorem State.senseMany_frame (l : List Nat) : ∀ s : State,
    l.foldl State.senseOne s = { s with mram := (l.foldl State.senseOne s).mram, regs := (l.foldl State.senseOne s).regs } := by
  induction l with
  | nil => exact fun s => rfl
  | cons n l ih =>
    intro s
    rw [List.foldl_cons]
    generalize hu : s.senseOne n = u
    have h := s.senseOne_frame n
    rw [hu] at h
    have h' := ih u
    generalize l.foldl State.senseOne u = v at h' ⊢
    rw [h', h]

/-- Each section of a list without repetitions is sensed once. -/
theorem State.sect_senseMany (m : Nat) (l : List Nat) (hl : l.Nodup) : ∀ s : State,
    (l.foldl State.senseOne s).sect m = if m ∈ l ∧ m ≠ 0 then (s.sect m).sense m else s.sect m := by
  induction l with
  | nil => intro s; simp
  | cons n l ih =>
    obtain ⟨hn, hl⟩ := List.nodup_cons.1 hl
    intro s
    rw [List.foldl_cons, ih hl, State.sect_senseOne]
    by_cases h : m = n
    · subst h; simp [hn]
    · simp [h]

/-- The NV fields of several sections taken one section after another. -/
theorem State.loadMany_kept (ns : List Nat) : ∀ s : State,
    s.onlyRegs (ns.foldl State.loadFields s) ∧ FieldsKept s (ns.foldl State.loadFields s) (keysOf (ns.flatMap nvFields)) := by
  induction ns with
  | nil => exact fun s => ⟨State.onlyRegs.refl s, FieldsKept.refl s _⟩
  | cons n ns ih =>
    intro s
    obtain ⟨h1, h2⟩ := ih (s.loadFields n)
    have hk : keysOf ((n :: ns).flatMap nvFields) = keysOf (nvFields n) ++ keysOf (ns.flatMap nvFields) := by simp [keysOf]
    rw [List.foldl_cons, hk]
    exact ⟨(State.wrAll_onlyRegs _ _ s).trans h1,
      ((State.wrAll_kept _ _ s).mono (List.subset_append_left _ _)).trans (h2.mono (List.subset_append_right _ _))⟩

theorem State.sect_of_onlyRegs {s t : State} (h : s.onlyRegs t) (n : Nat) : t.sect n = s.sect n := by
  unfold State.sect
  rw [h]

theorem State.rd_loadMany (ns : List Nat) (hn : (keysOf (ns.flatMap nvFields)).Nodup) : ∀ s : State, ∀ n ∈ ns, ∀ x ∈ nvFields n,
    (ns.foldl State.loadFields s).rd x.1 x.2.1 x.2.2 = nvValue (s.sect n).value x % 2 ^ x.1.width := by
  induction ns with
  | nil => intro s n hm; simp at hm
  | cons m ns ih =>
    have hk : keysOf ((m :: ns).flatMap nvFields) = keysOf (nvFields m) ++ keysOf (ns.flatMap nvFields) := by simp [keysOf]
    rw [hk] at hn
    obtain ⟨h1, h2, hd⟩ := List.nodup_append.1 hn
    intro s n hm x hx
    rw [List.foldl_cons]
    by_cases hl : n ∈ ns
    · rw [ih h2 _ n hl x hx, State.sect_of_onlyRegs (State.loadFields_eq s m ▸ State.wrAll_onlyRegs _ _ s)]
    · obtain rfl : n = m := (List.mem_cons.1 hm).resolve_right hl
      have hx' : x.1.key x.2.1 x.2.2 ∈ keysOf (nvFields n) := List.mem_map_of_mem (f := fun x => x.1.key x.2.1 x.2.2) hx
      rw [(State.loadMany_kept ns _).2 _ _ _ (fun h => hd _ hx' _ h rfl)]
      exact State.rd_wrAll _ _ h1 s x hx

/-- The sections whose NV fields stage 1 takes: LINK, ENERGY and OWNER (R518). -/
def nvSections : List Nat := [2, 3, 6]

theorem nvKeys_nodup : (keysOf (nvSections.flatMap nvFields)).Nodup := by decide +kernel

/-- The fields that stage 1 sets after the NV fields: the count of the journal and the time of the last save. -/
def recordKeys : List Nat := [R.FLT_JRN_COUNT.key 0 0, R.HUB_LAST_TIME_LO.key 0 0, R.HUB_LAST_TIME_HI.key 0 0]

theorem nvKeys_apart : ∀ k ∈ keysOf (nvSections.flatMap nvFields), k ∉ recordKeys := by decide +kernel

/-- What the rest of stage 1 keeps of the state: condition, reference, fuses, the subsystem identifiers and every field but those of the
stored records. -/
def State.recordsTaken (s t : State) : Prop :=
  t.pkg = s.pkg ∧ t.osc = s.osc ∧ t.fuses = s.fuses ∧ t.subsys = s.subsys ∧ FieldsKept s t recordKeys

theorem State.recordsTaken.trans {s t u : State} (h : s.recordsTaken t) (h' : t.recordsTaken u) : s.recordsTaken u := by
  obtain ⟨a, b, c, d, e⟩ := h
  obtain ⟨a', b', c', d', e'⟩ := h'
  exact ⟨a'.trans a, b'.trans b, c'.trans c, d'.trans d, e.trans e'⟩

theorem State.recordsTaken.of_regs {s t : State} (ha : t.pkg = s.pkg) (hb : t.osc = s.osc) (hc : t.fuses = s.fuses)
    (hd : t.subsys = s.subsys) (hr : t.regs = s.regs) : s.recordsTaken t :=
  ⟨ha, hb, hc, hd, (FieldsKept.refl s _).of_regs hr⟩

theorem State.loadSeeds_taken (s : State) : s.recordsTaken s.loadSeeds := by
  unfold State.loadSeeds
  exact .of_regs rfl rfl rfl rfl rfl

theorem State.latchMaps_taken (s : State) : s.recordsTaken s.latchMaps := by
  unfold State.latchMaps
  exact .of_regs rfl rfl rfl rfl rfl

theorem State.newNonce_taken (s : State) : s.recordsTaken s.newNonce := .of_regs rfl rfl rfl rfl rfl

theorem State.loadMaps_taken (s : State) : s.recordsTaken s.loadMaps := by
  unfold State.loadMaps
  split <;> exact .of_regs rfl rfl rfl rfl rfl

theorem State.loadRecords_taken (s : State) : s.recordsTaken s.loadRecords := by
  have hj (t : State) (v : Nat) : t.recordsTaken (t.wr R.FLT_JRN_COUNT v) :=
    ⟨rfl, rfl, rfl, rfl, (FieldsKept.refl t _).wr v (by decide)⟩
  unfold State.loadRecords
  dsimp only
  split
  · refine State.recordsTaken.trans ?_ (hj _ _)
    split <;> exact .of_regs rfl rfl rfl rfl rfl
  · split <;> exact .of_regs rfl rfl rfl rfl rfl

theorem State.loadSave_taken (s : State) : s.recordsTaken s.loadSave :=
  ⟨rfl, rfl, rfl, rfl, (((FieldsKept.refl s _).wr _ (by decide)).wr (f := R.HUB_LAST_TIME_HI) (i := 0) (k := 0) _ (by decide)).of_regs rfl⟩

/-- Asking for an MRAM operation changes the queue of operations only. -/
theorem State.nvmAsk_frame (s : State) (o : NvmOp) : s.nvmAsk o = { s with life := (s.nvmAsk o).life } := by
  unfold State.nvmAsk State.nvmNext
  dsimp only
  split
  · rfl
  · split_ifs <;> rfl

theorem State.loadIdentity_taken (s : State) : s.recordsTaken s.loadIdentity := by
  unfold State.loadIdentity
  split
  · exact .of_regs rfl rfl rfl rfl rfl
  · split_ifs
    · rw [State.nvmAsk_frame]
      exact .of_regs rfl rfl rfl rfl rfl
    · exact .of_regs rfl rfl rfl rfl rfl

/-- The state of a package just released once its sections are sensed and its NV fields taken. -/
def State.fieldsTaken (s : State) : State := nvSections.foldl State.loadFields ({ s with pkg := .running }).senseAll

theorem State.fieldsTaken_frame (s : State) :
    s.fieldsTaken.pkg = .running ∧ s.fieldsTaken.osc = s.osc ∧ s.fieldsTaken.fuses = s.fuses := by
  have h := (State.loadMany_kept nvSections ({ s with pkg := .running }).senseAll).1
  have h' := State.senseMany_frame (List.range 10) { s with pkg := .running }
  rw [← State.senseAll_eq] at h'
  unfold State.fieldsTaken
  unfold State.onlyRegs at h
  rw [h, h']
  exact ⟨rfl, rfl, rfl⟩

/-- NV fields hold their stored values, or their Reset values (R519). -/
theorem State.rd_fieldsTaken (s : State) : ∀ n ∈ nvSections, ∀ x ∈ nvFields n,
    s.fieldsTaken.rd x.1 x.2.1 x.2.2 = nvValue ((s.sect n).sense n).value x % 2 ^ x.1.width := by
  intro n hn x hx
  have hr : ∀ n ∈ nvSections, n ∈ List.range 10 ∧ n ≠ 0 := by decide
  have hs : (({ s with pkg := .running } : State).senseAll).sect n = (s.sect n).sense n := by
    rw [State.senseAll_eq, State.sect_senseMany n _ List.nodup_range, if_pos (hr n hn)]
    rfl
  rw [← hs]
  exact State.rd_loadMany nvSections nvKeys_nodup _ n hn x hx

/-- The state after stage 1, from the one with its NV fields taken. -/
def State.stageOne (s : State) : State :=
  ({ s with subsys := s.rd R.HIF_SUBSYS_SVID + 2 ^ 16 * s.rd R.HIF_SUBSYS_SSID }
    |>.loadSeeds.loadMaps.latchMaps.loadRecords.loadSave.loadIdentity).newNonce

theorem execResetRelease_held {s : State} (h : s.pkg = .held) (ho : s.osc = false) :
    execResetRelease s = .next s.fieldsTaken.stageOne := by
  unfold execResetRelease
  rw [if_neg (by simp [h, ho])]
  rfl

theorem State.stageOne_taken (s : State) :
    State.recordsTaken { s with subsys := s.rd R.HIF_SUBSYS_SVID + 2 ^ 16 * s.rd R.HIF_SUBSYS_SSID } s.stageOne := by
  unfold State.stageOne
  refine State.recordsTaken.trans ?_ (State.newNonce_taken _)
  refine State.recordsTaken.trans ?_ (State.loadIdentity_taken _)
  refine State.recordsTaken.trans ?_ (State.loadSave_taken _)
  refine State.recordsTaken.trans ?_ (State.loadRecords_taken _)
  refine State.recordsTaken.trans ?_ (State.latchMaps_taken _)
  exact (State.loadSeeds_taken _).trans (State.loadMaps_taken _)

/-! ## Journal, MRAM and messages -/

/-- An entry put into the ring changes register fields and the records of faults only. -/
theorem State.jrnPut_frame (s : State) (e : JrnEntry) :
    s.jrnPut e = { s with regs := (s.jrnPut e).regs, flt := (s.jrnPut e).flt } := by
  unfold State.jrnPut
  dsimp only
  split_ifs <;> rfl

theorem State.jrnPut_kept (s : State) (e : JrnEntry) : FieldsKept s (s.jrnPut e) [R.FLT_JRN_COUNT.key 0 0, R.FLT_CNT_FAULT.key 0 0] := by
  have h (u : State) (v : Nat) (hu : u.regs = (s.wr R.FLT_JRN_COUNT v).regs) :
      FieldsKept s u [R.FLT_JRN_COUNT.key 0 0, R.FLT_CNT_FAULT.key 0 0] :=
    ((FieldsKept.refl s _).wr v (by decide)).of_regs hu
  unfold State.jrnPut
  dsimp only
  split_ifs
  · exact (h _ _ rfl).bump (by decide)
  · exact h _ _ rfl

theorem State.jrnPut_flt (s : State) (e : JrnEntry) :
    (s.jrnPut e).flt = { s.flt with jrn := SMap.set JrnEntry.zero s.flt.jrn (s.rd R.FLT_JRN_COUNT % 4096) e,
                                    dirtyAt := some (s.flt.dirtyAt.getD s.tick) } := by
  unfold State.jrnPut
  dsimp only
  split_ifs <;> rfl

/-- A store of the supervisor changes MRAM, its queue and its count. -/
theorem State.nvmSuper_frame (s : State) (n : Nat) (d : SMap Nat) :
    s.nvmSuper n d = { s with mram := (s.nvmSuper n d).mram, regs := (s.nvmSuper n d).regs, life := (s.nvmSuper n d).life } := by
  unfold State.nvmSuper
  split_ifs <;> rfl

theorem State.nvmSuper_kept (s : State) (n : Nat) (d : SMap Nat) : FieldsKept s (s.nvmSuper n d) [R.NVM_CNT_STORE.key 0 0] := by
  unfold State.nvmSuper
  split_ifs
  · exact ((FieldsKept.refl s _).of_regs rfl).bump (by decide)
  · exact (FieldsKept.refl s _).of_regs rfl

theorem State.msix_kept (s : State) (fn n : Nat) : FieldsKept s (s.msix fn n) [R.HIF_CNT_BAD_VECTOR.key 0 0] :=
  fun f i k hk => s.msix_rd fn n f i k (fun h => hk (by simp [h]))

/-! ## A stopped dealer (R467) -/

/-- The fields that a dealer changes as it stops. -/
def stopKeys : List Nat :=
  [R.FLT_JRN_COUNT.key 0 0, R.FLT_CNT_FAULT.key 0 0, R.AON_DOWN_TIME_LO.key 0 0, R.AON_DOWN_TIME_HI.key 0 0, R.NVM_CNT_STORE.key 0 0,
   R.HIF_CNT_BAD_VECTOR.key 0 0]

/-- The parts of the state that neither a stopping dealer nor a hub-only reset touches. -/
def State.hardwareKept (s t : State) : Prop :=
  t.hbm = s.hbm ∧ t.ddr = s.ddr ∧ t.ports = s.ports ∧ t.fuses = s.fuses

/-- The parts of the state that a stopping dealer leaves to the reset. -/
def State.dealtKept (s t : State) : Prop :=
  t.cores = s.cores ∧ t.wslots = s.wslots ∧ t.seats = s.seats

theorem State.dealerStop_frame (s : State) :
    s.hardwareKept s.dealerStop ∧ s.dealtKept s.dealerStop ∧ s.dealerStop.flt = { s.flt with dirtyAt := none } ∧
    FieldsKept s s.dealerStop stopKeys := by
  unfold State.dealerStop
  dsimp only
  have hk (u : State) (n : Nat) (d : SMap Nat) (h : FieldsKept s u stopKeys) : FieldsKept s (u.nvmSuper n d) stopKeys :=
    h.trans ((u.nvmSuper_kept n d).mono (by decide))
  generalize hu : State.wrPair _ R.AON_DOWN_TIME_LO R.AON_DOWN_TIME_HI _ = u
  have hc : FieldsKept s u stopKeys := by
    rw [← hu]
    exact (((FieldsKept.refl s _).of_regs rfl).wr _ (by decide)).wr _ (by decide)
  have hf := u.nvmSuper_frame 5 (u.capture 5)
  have hk' := hk u 5 (u.capture 5) hc
  have h0 : s.hardwareKept u ∧ s.dealtKept u ∧ u.flt = s.flt := by rw [← hu]; exact ⟨⟨rfl, rfl, rfl, rfl⟩, ⟨rfl, rfl, rfl⟩, rfl⟩
  obtain ⟨hh, hd, hflt⟩ := h0
  clear hu
  generalize u.nvmSuper 5 (u.capture 5) = v at hf hk' ⊢
  refine ⟨?_, ?_, by rw [hflt], hk'.of_regs rfl⟩
  · rw [hf]; exact hh
  · rw [hf]; exact hd

/-- A message leaves everything but register fields, pending messages and the outbox. -/
theorem State.downMessage_frame (s : State) :
    s.hardwareKept s.downMessage ∧ s.dealtKept s.downMessage ∧ s.downMessage.flt = s.flt ∧ FieldsKept s s.downMessage stopKeys := by
  unfold State.downMessage
  split_ifs
  · have hf := s.msix_frame 0 (s.rd R.AON_CFG_VECTOR)
    have hk := (s.msix_kept 0 (s.rd R.AON_CFG_VECTOR)).mono (show _ ⊆ stopKeys by decide)
    generalize s.msix 0 (s.rd R.AON_CFG_VECTOR) = u at hf hk ⊢
    refine ⟨?_, ?_, ?_, hk⟩ <;> rw [hf]
    · exact ⟨rfl, rfl, rfl, rfl⟩
    · exact ⟨rfl, rfl, rfl⟩
  · exact ⟨⟨rfl, rfl, rfl, rfl⟩, ⟨rfl, rfl, rfl⟩, rfl, FieldsKept.refl s _⟩

/-! ## Hub-only reset (R468, R469) -/

/-- What the supervisor does before a hub-only reset: from the normal state it stops the dealer, with its journal entry (R468). -/
def State.supervised (s : State) : State :=
  if s.pkg = .running then ((s.jrnPut (JrnEntry.blank s 0 6)).dealerStop).downMessage else s

theorem State.supervised_frame (s : State) :
    s.hardwareKept s.supervised ∧ s.dealtKept s.supervised ∧ FieldsKept s s.supervised stopKeys ∧
    (s.pkg = .running → (SMap.get JrnEntry.zero s.supervised.flt.jrn (s.rd R.FLT_JRN_COUNT % 4096)).kind = 6) := by
  unfold State.supervised
  split_ifs with h
  · have hf := s.jrnPut_frame (JrnEntry.blank s 0 6)
    have hj := s.jrnPut_flt (JrnEntry.blank s 0 6)
    have hk := (s.jrnPut_kept (JrnEntry.blank s 0 6)).mono (show _ ⊆ stopKeys by decide)
    generalize s.jrnPut (JrnEntry.blank s 0 6) = u at hf hj hk ⊢
    obtain ⟨hh, hd, hflt, hs⟩ := u.dealerStop_frame
    generalize u.dealerStop = v at hh hd hflt hs ⊢
    obtain ⟨hh', hd', hflt', hs'⟩ := v.downMessage_frame
    obtain ⟨a, b, c, d⟩ := hh
    obtain ⟨e, f, g⟩ := hd
    obtain ⟨a', b', c', d'⟩ := hh'
    obtain ⟨e', f', g'⟩ := hd'
    refine ⟨⟨?_, ?_, ?_, ?_⟩, ⟨?_, ?_, ?_⟩, (hk.trans hs).trans hs', fun _ => ?_⟩
    · rw [a', a, hf]
    · rw [b', b, hf]
    · rw [c', c, hf]
    · rw [d', d, hf]
    · rw [e', e, hf]
    · rw [f', f, hf]
    · rw [g', g, hf]
    · rw [hflt', hflt, hj]
      simp [JrnEntry.blank]
  · exact ⟨⟨rfl, rfl, rfl, rfl⟩, ⟨rfl, rfl, rfl⟩, FieldsKept.refl s _, fun h' => absurd h' h⟩

theorem State.discard_regs (s : State) : s.discard.regs = hubKeys.foldl (fun m k => SMap.clear m k (k + 1)) s.regs := by
  simp only [State.discard]

theorem State.discard_kept (s : State) : FieldsKept s s.discard hubKeys := by
  intro f i k hk
  unfold State.rd
  rw [State.discard_regs]
  generalize hubKeys = ks at hk ⊢
  exact SMap.get_clearKeys f.reset ks _ hk s.regs

/-- A weight slot after a hub-only reset: a RETIRING one is FREE, with epoch 0 (R469). -/
def WSlot.settled (x : WSlot) : WSlot := if x.st = .retiring then { x with st := .free, epoch := 0 } else x

/-- A delta seat after a hub-only reset: a RETIRED one is FREE (R469). -/
def Seat.settled (x : Seat) : Seat := if x.st = .retired then { x with st := .free } else x

/-- What a hub-only reset discards, and what it leaves of memories, ports and records (R468, R469). -/
def State.discardedFrom (s t : State) : Prop :=
  (t.pkg = s.pkg ∧ t.image = none ∧ t.groups = [] ∧ t.reqs = [] ∧ t.wcmd = none) ∧ s.hardwareKept t ∧ t.flt.jrn = s.flt.jrn ∧
  t.cores = s.cores.map (fun e => (e.1, e.2.undealt)) ∧ t.wslots = s.wslots.map WSlot.settled ∧
  t.seats = s.seats.map (fun e => (e.1, e.2.settled))

theorem State.discard_frame (s : State) : s.discardedFrom s.discard := by
  unfold State.discardedFrom State.hardwareKept
  simp only [State.discard, and_self, true_and]
  exact ⟨rfl, rfl⟩

theorem State.discardedFrom.bumpBy {s t : State} (h : s.discardedFrom t) (f : Fld) (n i k : Nat) : s.discardedFrom (t.bumpBy f n i k) := h

theorem State.discardedFrom.core {s t : State} (h : s.discardedFrom t) (p : Nat) : t.core p = (s.core p).undealt := by
  obtain ⟨-, -, -, hc, -, -⟩ := h
  unfold State.core
  rw [hc]
  exact SMap.get_map Core.reset Core.undealt rfl s.cores p

theorem State.discardedFrom.seat {s t : State} (h : s.discardedFrom t) (d : Nat) : t.seat d = (s.seat d).settled := by
  obtain ⟨-, -, -, -, -, hs⟩ := h
  unfold State.seat
  rw [hs]
  exact SMap.get_map Seat.free Seat.settled rfl s.seats d

theorem State.discardedFrom.wslot {s t : State} (h : s.discardedFrom t) (i : Nat) : t.wslot i = (s.wslot i).settled := by
  obtain ⟨-, -, -, -, hw, -⟩ := h
  have hr : (WSlot.reset i).settled = WSlot.reset i := by
    unfold WSlot.settled WSlot.reset
    split_ifs <;> simp_all
  unfold State.wslot
  rw [hw]
  by_cases hi : i < s.wslots.length
  · simp [List.getD, hi]
  · simp [List.getD, hi, hr]

/-- The state of a hub-only reset after what it discards (R468, R469). -/
def State.hubDiscarded (s : State) : State :=
  let freed := (s.supervised.seats.filter (fun e => e.2.st == .retired)).length
  (({ s.supervised with pkg := .hubReset }).discard).bumpBy R.DPL_CNT_FREED freed

/-- The fields of the supervisor and of the firmware that a hub-only reset sets (R468). -/
def State.hubRestart (s : State) : State :=
  let s1 := (((s.wr R.AON_STATUS_STATE 2).bump R.AON_CNT_HUB_RESET).wr R.HUB_RESET_CAUSE_CAUSE 2).wr R.HUB_BRINGUP_STATUS_FIRMWARE 0
  (((s1.wr R.HUB_FW_STATUS_STATE 0).wr R.HUB_FW_STATUS_REASON 0).wr R.HUB_FW_VERSION 0).wr R.HUB_FW_SVN_SVN 0

/-- The fields of commands and stages that follow, `cmd` when a weight-slot command waited. -/
def State.hubStatus (s : State) (cmd : Bool) : State :=
  let s1 := if cmd then s.wslStatus 0 0 else s
  ((((s1.wr R.FLT_STATUS_PLAN_STOPPED 0).wr R.ATT_STATUS_STATE 0).wr R.ATT_STATUS_LENGTH 0).wr R.PWR_BID_RESERVED_W 0).stages

theorem State.hubReset_acts {s : State} (h : s.pkg = .running ∨ s.pkg = .down) :
    s.hubReset = s.hubDiscarded.hubRestart.hubStatus s.wcmd.isSome := by
  unfold State.hubReset
  rw [if_neg (by rcases h with h | h <;> simp [h])]
  simp only [State.hubDiscarded, State.hubRestart, State.hubStatus, State.supervised]

theorem State.hubRestart_onlyRegs (s : State) : s.onlyRegs s.hubRestart := by
  unfold State.hubRestart State.bump State.bumpBy
  dsimp only
  iterate 8 refine State.onlyRegs.wr ?_ _ _ _ _
  exact State.onlyRegs.refl s

/-- What the supervisor's and the firmware's registers show after a hub-only reset (R468). -/
theorem State.hubRestart_rd (s : State) :
    s.hubRestart.rd R.AON_STATUS_STATE = 2 ∧ Counted s s.hubRestart R.AON_CNT_HUB_RESET 0 ∧ s.hubRestart.rd R.HUB_RESET_CAUSE_CAUSE = 2 ∧
    s.hubRestart.rd R.HUB_FW_STATUS_STATE = 0 ∧ s.hubRestart.rd R.HUB_BRINGUP_STATUS_FIRMWARE = 0 := by
  unfold State.hubRestart Counted State.bump State.bumpBy
  dsimp only
  simp (disch := decide) only [State.rd_wr_ne, State.rd_wr_same]
  exact ⟨rfl, Nat.mod_eq_of_lt (by have : 0 < 2 ^ R.AON_CNT_HUB_RESET.width := by decide
                                   omega), rfl, rfl, rfl⟩

/-- The fields that `State.hubStatus` sets. -/
def statusKeys : List Nat :=
  [R.WSL_CMD_STATUS_STATE.key 0 0, R.WSL_CMD_STATUS_REASON.key 0 0, R.FLT_STATUS_PLAN_STOPPED.key 0 0, R.ATT_STATUS_STATE.key 0 0,
   R.ATT_STATUS_LENGTH.key 0 0, R.PWR_BID_RESERVED_W.key 0 0] ++ bringupKeys

theorem State.hubStatus_frame (s : State) (cmd : Bool) : s.onlyRegs (s.hubStatus cmd) ∧ FieldsKept s (s.hubStatus cmd) statusKeys := by
  have h : s.onlyRegs (if cmd then s.wslStatus 0 0 else s) ∧ FieldsKept s (if cmd then s.wslStatus 0 0 else s) statusKeys := by
    split_ifs
    · exact ⟨((State.onlyRegs.refl s).wr _ _ _ _).wr _ _ _ _, ((FieldsKept.refl s _).wr _ (by decide)).wr _ (by decide)⟩
    · exact ⟨State.onlyRegs.refl s, FieldsKept.refl s _⟩
  unfold State.hubStatus
  constructor
  · exact ((((h.1.wr _ _ _ _).wr _ _ _ _).wr _ _ _ _).wr _ _ _ _).trans (State.stages_onlyRegs _)
  · exact ((((h.2.wr _ (by decide)).wr _ (by decide)).wr _ (by decide)).wr _ (by decide)).trans
      ((State.stages_kept _).mono (by decide))

/-- A weight-slot command that waited is no longer shown (R379). -/
theorem State.hubStatus_idle (s : State) : (s.hubStatus true).rd R.WSL_CMD_STATUS_STATE = 0 := by
  unfold State.hubStatus State.wslStatus
  rw [State.stages_kept _ _ _ _ (by decide)]
  simp (disch := decide) only [if_true, State.rd_wr_ne, State.rd_wr_same]
  rfl

theorem State.hubDiscarded_frame (s : State) : ({ s.supervised with pkg := .hubReset } : State).discardedFrom s.hubDiscarded :=
  (State.discard_frame _).bumpBy _ _ _ _

theorem State.discardedFrom.onlyRegs {s t u : State} (h : s.discardedFrom t) (h' : t.onlyRegs u) : s.discardedFrom u := by
  unfold State.onlyRegs at h'
  rw [h']
  exact h

theorem State.hubDiscarded_kept (s : State) :
    FieldsKept s s.hubDiscarded (stopKeys ++ hubKeys ++ [R.DPL_CNT_FREED.key 0 0]) := by
  obtain ⟨-, -, hk, -⟩ := s.supervised_frame
  refine FieldsKept.bumpBy ?_ _ (by simp)
  refine FieldsKept.trans (t := { s.supervised with pkg := .hubReset }) ?_ ((State.discard_kept _).mono ?_)
  · exact (hk.mono (fun k hk => by simp [hk])).of_regs rfl
  · exact fun k hk => by simp [hk]

theorem hubCount_not_cleared : R.AON_CNT_HUB_RESET.key 0 0 ∉ stopKeys ++ hubKeys ++ [R.DPL_CNT_FREED.key 0 0] := by decide +kernel

/-- What a hub-only reset leaves of a package that runs, or whose dealer is down: what its dealer left as it stopped, less what is
discarded (R468). -/
theorem State.hubReset_frame {s : State} (h : s.pkg = .running ∨ s.pkg = .down) :
    ({ s.supervised with pkg := .hubReset } : State).discardedFrom s.hubReset := by
  rw [State.hubReset_acts h]
  exact s.hubDiscarded_frame.onlyRegs ((State.hubRestart_onlyRegs _).trans (State.hubStatus_frame _ _).1)

/-- What the registers show after a hub-only reset (R468, R379). -/
theorem State.hubReset_rd {s : State} (h : s.pkg = .running ∨ s.pkg = .down) :
    s.hubReset.rd R.AON_STATUS_STATE = 2 ∧ Counted s s.hubReset R.AON_CNT_HUB_RESET 0 ∧ s.hubReset.rd R.HUB_RESET_CAUSE_CAUSE = 2 ∧
    s.hubReset.rd R.HUB_FW_STATUS_STATE = 0 ∧ s.hubReset.rd R.HUB_BRINGUP_STATUS_FIRMWARE = 0 ∧
    (s.wcmd.isSome = true → s.hubReset.rd R.WSL_CMD_STATUS_STATE = 0) := by
  have hcount := s.hubDiscarded_kept R.AON_CNT_HUB_RESET 0 0 hubCount_not_cleared
  rw [State.hubReset_acts h]
  generalize s.hubDiscarded = u at hcount ⊢
  obtain ⟨r1, r2, r3, r4, r5⟩ := u.hubRestart_rd
  unfold Counted at r2 ⊢
  rw [hcount] at r2
  generalize u.hubRestart = v at r1 r2 r3 r4 r5 ⊢
  have hrd (x : Fld) (hx : x.key 0 0 ∉ statusKeys) : (v.hubStatus s.wcmd.isSome).rd x = v.rd x := (v.hubStatus_frame _).2 x 0 0 hx
  refine ⟨?_, ?_, ?_, ?_, ?_, fun hc => ?_⟩
  · rw [hrd _ (by decide), r1]
  · rw [hrd _ (by decide), r2]
  · rw [hrd _ (by decide), r3]
  · rw [hrd _ (by decide), r4]
  · rw [hrd _ (by decide), r5]
  · rw [hc]; exact v.hubStatus_idle

/-- A package reset puts everything but MRAM and fuses to its reset value (R7, R505, R506). -/
theorem State.resetNow_restores (s : State) (perst : Bool) :
    let t := s.resetNow perst
    t.pkg = .held ∧ t.fuses = s.fuses ∧ t.life.lcs = s.fuses.lcs ∧
      t.tick = 0 ∧ t.time = 0 ∧ t.cores = [] ∧ t.hbm = Tier.reset ∧ t.ddr = Tier.reset ∧ t.image = none ∧ t.groups = [] ∧
      t.ports = [] ∧ t.reqs = [] ∧ t.pending = s.pending ∧ t.outbox = s.outbox ∧ t.osc = (s.osc || !perst) ∧ t.thermtrip = false :=
  ⟨rfl, rfl, rfl, rfl, rfl, rfl, rfl, rfl, rfl, rfl, rfl, rfl, rfl, rfl, rfl, rfl⟩

/-- What a package keeps through a hub-only reset, and what it has lost, from `v`, which its supervisor left (R468, R469). -/
theorem hubReset_keeps {s v t : State}
    (hv : s.hardwareKept v ∧ s.dealtKept v ∧ FieldsKept s v stopKeys ∧
      (s.pkg = .running → (SMap.get JrnEntry.zero v.flt.jrn (s.rd R.FLT_JRN_COUNT % 4096)).kind = 6))
    (ht : ({ v with pkg := .hubReset } : State).discardedFrom t) :
    t.pkg = .hubReset ∧ t.hbm = s.hbm ∧ t.ddr = s.ddr ∧ t.ports = s.ports ∧ t.fuses = s.fuses ∧ t.image = none ∧ t.groups = [] ∧
    t.reqs = [] ∧ t.wcmd = none ∧ (∀ d, (s.seat d).st = .retired → t.seat d = { s.seat d with st := .free }) ∧
    (s.pkg = .running → (SMap.get JrnEntry.zero t.flt.jrn (s.rd R.FLT_JRN_COUNT % 4096)).kind = 6) ∧
    (∀ i, (s.wslot i).st ≠ .retiring → t.wslot i = s.wslot i) ∧
    ∀ p, (t.core p).member = none ∧ (t.core p).st = .idle ∧ (t.core p).eng = [] ∧ (t.core p).spm = (s.core p).spm ∧
      (t.core p).seals = (s.core p).seals := by
  have hcore := ht.core
  have hseat := ht.seat
  have hwslot := ht.wslot
  obtain ⟨⟨g1, g2, g3, g4, g5⟩, ⟨k1, k2, k3, k4⟩, hjrn, -⟩ := ht
  obtain ⟨⟨a1, a2, a3, a4⟩, ⟨b1, b2, b3⟩, -, hj⟩ := hv
  refine ⟨g1, k1.trans a1, k2.trans a2, k3.trans a3, k4.trans a4, g2, g3, g4, g5, fun d hd => ?_, ?_, fun i hi => ?_, fun p => ?_⟩
  · have e : State.seat { v with pkg := .hubReset } d = s.seat d := by unfold State.seat; rw [b3]
    rw [hseat, e, Seat.settled, if_pos hd]
  · rw [hjrn]; exact hj
  · have e : State.wslot { v with pkg := .hubReset } i = s.wslot i := by unfold State.wslot; rw [b2]
    rw [hwslot, e, WSlot.settled, if_neg hi]
  · have e : State.core { v with pkg := .hubReset } p = s.core p := by unfold State.core; rw [b1]
    rw [hcore, e]
    exact ⟨rfl, rfl, rfl, rfl, rfl⟩

/-- The clause of a package reset: PERST_N waits for what it must not cut short, and otherwise the reset takes effect. -/
theorem packageReset_restores (s : State) (perst : Bool) :
    (perst = true → s.perstWaits = true →
      exec (.packageReset perst) s = .next { s with life := { s.life with resetDue := some true } }) ∧
    (perst = false ∨ s.perstWaits = false → exec (.packageReset perst) s = .next (s.resetNow perst)) := by
  constructor
  · rintro rfl hw
    simp [exec, execPackageReset, hw]
  · intro h
    simp only [exec, execPackageReset]
    rw [if_neg (by rcases h with h | h <;> simp [h])]

theorem exec_resetRelease_held {s : State} (h : s.pkg = .held) (ho : s.osc = false) :
    exec .resetRelease s = .next s.fieldsTaken.stageOne := by
  simp only [exec]
  exact execResetRelease_held h ho

theorem exec_hubReset_acts {s : State} (h : s.reachable .aon 0) : exec .hubReset s = .next s.hubReset := by
  simp only [exec, execHubReset, State.hostCmd_acts _ h]

theorem State.newNonce_length (s : State) : s.newNonce.life.nonce.length = 4 := by
  simp [State.newNonce]

theorem State.stageOne_nonce (s : State) : s.stageOne.life.nonce.length = 4 := State.newNonce_length _

/-- The state in which stage 1 has begun on `s`: its NV fields are taken, and the rest of stage 1 has kept them (R508, R519). -/
theorem release_of_taken {s u t : State} (hf : u.pkg = .running ∧ u.osc = s.osc ∧ u.fuses = s.fuses)
    (hrd : ∀ n ∈ nvSections, ∀ x ∈ nvFields n, u.rd x.1 x.2.1 x.2.2 = nvValue ((s.sect n).sense n).value x % 2 ^ x.1.width)
    (ht : State.recordsTaken { u with subsys := u.rd R.HIF_SUBSYS_SVID + 2 ^ 16 * u.rd R.HIF_SUBSYS_SSID } t) :
    t.pkg = .running ∧ t.osc = s.osc ∧ t.subsys = t.rd R.HIF_SUBSYS_SVID + 2 ^ 16 * t.rd R.HIF_SUBSYS_SSID ∧ t.fuses = s.fuses ∧
    ∀ n ∈ nvSections, ∀ x ∈ nvFields n, t.rd x.1 x.2.1 x.2.2 = nvValue ((s.sect n).sense n).value x % 2 ^ x.1.width := by
  obtain ⟨b1, b2, b3, b4, hk⟩ := ht
  obtain ⟨f1, f2, f3⟩ := hf
  have hkept (f : Fld) (i k : Nat) (h : f.key i k ∉ recordKeys) : t.rd f i k = u.rd f i k := hk f i k h
  refine ⟨b1.trans f1, b2.trans f2, ?_, b3.trans f3, fun n hn x hx => ?_⟩
  · rw [hkept _ _ _ (by decide), hkept _ _ _ (by decide)]
    exact b4
  · have hx' : x.1.key x.2.1 x.2.2 ∈ keysOf (nvSections.flatMap nvFields) :=
      List.mem_map_of_mem (f := fun x => x.1.key x.2.1 x.2.2) (List.mem_flatMap.2 ⟨n, hn, hx⟩)
    rw [hkept _ _ _ (nvKeys_apart _ hx')]
    exact hrd n hn x hx

/-- Settles O51, clause by clause: the package reset, its release, and the hub-only reset with its end. -/
theorem resetsRestore : Obligations.ResetsRestore := by
  unfold Obligations.ResetsRestore
  intro s
  refine ⟨fun perst => ⟨(packageReset_restores s perst).1, fun h => ?_⟩, fun hp ho => ?_, fun h => ?_, fun hr hp => ?_, fun hp => ?_⟩
  · obtain ⟨c1, c2, c3⟩ := s.resetNow_cause perst
    obtain ⟨a1, a2, a3, a4, a5, a6, a7, a8, a9, a10, a11, a12, a13, a14, a15, a16⟩ := s.resetNow_restores perst
    refine ⟨_, (packageReset_restores s perst).2 h, a1, a2, a3, a4, a5, a6, a7, a8, a9, a10, a11, a12, a13, a14, a15, a16,
      s.resetNow_mram perst, c1, ?_, c3, s.resetNow_kept perst⟩
    rw [c2]
    simp [ofBool, State.on]
  · obtain ⟨h1, h2, h3, h4, h5⟩ := release_of_taken s.fieldsTaken_frame s.rd_fieldsTaken s.fieldsTaken.stageOne_taken
    exact ⟨_, exec_resetRelease_held hp ho, h1, h2.trans ho, h3, h4, s.fieldsTaken.stageOne_nonce, h5⟩
  · simp only [exec, execResetRelease]
    rw [if_pos h]
  · obtain ⟨r1, r2, r3, r4, r5, r6⟩ := State.hubReset_rd hp
    obtain ⟨f1, f2, f3, f4, f5, f6, f7, f8, f9, f10, f11, f12, f13⟩ := hubReset_keeps s.supervised_frame (State.hubReset_frame hp)
    exact ⟨_, exec_hubReset_acts hr, f1, r1, r2, r3, r4, r5, f2, f3, f4, f5, f6, f7, f8, f9, r6, f10, f11, f12, f13⟩
  · refine ⟨({ s with pkg := .running } : State).wr R.AON_STATUS_STATE 0, ?_, rfl, State.rd_wr_same _ _ _ _ _, ?_⟩
    · simp only [exec, execHubResetDone]
      rw [if_pos hp]
    · exact ((FieldsKept.refl s _).of_regs rfl).wr _ (by decide)

end Sys2Proof.Machine
end

-- ==== Register accesses ====
section
/-! PROOFS. Host writes and reads of registers (O56): fields by their access codes, the registers that act when written, marking for retirement, refused
accesses, and commands on pages that are not answered. -/

namespace Sys2Proof.Machine

/-! ## Fields of a register (R6, R480, R485) -/

/-- A field at an offset is a field of its block; repeated, its copies start at its own offset and are its stride apart. -/
theorem Block.mem_fieldsAt {b : Block} {off : Nat} {y : Fld × Nat} (h : y ∈ b.fieldsAt off) :
    y.1 ∈ Fld.ofBlock b ∧ (y.1.stride = 0 → y.1.off = off) ∧
    (y.1.stride ≠ 0 → y.1.off ≤ off ∧ (off - y.1.off) % y.1.stride = 0 ∧ (off - y.1.off) / y.1.stride < y.1.count) := by
  obtain ⟨f, hf, hy⟩ := List.mem_filterMap.1 h
  split_ifs at hy with h1 h2 h3
  · cases hy
    exact ⟨hf, fun _ => h2, fun h => absurd h1 h⟩
  · cases hy
    exact ⟨hf, fun h => absurd h h1, fun _ => h3⟩

theorem Fld.blk_of_mem {b : Block} {f : Fld} (h : f ∈ Fld.ofBlock b) : f.blk = b := by
  revert f
  cases b <;> decide

/-- A register without stride has its fields at its own offset only. -/
theorem Block.off_of_mem {b : Block} {off o : Nat} {y : Fld × Nat} (h : y ∈ b.fieldsAt off)
    (hs : ∀ f ∈ Fld.ofBlock b, f.off = o → f.stride = 0) (ho : y.1.off = o) : off = o := by
  obtain ⟨hf, h0, -⟩ := Block.mem_fieldsAt h
  rw [← h0 (hs _ hf ho), ho]

theorem bitsOf_lt (w lo n : Nat) : bitsOf w lo n < 2 ^ n := Nat.mod_lt _ (Nat.two_pow_pos n)

/-! ## Writes of fields (R6) -/

/-- A write that a field does not take: locked, with a row of its own, or read-only or write-only by its access code. -/
def State.drops (s : State) (y : Fld × Nat) : Prop :=
  s.locked y.1 y.2 = true ∨ y.1.ownCommand = true ∨ y.1.acc = .ro ∨ y.1.acc = .wo

theorem State.writeField_dropped {s : State} {y : Fld × Nat} (h : s.drops y) (inst word : Nat) : s.writeField y.1 inst y.2 word = s := by
  unfold State.writeField
  rcases h with h | h | h | h <;> simp [h]

/-- A write of a field changes nothing, or puts a value into the field. -/
theorem State.writeField_cases (s : State) (f : Fld) (inst idx word : Nat) :
    s.writeField f inst idx word = s ∨ ∃ v, s.writeField f inst idx word = s.wr f v inst idx := by
  unfold State.writeField
  dsimp only
  split_ifs
  · exact .inl rfl
  · cases f.acc with
    | ro | wo => exact .inl rfl
    | rw | rws | nv | w1c | w1s => exact .inr ⟨_, rfl⟩

theorem State.writeField_onlyRegs (s : State) (f : Fld) (inst idx word : Nat) : s.onlyRegs (s.writeField f inst idx word) := by
  obtain h | ⟨v, h⟩ := s.writeField_cases f inst idx word <;> rw [h]
  · exact State.onlyRegs.refl s
  · exact (State.onlyRegs.refl s).wr _ _ _ _

theorem State.writeField_kept (s : State) (f : Fld) (inst idx word : Nat) :
    FieldsKept s (s.writeField f inst idx word) [f.key inst idx] := by
  obtain h | ⟨v, h⟩ := s.writeField_cases f inst idx word <;> rw [h]
  · exact FieldsKept.refl s _
  · exact (FieldsKept.refl s _).wr v (List.mem_singleton_self _)

/-- What a field holds after a write, by its access code. -/
theorem State.rd_writeField (s : State) (f : Fld) (inst idx word : Nat) :
    (s.writeField f inst idx word).rd f inst idx =
      if s.locked f idx || f.ownCommand then s.rd f inst idx
      else f.acc.after (s.rd f inst idx) (bitsOf word f.lsb f.width) f.width := by
  have hv := Nat.mod_eq_of_lt (bitsOf_lt word f.lsb f.width)
  unfold State.writeField Access.after
  dsimp only
  split_ifs
  · rfl
  · cases f.acc <;> simp only [State.rd_wr_same, hv]

/-! ## Locks -/

/-- What locks fields: the state of the plan image, of the firmware and of the functions, the seats and the life cycle. -/
def State.sameLocks (s t : State) : Prop :=
  (∀ f i k, setsLock (f.key i k) → t.rd f i k = s.rd f i k) ∧ t.seats = s.seats ∧ t.life = s.life

theorem State.sameLocks.locked {s t : State} (h : s.sameLocks t) (f : Fld) (idx : Nat) : t.locked f idx = s.locked f idx := by
  obtain ⟨hr, hs, hl⟩ := h
  have h1 : t.loaded = s.loaded := by
    unfold State.loaded
    rw [hr R.PLN_IMAGE_STATE 0 0 (.inl rfl)]
  have h2 : t.rd R.HUB_FW_STATUS_STATE = s.rd R.HUB_FW_STATUS_STATE := hr _ _ _ (.inr (.inl rfl))
  have h3 : t.on R.SRV_FUNC_EN 0 idx = s.on R.SRV_FUNC_EN 0 idx := by
    unfold State.on
    rw [hr R.SRV_FUNC_EN 0 idx (.inr (.inr ⟨idx, rfl⟩))]
  have h4 : t.debugOpen = s.debugOpen := by unfold State.debugOpen; rw [hl]
  unfold State.locked
  simp only [h1, h2, h3, h4, hs]

/-- A change of fields that set no lock leaves every lock. -/
theorem State.sameLocks_of_kept {s t : State} {ks : List Nat} (h : s.onlyRegs t) (hk : FieldsKept s t ks) (hn : ∀ k ∈ ks, ¬setsLock k) :
    s.sameLocks t := by
  refine ⟨fun f i k hl => hk f i k (fun hm => hn _ hm hl), ?_, ?_⟩ <;> rw [h]

/-! ## Writes of registers -/

/-- The keys of the fields of a register on the page `inst`. -/
def regKeys (inst : Nat) (fs : List (Fld × Nat)) : List Nat := fs.map (fun y => y.1.key inst y.2)

/-- The fields of a register written one after another. -/
def State.writeFields (s : State) (inst word : Nat) (fs : List (Fld × Nat)) : State :=
  fs.foldl (fun s y => s.writeField y.1 inst y.2 word) s

theorem State.writeFields_dropped {s : State} (inst word : Nat) {fs : List (Fld × Nat)} (h : ∀ y ∈ fs, s.drops y) :
    s.writeFields inst word fs = s := by
  induction fs with
  | nil => rfl
  | cons y fs ih =>
    obtain ⟨hy, h⟩ := List.forall_mem_cons.1 h
    unfold State.writeFields at ih ⊢
    rw [List.foldl_cons, State.writeField_dropped hy, ih h]

theorem State.writeFields_onlyRegs (inst word : Nat) (fs : List (Fld × Nat)) : ∀ s : State, s.onlyRegs (s.writeFields inst word fs) := by
  induction fs with
  | nil => exact State.onlyRegs.refl
  | cons y fs ih => exact fun s => (s.writeField_onlyRegs _ _ _ _).trans (ih _)

theorem State.writeFields_kept (inst word : Nat) (fs : List (Fld × Nat)) :
    ∀ s : State, FieldsKept s (s.writeFields inst word fs) (regKeys inst fs) := by
  induction fs with
  | nil => exact fun s => FieldsKept.refl s _
  | cons y fs ih =>
    exact fun s => ((s.writeField_kept y.1 inst y.2 word).mono (by simp [regKeys])).trans ((ih _).mono (by simp [regKeys]))

/-- What a field holds that has been offered the written word: what it held where the write is not its own, else what its access code makes of
the word. -/
def State.written (s : State) (inst word : Nat) (y : Fld × Nat) : Nat :=
  if s.locked y.1 y.2 || y.1.ownCommand then s.rd y.1 inst y.2
  else y.1.acc.after (s.rd y.1 inst y.2) (bitsOf word y.1.lsb y.1.width) y.1.width

/-- Every field of a register takes the written word by its access code: the fields are apart, and none sets a lock. -/
theorem State.rd_writeFields (inst word : Nat) (fs : List (Fld × Nat)) (hn : (regKeys inst fs).Nodup)
    (hl : ∀ k ∈ regKeys inst fs, ¬setsLock k) : ∀ s : State, ∀ y ∈ fs,
      (s.writeFields inst word fs).rd y.1 inst y.2 = s.written inst word y := by
  induction fs with
  | nil => intro s y hy; simp at hy
  | cons x fs ih =>
    obtain ⟨hx, hn⟩ := List.nodup_cons.1 hn
    obtain ⟨hlx, hl⟩ := List.forall_mem_cons.1 hl
    intro s y hy
    change ((s.writeField x.1 inst x.2 word).writeFields inst word fs).rd y.1 inst y.2 = _
    have hk := s.writeField_kept x.1 inst x.2 word
    rcases List.mem_cons.1 hy with rfl | hy
    · rw [State.writeFields_kept inst word fs _ _ _ _ hx]
      exact s.rd_writeField y.1 inst y.2 word
    · have hs : s.sameLocks (s.writeField x.1 inst x.2 word) :=
        State.sameLocks_of_kept (s.writeField_onlyRegs _ _ _ _) hk (by simpa using hlx)
      have hne : y.1.key inst y.2 ≠ x.1.key inst x.2 := fun e => hx (List.mem_map.2 ⟨y, hy, e⟩)
      rw [ih hn hl _ y hy]
      unfold State.written
      rw [hs.locked, hk y.1 inst y.2 (by simpa using hne)]

/-! ## What a write does around its fields -/

/-- The registers whose write does more than put values into their fields and keep a record of it: TIM_CFG, the pool command, the retirement
threshold, XPK_PCFG, WSL_CONVERT and WSL_PAIR_CFG. -/
def actingRegisters : List (Block × Nat) :=
  [(.tim, 0x044), (.dpl, 0x048), (.flt, 0x064), (.xpk, 0x058), (.wsl, 0x054), (.wsl, 0x100)]

theorem State.forgetRecords_frame (b : Block) (inst : Nat) (s : State) :
    s.forgetRecords b inst = { s with recs := (s.forgetRecords b inst).recs } := by
  unfold State.forgetRecords
  generalize b.records = l
  induction l generalizing s with
  | nil => rfl
  | cons x l ih =>
    rw [List.foldl_cons]
    split_ifs
    · rw [ih]
    · exact ih s

/-- A write of any other register is a write of its fields, the level of a stake apart, and keeps its record. -/
theorem State.aroundWrite_plain {b : Block} {off : Nat} (h : (b, off) ∉ actingRegisters) (inst idx word : Nat) (act : State → State)
    (s : State) : ∃ s0, s0 = { s with funcs := s0.funcs } ∧
      State.aroundWrite b inst idx off word act s =
        { act s0 with recs := (State.aroundWrite b inst idx off word act s).recs,
                      routeHi := (State.aroundWrite b inst idx off word act s).routeHi } := by
  unfold State.aroundWrite
  split
  · exact ⟨s.setStake idx (s.stake idx), rfl, rfl⟩
  · exact absurd (by decide) h
  · exact absurd (by decide) h
  · exact absurd (by decide) h
  · exact absurd (by decide) h
  · exact absurd (by decide) h
  · exact absurd (by decide) h
  · refine ⟨s, rfl, ?_⟩
    split_ifs <;> rfl
  · refine ⟨s, rfl, ?_⟩
    rw [State.forgetRecords_frame]
  · exact ⟨s, rfl, rfl⟩

/-- A register that does not act holds no field at the offset of one that does. -/
theorem not_acting_of_mem {b : Block} {off : Nat} {x : Fld × Nat} (hx : x ∈ b.fieldsAt off)
    (hb : (b, off) ∉ [(Block.tim, 0x044), (.xpk, 0x058), (.dpl, 0x048), (.flt, 0x064), (.wsl, 0x054)])
    (hw : b = .wsl → off / 0x80 ≠ 2) : (b, x.1.off) ∉ actingRegisters := by
  intro hm
  simp only [actingRegisters, List.mem_cons, Prod.ext_iff, List.not_mem_nil, or_false] at hm
  rcases hm with ⟨rfl, ho⟩ | ⟨rfl, ho⟩ | ⟨rfl, ho⟩ | ⟨rfl, ho⟩ | ⟨rfl, ho⟩ | ⟨rfl, ho⟩
  · exact hb (by simp [Block.off_of_mem hx (by decide) ho])
  · exact hb (by simp [Block.off_of_mem hx (by decide) ho])
  · exact hb (by simp [Block.off_of_mem hx (by decide) ho])
  · exact hb (by simp [Block.off_of_mem hx (by decide) ho])
  · exact hb (by simp [Block.off_of_mem hx (by decide) ho])
  · have hpair : ∀ f ∈ Fld.ofBlock .wsl, f.off = 0x100 → f.stride = 4 ∧ f.count = 32 := by decide
    obtain ⟨hf, -, h2⟩ := Block.mem_fieldsAt hx
    obtain ⟨hs, hc⟩ := hpair _ hf ho
    have h3 := h2 (by omega)
    rw [ho, hs, hc] at h3
    exact hw rfl (by omega)

/-! ## The write of a register (R480, R481, R486) -/

theorem exec_registerWrite (addr : Nat) (enable : BitVec 4) (value : BitVec 32) (s : State) :
    exec (.registerWrite (.bar0 addr enable) value) s = .next (s.registerWrite addr enable value.toNat) := rfl

/-- An aligned write of a whole register on a page that is answered is a write of the register. -/
theorem State.registerWrite_acts {s : State} {addr : Nat} {b : Block} {inst : Nat} (hp : pageAt addr = some (b, inst)) (ha : addr % 4 = 0)
    (hr : s.reachable b inst) (word : Nat) : s.registerWrite addr 0xF#4 word = s.writeWord b inst (addr % 0x1000) word := by
  simp [State.registerWrite, hp, ha, State.hostCmd_acts _ hr]

/-- A register that is there, with its fields. -/
theorem State.writeWord_fields {s : State} {b : Block} {inst off : Nat} (hpa : s.pageAbsent b inst = false)
    (hd : ddrOnly b inst off = false) (word : Nat) :
    (b.fieldsAt off = [] ∧ s.writeWord b inst off word = s) ∨
    ∃ x ∈ b.fieldsAt off, s.writeWord b inst off word =
      State.aroundWrite b inst x.2 x.1.off word (fun s => s.writeFields inst word (b.fieldsAt off)) s := by
  unfold State.writeWord
  rw [if_neg (by simp [hpa, hd])]
  cases h : b.fieldsAt off with
  | nil => exact .inl ⟨rfl, rfl⟩
  | cons x xs => exact .inr ⟨x, by simp, rfl⟩

/-- A host write of a register that does not act (R6): every field takes its part of the word by its access code, and no other field
changes. -/
theorem State.writeWord_plain {s : State} {b : Block} {inst off : Nat} (hpa : s.pageAbsent b inst = false)
    (hd : ddrOnly b inst off = false) (word : Nat) (hn : (regKeys inst (b.fieldsAt off)).Nodup)
    (hl : ∀ k ∈ regKeys inst (b.fieldsAt off), ¬setsLock k)
    (hb : (b, off) ∉ [(Block.tim, 0x044), (.xpk, 0x058), (.dpl, 0x048), (.flt, 0x064), (.wsl, 0x054)])
    (hw : b = .wsl → off / 0x80 ≠ 2) :
    (s.writeWord b inst off word).cores = s.cores ∧ (s.writeWord b inst off word).hbm = s.hbm ∧
    (s.writeWord b inst off word).tick = s.tick ∧ FieldsKept s (s.writeWord b inst off word) (regKeys inst (b.fieldsAt off)) ∧
    ∀ y ∈ b.fieldsAt off, (s.writeWord b inst off word).rd y.1 inst y.2 = s.written inst word y := by
  obtain ⟨h0, h⟩ | ⟨x, hx, h⟩ := s.writeWord_fields hpa hd word
  · rw [h]
    exact ⟨rfl, rfl, rfl, FieldsKept.refl s _, by simp [h0]⟩
  · rw [h]
    obtain ⟨s0, hs0, ht⟩ := State.aroundWrite_plain (not_acting_of_mem hx hb hw) inst x.2 word
      (fun s => s.writeFields inst word (b.fieldsAt off)) s
    generalize State.aroundWrite b inst x.2 x.1.off word _ s = t at ht ⊢
    have hregs : s0.regs = s.regs := by rw [hs0]
    have hlocks : s.sameLocks s0 := ⟨fun f i k _ => State.rd_of_regs hregs f i k, by rw [hs0], by rw [hs0]⟩
    have hf := State.writeFields_onlyRegs inst word (b.fieldsAt off) s0
    have hk := State.writeFields_kept inst word (b.fieldsAt off) s0
    have hrd := State.rd_writeFields inst word (b.fieldsAt off) hn hl s0
    dsimp only at ht
    generalize s0.writeFields inst word (b.fieldsAt off) = u at ht hf hk hrd
    have htu : t.regs = u.regs := by rw [ht]
    unfold State.onlyRegs at hf
    refine ⟨?_, ?_, ?_, fun f i k hm => ?_, fun y hy => ?_⟩
    · rw [ht, hf, hs0]
    · rw [ht, hf, hs0]
    · rw [ht, hf, hs0]
    · rw [State.rd_of_regs htu, hk f i k hm, State.rd_of_regs hregs]
    · rw [State.rd_of_regs htu, hrd y hy]
      unfold State.written
      rw [hlocks.locked, State.rd_of_regs hregs]

/-! ## Registers of the hub that act when written -/

/-- The hub has one page of each of its blocks (R485). -/
theorem pageAt_hub {addr : Nat} {b : Block} {inst : Nat} (h : pageAt addr = some (b, inst)) (hb : b ∈ hubPages) : inst = 0 := by
  unfold pageAt at h
  dsimp only at h
  split_ifs at h
  · cases h; simp [hubPages] at hb
  · cases h; simp [hubPages] at hb
  · split at h <;> cases h <;> simp [hubPages] at hb
  · cases h; simp [hubPages] at hb
  · cases h; simp [hubPages] at hb
  · obtain ⟨c, -, hc⟩ := Option.map_eq_some_iff.1 h
    cases hc
    rfl

/-- The registers whose fields set locks lie at three offsets modulo 32. -/
theorem setsLock_offset {k : Nat} (h : setsLock k) : k / 32 % 32 = 0x1C ∨ k / 32 % 32 = 0x10 ∨ k / 32 % 32 = 0 := by
  rcases h with rfl | rfl | ⟨i, rfl⟩
  · exact .inl (by decide)
  · exact .inr (.inl (by decide))
  · refine .inr (.inr ?_)
    simp only [Fld.key, R.SRV_FUNC_EN, Block.page]
    omega

/-- Registers that act when written and that nothing locks. -/
def unlockedRegisters : List (Block × Nat) := [(.srv, 0x104), (.tim, 0x044), (.flt, 0x064), (.wsl, 0x054)]

/-- Nothing locks their fields, nor those of EVT_STATUS. -/
theorem State.locked_unlocked (s : State) {f : Fld} (h : (f.blk, f.off) ∈ unlockedRegisters ∨ f.off = 0x010) (idx : Nat) :
    s.locked f idx = false := by
  simp only [unlockedRegisters, List.mem_cons, Prod.ext_iff, List.not_mem_nil, or_false] at h
  unfold State.locked
  rcases h with (⟨hb, ho⟩ | ⟨hb, ho⟩ | ⟨hb, ho⟩ | ⟨hb, ho⟩) | ho
  · simp only [hb, ho]
  · simp only [hb, ho]
  · simp only [hb, ho]
  · simp only [hb, ho]
  · simp only [ho]
    cases f.blk <;> rfl

/-- The fields of a register whose every field takes the written word as it is. -/
theorem State.rd_writeFields_plain {s : State} {inst word : Nat} {fs : List (Fld × Nat)} (hn : (regKeys inst fs).Nodup)
    (hl : ∀ k ∈ regKeys inst fs, ¬(k / 32 % 32 = 0x1C ∨ k / 32 % 32 = 0x10 ∨ k / 32 % 32 = 0))
    (hf : ∀ y ∈ fs, s.locked y.1 y.2 = false ∧ y.1.ownCommand = false ∧ (y.1.acc = .rw ∨ y.1.acc = .nv)) :
    ∀ y ∈ fs, (s.writeFields inst word fs).rd y.1 inst y.2 = bitsOf word y.1.lsb y.1.width := by
  intro y hy
  obtain ⟨h1, h2, h3⟩ := hf y hy
  rw [State.rd_writeFields inst word fs hn (fun k hk hs => hl k hk (setsLock_offset hs)) s y hy]
  unfold State.written Access.after
  rcases h3 with h3 | h3 <;> simp [h1, h2, h3]

/-- The write of a register that is there, all of whose fields start at its offset. -/
theorem State.writeWord_acting {s : State} {b : Block} {inst off : Nat} (hpa : s.pageAbsent b inst = false)
    (hd : ddrOnly b inst off = false) (hne : b.fieldsAt off ≠ []) (ho : ∀ y ∈ b.fieldsAt off, y.1.off = off) (word : Nat) :
    ∃ idx, s.writeWord b inst off word =
      State.aroundWrite b inst idx off word (fun s => s.writeFields inst word (b.fieldsAt off)) s := by
  obtain ⟨h, -⟩ | ⟨x, hx, h⟩ := s.writeWord_fields hpa hd word
  · exact absurd h hne
  · exact ⟨x.2, by rw [h, ho x hx]⟩

/-! ### XPK_PCFG (R352) -/

theorem xpkCfg_fields : Block.xpk.fieldsAt 0x058 = [(R.XPK_PCFG_EN, 0), (R.XPK_PCFG_PORT, 0)] := by decide

/-- A write of XPK_PCFG takes its fields, and XPK_PSTATUS shows whether a comparison is enabled (R352). -/
theorem State.writeWord_xpkCfg {s : State} (hl : s.loaded = false) (word : Nat) :
    let t := s.writeWord .xpk 0 0x058 word
    s.onlyRegs t ∧ (∀ y ∈ Block.xpk.fieldsAt 0x058, t.rd y.1 0 y.2 = bitsOf word y.1.lsb y.1.width) ∧
    t.rd R.XPK_PSTATUS_STATE = t.rd R.XPK_PCFG_EN ∧
    FieldsKept s t (regKeys 0 (Block.xpk.fieldsAt 0x058) ++ [R.XPK_PSTATUS_STATE.key 0 0]) := by
  obtain ⟨idx, h⟩ := s.writeWord_acting (b := .xpk) (inst := 0) (off := 0x058) rfl rfl (by decide) (by decide) word
  have hf := State.writeFields_onlyRegs 0 word (Block.xpk.fieldsAt 0x058) s
  have hk := State.writeFields_kept 0 word (Block.xpk.fieldsAt 0x058) s
  have hrd := State.rd_writeFields_plain (s := s) (inst := 0) (word := word) (fs := Block.xpk.fieldsAt 0x058) (by decide) (by decide)
    (by rw [xpkCfg_fields]; simp [State.locked, Fld.ownCommand, R.XPK_PCFG_EN, R.XPK_PCFG_PORT, hl]; decide)
  have hw : s.writeWord .xpk 0 0x058 word = (s.writeFields 0 word (Block.xpk.fieldsAt 0x058)).wr R.XPK_PSTATUS_STATE
      (ofBool ((s.writeFields 0 word (Block.xpk.fieldsAt 0x058)).on R.XPK_PCFG_EN)) := by
    rw [h]
    simp [State.aroundWrite, hl]
  intro t
  have ht : t = s.writeWord .xpk 0 0x058 word := rfl
  rw [hw] at ht
  clear_value t
  generalize s.writeFields 0 word (Block.xpk.fieldsAt 0x058) = u at *
  subst ht
  refine ⟨hf.wr _ _ _ _, fun y hy => ?_, ?_, ?_⟩
  · rw [State.rd_wr_ne]
    · exact hrd y hy
    · revert y; decide
  · have hen : u.rd R.XPK_PCFG_EN < 2 := by
      rw [hrd (R.XPK_PCFG_EN, 0) (by decide)]
      exact bitsOf_lt _ _ _
    rw [State.rd_wr_same, State.rd_wr_ne _ _ _ _ _ _ _ _ (by decide)]
    unfold State.on
    generalize u.rd R.XPK_PCFG_EN = v at hen ⊢
    interval_cases v <;> rfl
  · exact (hk.mono (List.subset_append_left _ _)).wr _ (by simp)

/-! ## Marking for retirement (R459, R462 to R464) -/

/-- What marking a part never changes: cores, HBM, ticks, fuses, the retirement threshold. -/
def State.sameMachine (s t : State) : Prop :=
  t.cores = s.cores ∧ t.hbm = s.hbm ∧ t.tick = s.tick ∧ t.fuses = s.fuses ∧ t.rd R.FLT_HEALTH_RETIRE = s.rd R.FLT_HEALTH_RETIRE

/-- Where part `p` stands is the same: its place in the joker map, whether it is retired or marked, and its score. -/
def State.samePart (s t : State) (p : Nat) : Prop :=
  (t.jmap (p / 11)).phys = (s.jmap (p / 11)).phys ∧ t.retired p = s.retired p ∧
  SMap.get 0 t.flt.marked p = SMap.get 0 s.flt.marked p ∧ t.score p = s.score p

/-- `t` is `s` after events that concern part `q` alone, as far as marking goes. -/
def State.spares (s t : State) (q : Nat) : Prop := s.sameMachine t ∧ ∀ p, p ≠ q → s.samePart t p

theorem State.spares.refl (s : State) (q : Nat) : s.spares s q := ⟨⟨rfl, rfl, rfl, rfl, rfl⟩, fun _ _ => ⟨rfl, rfl, rfl, rfl⟩⟩

theorem State.sameMachine.trans {s t u : State} (h : s.sameMachine t) (h' : t.sameMachine u) : s.sameMachine u := by
  obtain ⟨a, b, c, d, e⟩ := h
  obtain ⟨a', b', c', d', e'⟩ := h'
  exact ⟨a'.trans a, b'.trans b, c'.trans c, d'.trans d, e'.trans e⟩

theorem State.samePart.trans {s t u : State} {p : Nat} (h : s.samePart t p) (h' : t.samePart u p) : s.samePart u p := by
  obtain ⟨a, b, c, d⟩ := h
  obtain ⟨a', b', c', d'⟩ := h'
  exact ⟨a'.trans a, b'.trans b, c'.trans c, d'.trans d⟩

theorem State.spares.trans {s t u : State} {q : Nat} (h : s.spares t q) (h' : t.spares u q) : s.spares u q :=
  ⟨h.1.trans h'.1, fun p hp => (h.2 p hp).trans (h'.2 p hp)⟩

theorem State.samePart_of_flt {s t : State} (h : t.flt.maps = s.flt.maps ∧ t.flt.marked = s.flt.marked ∧ t.flt.health = s.flt.health) (p : Nat) :
    s.samePart t p := by
  obtain ⟨h1, h2, h3⟩ := h
  unfold State.samePart State.retired State.jmap State.score
  rw [h1, h2, h3]
  exact ⟨rfl, rfl, rfl, rfl⟩

/-- Events that touch neither the joker maps nor marks and scores concern no part. -/
theorem State.spares_of_flt {s t : State} (hm : s.sameMachine t)
    (h : t.flt.maps = s.flt.maps ∧ t.flt.marked = s.flt.marked ∧ t.flt.health = s.flt.health) (q : Nat) : s.spares t q :=
  ⟨hm, fun p _ => State.samePart_of_flt h p⟩

theorem State.raiseEvt_spares (s : State) (b : Block) (i bit code q : Nat)
    (h2 : R.FLT_HEALTH_RETIRE.key 0 0 ≠ (R.EVT_STATUS b).key i 0) (h3 : R.FLT_HEALTH_RETIRE.key 0 0 ≠ (R.EVT_FIRST_CODE b).key i 0) :
    s.spares (s.raiseEvt b i bit code) q := by
  have hr : (s.raiseEvt b i bit code).rd R.FLT_HEALTH_RETIRE = s.rd R.FLT_HEALTH_RETIRE :=
    s.setEvents_rd b i _ _ R.FLT_HEALTH_RETIRE 0 0 (by decide) h2 h3
  have hf := s.raiseEvt_frame b i bit code
  generalize s.raiseEvt b i bit code = t at hr hf ⊢
  refine State.spares_of_flt ⟨?_, ?_, ?_, ?_, hr⟩ ⟨?_, ?_, ?_⟩ q <;> rw [hf]

theorem State.jrnPut_spares (s : State) (e : JrnEntry) (q : Nat) : s.spares (s.jrnPut e) q := by
  have hr := s.jrnPut_kept e R.FLT_HEALTH_RETIRE 0 0 (by decide)
  have hf := s.jrnPut_frame e
  have hj := s.jrnPut_flt e
  generalize s.jrnPut e = t at hr hf hj ⊢
  refine State.spares_of_flt ⟨?_, ?_, ?_, ?_, hr⟩ ⟨?_, ?_, ?_⟩ q
  iterate 4 rw [hf]
  iterate 3 rw [hj]

theorem State.msix_spares (s : State) (fn n q : Nat) : s.spares (s.msix fn n) q := by
  have hr := s.msix_kept fn n R.FLT_HEALTH_RETIRE 0 0 (by decide)
  have hf := s.msix_frame fn n
  generalize s.msix fn n = t at hr hf ⊢
  refine State.spares_of_flt ⟨?_, ?_, ?_, ?_, hr⟩ ⟨?_, ?_, ?_⟩ q <;> rw [hf]

theorem State.journal_spares (s : State) (e : JrnEntry) (q : Nat) : s.spares (s.journal e) q := by
  unfold State.journal
  dsimp only
  split_ifs
  · exact (s.jrnPut_spares e q).trans (State.msix_spares _ _ _ q)
  · exact s.jrnPut_spares e q

theorem State.nvmAsk_spares (s : State) (o : NvmOp) (q : Nat) : s.spares (s.nvmAsk o) q := by
  rw [State.nvmAsk_frame]
  exact State.spares_of_flt ⟨rfl, rfl, rfl, rfl, rfl⟩ ⟨rfl, rfl, rfl⟩ q

theorem State.bump_spares (s : State) (f : Fld) (q : Nat) (hf : R.FLT_HEALTH_RETIRE.key 0 0 ≠ f.key 0 0) : s.spares (s.bump f) q :=
  State.spares_of_flt (s := s) (t := s.bump f) ⟨rfl, rfl, rfl, rfl, State.rd_wr_ne _ _ _ _ _ _ _ _ hf⟩ ⟨rfl, rfl, rfl⟩ q

theorem State.setScore_spares (s : State) (q v : Nat) : s.spares (s.setScore q v) q :=
  ⟨⟨rfl, rfl, rfl, rfl, rfl⟩, fun _ hp => ⟨rfl, rfl, rfl, SMap.get_set_ne _ _ _ hp⟩⟩

/-- A joker map after a map was changed. -/
theorem State.jmap_onMap (s : State) (d e : Nat) (f : JokerMap → JokerMap) :
    (s.onMap d f).jmap e = s.jmap e ∨ (e = d ∧ (s.onMap d f).jmap e = f (s.jmap d)) := by
  unfold State.jmap State.onMap
  dsimp only
  by_cases h : e = d
  · subst h
    by_cases hl : e < s.flt.maps.length
    · exact .inr ⟨rfl, by simp [List.getD, hl, State.jmap]⟩
    · exact .inl (by simp [List.getD, hl])
  · exact .inl (by simp [List.getD, List.getElem?_set_ne (Ne.symm h)])

/-- A change of the joker map of a die that moves no core, and retires none but `q`, concerns part `q` alone. -/
theorem State.onMap_spares (s : State) (q d : Nat) (f : JokerMap → JokerMap) (hphys : ∀ m, (f m).phys = m.phys)
    (hret : ∀ m c, 11 * d + c ≠ q → c < 11 → (f m).retired.contains c = m.retired.contains c) : s.spares (s.onMap d f) q := by
  refine ⟨⟨rfl, rfl, rfl, rfl, rfl⟩, fun p hp => ?_⟩
  have h : ((s.onMap d f).jmap (p / 11)).phys = (s.jmap (p / 11)).phys ∧
      ((s.onMap d f).jmap (p / 11)).retired.contains (p % 11) = (s.jmap (p / 11)).retired.contains (p % 11) := by
    obtain h | ⟨hd, h⟩ := s.jmap_onMap d (p / 11) f <;> rw [h]
    · exact ⟨rfl, rfl⟩
    · rw [hphys, hret _ _ (by omega) (by omega), hd]
      exact ⟨rfl, rfl⟩
  exact ⟨h.1, h.2, rfl, rfl⟩

theorem State.noJoker_spares (s : State) (d q : Nat) : s.spares (s.noJoker d) q := by
  have h : s.spares (s.onMap d (fun m => { m with waits := true })) q := s.onMap_spares q d _ (fun _ => rfl) (fun _ _ _ _ => rfl)
  unfold State.noJoker
  dsimp only
  split_ifs
  · exact State.spares.refl s q
  · generalize s.onMap d _ = t at h ⊢
    exact (h.trans (State.raiseEvt_spares t _ _ _ _ q (by decide) (by decide))).trans (State.journal_spares _ _ q)

theorem State.lastJoker_spares (s : State) (d q : Nat) : s.spares (s.lastJoker d) q := by
  unfold State.lastJoker
  split_ifs
  · exact s.noJoker_spares d q
  · exact State.spares.refl s q

theorem State.retireJoker_spares (s : State) (q code : Nat) : s.spares (s.retireJoker q code) q := by
  have h : s.spares (s.onMap (q / 11) (fun m => { m with retired := m.retired ++ [q % 11], jokers := m.jokers - 1 })) q := by
    refine s.onMap_spares q (q / 11) _ (fun _ => rfl) (fun m c hc hl => ?_)
    have hne : c ≠ q % 11 := by omega
    simp [hne]
  unfold State.retireJoker State.nvmStore
  dsimp only
  generalize s.onMap (q / 11) _ = t at h ⊢
  have h' := h.trans (State.setScore_spares t q 0xFFFFFFFF)
  generalize t.setScore q 0xFFFFFFFF = u at h' ⊢
  generalize JrnEntry.mk _ _ _ _ _ _ _ _ _ _ _ _ _ = e
  have hj := h'.trans (State.journal_spares u e q)
  generalize u.journal e = v at hj ⊢
  have hb := hj.trans (State.bump_spares v R.FLT_CNT_SWAP q (by decide))
  generalize v.bump R.FLT_CNT_SWAP = w at hb ⊢
  exact (hb.trans (State.nvmAsk_spares w _ q)).trans (State.lastJoker_spares _ _ q)

/-- Marking a part concerns that part alone. -/
theorem State.markCore_spares (s : State) (q code : Nat) : s.spares (s.markCore q code) q := by
  have h : s.spares { s with flt := { s.flt with marked := SMap.set 0 s.flt.marked q (code + 1) } } q :=
    ⟨⟨rfl, rfl, rfl, rfl, rfl⟩, fun p hp => ⟨rfl, rfl, SMap.get_set_ne _ _ _ hp, rfl⟩⟩
  unfold State.markCore
  dsimp only
  split_ifs
  · exact State.spares.refl s q
  · exact s.retireJoker_spares q code
  · exact h.trans (State.noJoker_spares _ _ q)
  · exact h

/-- A part that may be marked, and holds a logical core, is marked by the code of its cause (R462). -/
theorem State.markCore_marks {s : State} {p : Nat} (code : Nat) (hp : p < 176) (ho : s.outOfPlay p = false)
    (hl : (s.logicalOf p).isSome = true) : SMap.get 0 (s.markCore p code).flt.marked p = code + 1 := by
  simp only [State.outOfPlay, Bool.or_eq_false_iff, bne_eq_false_iff_eq] at ho
  obtain ⟨⟨hr, hf⟩, hm⟩ := ho
  have hno : (s.logicalOf p).isNone = false := by rw [Option.isNone_eq_false_iff]; exact hl
  have hfree : ¬((decide (176 ≤ p) || s.retired p || s.fusedOff p || decide (SMap.get 0 s.flt.marked p ≠ 0)) = true) := by
    simp [hr, hf, hm]; omega
  unfold State.markCore
  rw [if_neg hfree, if_neg (by simp [hno])]
  dsimp only
  split_ifs
  · obtain ⟨-, -, hk, -⟩ := (State.noJoker_spares { s with flt := { s.flt with marked := SMap.set 0 s.flt.marked p (code + 1) } } (p / 11) (p + 1)).2 p
      (by omega)
    rw [hk]
    exact SMap.get_set_same _ _ _ _
  · exact SMap.get_set_same _ _ _ _

/-- One part against the retirement threshold (R459). -/
def State.markIfWorn (s : State) (q : Nat) : State := if s.rd R.FLT_HEALTH_RETIRE ≤ s.score q then s.markCore q 0x0C02 else s

theorem State.markWorn_eq (s : State) : s.markWorn = (List.range 176).foldl State.markIfWorn s := rfl

theorem State.markIfWorn_spares (s : State) (q : Nat) : s.spares (s.markIfWorn q) q := by
  unfold State.markIfWorn
  split_ifs
  · exact s.markCore_spares q _
  · exact State.spares.refl s q

/-- Parts checked against the threshold: the others stay as they stand. -/
theorem State.markMany_spares (l : List Nat) : ∀ s : State, s.sameMachine (l.foldl State.markIfWorn s) ∧
    ∀ p, p ∉ l → s.samePart (l.foldl State.markIfWorn s) p := by
  induction l with
  | nil => exact fun s => ⟨(State.spares.refl s 0).1, fun p _ => State.samePart_of_flt ⟨rfl, rfl, rfl⟩ p⟩
  | cons q l ih =>
    intro s
    obtain ⟨h1, h2⟩ := ih (s.markIfWorn q)
    obtain ⟨g1, g2⟩ := s.markIfWorn_spares q
    refine ⟨g1.trans h1, fun p hp => ?_⟩
    rw [List.mem_cons, not_or] at hp
    exact (g2 p hp.1).trans (h2 p hp.2)

theorem State.samePart.outOfPlay {s t : State} {p : Nat} (h : s.samePart t p) (hf : t.fuses = s.fuses) :
    t.outOfPlay p = s.outOfPlay p ∧ t.logicalOf p = s.logicalOf p := by
  obtain ⟨h1, h2, h3, -⟩ := h
  unfold State.outOfPlay State.logicalOf State.fusedOff
  rw [h1, h2, h3, hf]
  exact ⟨rfl, rfl⟩

/-- Every part in play that has a logical core and whose score has reached the threshold is marked (R459). -/
theorem State.markMany_marks (p : Nat) (hp : p < 176) (l : List Nat) (hn : l.Nodup) (hm : p ∈ l) : ∀ s : State,
    s.outOfPlay p = false → (s.logicalOf p).isSome = true → s.rd R.FLT_HEALTH_RETIRE ≤ s.score p →
    SMap.get 0 (l.foldl State.markIfWorn s).flt.marked p = 0x0C03 := by
  induction l with
  | nil => simp at hm
  | cons q l ih =>
    obtain ⟨hq, hn⟩ := List.nodup_cons.1 hn
    intro s ho hl hs
    rw [List.foldl_cons]
    obtain ⟨⟨-, -, -, hfuses, hthr⟩, hothers⟩ := s.markIfWorn_spares q
    by_cases h : p = q
    · subst h
      obtain ⟨-, -, hk, -⟩ := (State.markMany_spares l (s.markIfWorn p)).2 p hq
      rw [hk, State.markIfWorn, if_pos hs]
      exact State.markCore_marks 0x0C02 hp ho hl
    · have hk := hothers p h
      obtain ⟨h1, h2⟩ := hk.outOfPlay hfuses
      obtain ⟨-, -, -, hscore⟩ := hk
      refine ih hn ((List.mem_cons.1 hm).resolve_left h) _ (h1.trans ho) (by rw [h2]; exact hl) ?_
      rw [hthr, hscore]
      exact hs

/-! ### FLT_HEALTH_RETIRE (R459) -/

/-- Every page but those of the hub, the supervisor and the power controller is answered while the dealer is up (R486). -/
theorem State.dealerUp_of_reachable {s : State} {b : Block} {inst : Nat} (h : s.reachable b inst)
    (hb : b ∉ [Block.hub, .aon, .pwr]) : s.dealerUp = true := by
  have ha := h.1
  unfold State.answers at ha
  cases b <;> simp_all

theorem State.onlyRegs.dealerUp {s t : State} {ks : List Nat} (h : s.onlyRegs t) (hk : FieldsKept s t ks)
    (hn : R.HUB_FW_STATUS_STATE.key 0 0 ∉ ks) : t.dealerUp = s.dealerUp := by
  unfold State.dealerUp State.up
  rw [hk _ _ _ hn, h]

theorem State.onlyRegs.healthMode {s t : State} (h : s.onlyRegs t) : t.healthMode = s.healthMode := by
  unfold State.healthMode
  rw [h]

/-- A new retirement threshold acts on the scores as they stand, in health mode (R459). -/
theorem State.writeWord_threshold {s : State} (hr : s.reachable .flt 0) {word : Nat} (hw : word < 2 ^ 32) :
    let t := s.writeWord .flt 0 0x064 word
    t.cores = s.cores ∧ t.hbm = s.hbm ∧ t.tick = s.tick ∧ t.rd R.FLT_HEALTH_RETIRE = word ∧
    (s.healthMode = false → FieldsKept s t [R.FLT_HEALTH_RETIRE.key 0 0]) ∧
    (s.healthMode = true → ∀ p < 176, s.outOfPlay p = false → (s.logicalOf p).isSome = true → word ≤ s.score p →
      SMap.get 0 t.flt.marked p = 0x0C03) := by
  obtain ⟨idx, h⟩ := s.writeWord_acting (b := .flt) (inst := 0) (off := 0x064) rfl rfl (by decide) (by decide) word
  have hf := State.writeFields_onlyRegs 0 word (Block.flt.fieldsAt 0x064) s
  have hk := State.writeFields_kept 0 word (Block.flt.fieldsAt 0x064) s
  have hrd := State.rd_writeFields_plain (s := s) (inst := 0) (word := word) (fs := Block.flt.fieldsAt 0x064) (by decide) (by decide)
    (fun y hy => ⟨s.locked_unlocked (.inl (by revert y; decide)) _, by revert y; decide, by revert y; decide⟩) (R.FLT_HEALTH_RETIRE, 0) (by decide)
  have hword : bitsOf word 0 32 = word := Nat.mod_eq_of_lt hw
  rw [show R.FLT_HEALTH_RETIRE.lsb = 0 from rfl, show R.FLT_HEALTH_RETIRE.width = 32 from rfl, hword] at hrd
  have hup := (hf.dealerUp hk (by decide)).trans (State.dealerUp_of_reachable hr (by decide))
  change s.writeWord .flt 0 0x064 word = (s.writeFields 0 word (Block.flt.fieldsAt 0x064)).rescore at h
  rw [h]
  unfold State.rescore
  rw [hup, hf.healthMode]
  generalize s.writeFields 0 word (Block.flt.fieldsAt 0x064) = u at *
  cases hm : s.healthMode with
  | false =>
    refine ⟨?_, ?_, ?_, hrd, fun _ => hk, fun h => absurd h (by simp)⟩ <;> simp only [Bool.and_false, Bool.false_eq_true, if_false] <;> rw [hf]
  | true =>
    simp only [Bool.and_self, if_true, State.markWorn_eq]
    obtain ⟨⟨g1, g2, g3, -, g5⟩, -⟩ := State.markMany_spares (List.range 176) u
    refine ⟨g1.trans (by rw [hf]), g2.trans (by rw [hf]), g3.trans (by rw [hf]), g5.trans hrd, fun h => absurd h (by simp), ?_⟩
    intro _ p hp ho hl hs
    have hsame : s.samePart u p := State.samePart_of_flt (by rw [hf]; exact ⟨rfl, rfl, rfl⟩) p
    obtain ⟨h1, h2⟩ := hsame.outOfPlay (by rw [hf])
    obtain ⟨-, -, -, h3⟩ := hsame
    exact State.markMany_marks p hp _ List.nodup_range (List.mem_range.2 hp) u (h1.trans ho) (by rw [h2]; exact hl) (by rw [hrd, h3]; exact hs)

/-! ### WSL_CONVERT (R369) -/

/-- Converting the holders of a slot touches the requests and their count only. -/
theorem State.convert_frame (s : State) (m : Nat) :
    s.convert m = { s with regs := (s.convert m).regs, reqs := (s.convert m).reqs } ∧
    FieldsKept s (s.convert m) [R.WSL_CNT_CONVERT.key 0 0] := by
  unfold State.convert
  dsimp only
  split_ifs
  · exact ⟨rfl, ((FieldsKept.refl s _).of_regs rfl).bumpBy _ (by decide)⟩
  · exact ⟨rfl, FieldsKept.refl s _⟩

/-- When every holder of a RETIRING slot may be converted, none holds it any longer (R369). -/
theorem State.convert_releases {s : State} {m : Nat} (hst : (s.wslot (2 * m + 1)).st = .retiring)
    (hall : ∀ r ∈ s.reqs, r.pins (2 * m + 1) (s.wslot (2 * m + 1)).epoch = true → bitOf (s.rd R.WSL_CONVERT) (r.key / 512) = true) :
    ∀ r ∈ (s.convert m).reqs, r.pins (2 * m + 1) (s.wslot (2 * m + 1)).epoch = false := by
  intro r hr
  by_cases hh : s.reqs.filter (fun r => r.pins (2 * m + 1) (s.wslot (2 * m + 1)).epoch) = []
  · unfold State.convert at hr
    dsimp only at hr
    rw [if_neg (fun h => h.2.1 hh)] at hr
    exact Bool.eq_false_iff.2 (fun hp => List.not_mem_nil (hh ▸ List.mem_filter.2 ⟨hr, hp⟩))
  · unfold State.convert at hr
    dsimp only at hr
    rw [if_pos ⟨hst, hh, List.all_eq_true.2 (fun x hx => hall x (List.mem_filter.1 hx).1 (List.mem_filter.1 hx).2)⟩] at hr
    obtain ⟨x, -, rfl⟩ := List.mem_map.1 hr
    split_ifs with hp
    · simp [Req.pins]
    · simpa using hp

/-- What a waiting STAGE converts, and what it leaves (R369). -/
theorem State.convertWaiting_frame (s : State) :
    s.convertWaiting = { s with regs := s.convertWaiting.regs, reqs := s.convertWaiting.reqs } ∧
    FieldsKept s s.convertWaiting [R.WSL_CNT_CONVERT.key 0 0] := by
  unfold State.convertWaiting
  split
  · exact s.convert_frame _
  · exact ⟨rfl, FieldsKept.refl s _⟩

/-- A write of WSL_CONVERT lets a waiting STAGE convert the holders of its slot (R369). -/
theorem State.writeWord_convert {s : State} (hr : s.reachable .wsl 0) (word : Nat) :
    let t := s.writeWord .wsl 0 0x054 word
    t.cores = s.cores ∧ t.hbm = s.hbm ∧ t.tick = s.tick ∧
    (∀ y ∈ Block.wsl.fieldsAt 0x054, t.rd y.1 0 y.2 = bitsOf word y.1.lsb y.1.width) ∧
    FieldsKept s t (regKeys 0 (Block.wsl.fieldsAt 0x054) ++ [R.WSL_CNT_CONVERT.key 0 0]) ∧
    ∀ e m, s.wcmd = some (.stage e, m) → (s.wslot (2 * m + 1)).st = .retiring →
      (∀ r ∈ s.reqs, r.pins (2 * m + 1) (s.wslot (2 * m + 1)).epoch = true → bitOf (t.rd R.WSL_CONVERT) (r.key / 512) = true) →
      ∀ r ∈ t.reqs, r.pins (2 * m + 1) (s.wslot (2 * m + 1)).epoch = false := by
  obtain ⟨idx, h⟩ := s.writeWord_acting (b := .wsl) (inst := 0) (off := 0x054) rfl rfl (by decide) (by decide) word
  have hf := State.writeFields_onlyRegs 0 word (Block.wsl.fieldsAt 0x054) s
  have hk := State.writeFields_kept 0 word (Block.wsl.fieldsAt 0x054) s
  have hrd := State.rd_writeFields_plain (s := s) (inst := 0) (word := word) (fs := Block.wsl.fieldsAt 0x054) (by decide) (by decide)
    (fun y hy => ⟨s.locked_unlocked (.inl (by revert y; decide)) _, by revert y; decide, by revert y; decide⟩)
  have hw : s.writeWord .wsl 0 0x054 word = (s.writeFields 0 word (Block.wsl.fieldsAt 0x054)).convertWaiting.settle := by
    rw [h]
    simp [State.aroundWrite, State.dealerUp_of_reachable hr]
  intro t
  have ht : t = s.writeWord .wsl 0 0x054 word := rfl
  rw [hw] at ht
  clear_value t
  generalize s.writeFields 0 word (Block.wsl.fieldsAt 0x054) = u at *
  obtain ⟨hc, hkc⟩ := u.convertWaiting_frame
  have hregs : t.regs = u.convertWaiting.regs := by rw [ht]; rfl
  have hreqs : t.reqs = u.convertWaiting.reqs := by rw [ht]; rfl
  have hkt : FieldsKept u t [R.WSL_CNT_CONVERT.key 0 0] := hkc.of_regs hregs
  have hconv : t.rd R.WSL_CONVERT = u.rd R.WSL_CONVERT := hkt _ _ _ (by decide)
  unfold State.onlyRegs at hf
  refine ⟨?_, ?_, ?_, fun y hy => ?_, ?_, ?_⟩
  · rw [ht, show u.convertWaiting.settle.cores = u.convertWaiting.cores from rfl, hc, hf]
  · rw [ht, show u.convertWaiting.settle.hbm = u.convertWaiting.hbm from rfl, hc, hf]
  · rw [ht, show u.convertWaiting.settle.tick = u.convertWaiting.tick from rfl, hc, hf]
  · rw [hkt _ _ _ (by revert y; decide)]
    exact hrd y hy
  · exact (hk.mono (List.subset_append_left _ _)).trans (hkt.mono (List.subset_append_right _ _))
  · intro e m hcmd hst hall
    have hslot : u.wslot (2 * m + 1) = s.wslot (2 * m + 1) := by unfold State.wslot; rw [hf]
    have hur : u.reqs = s.reqs := by rw [hf]
    have huc : u.wcmd = some (.stage e, m) := by rw [hf]; exact hcmd
    have hcw : u.convertWaiting = u.convert m := by unfold State.convertWaiting; rw [huc]
    rw [hreqs, hcw, ← hslot]
    rw [← hslot] at hst
    refine State.convert_releases hst (fun r hr hp => ?_)
    rw [← hconv]
    exact hall r (hur ▸ hr) (hslot ▸ hp)

/-! ### DPL_CMD (R372) -/

/-- A pool command of a row of its own leaves the register; one of no row is refused (R372). -/
theorem State.writeWord_pool (s : State) (word : Nat) :
    s.writeWord .dpl 0 0x048 word =
      if 1 ≤ word % 16 ∧ word % 16 ≤ 4 then s else s.dplStatus 3 (if bitOf s.fuses.engines 7 then 3 else 1) := by
  obtain ⟨idx, h⟩ := s.writeWord_acting (b := .dpl) (inst := 0) (off := 0x048) rfl rfl (by decide) (by decide) word
  have hwo : ∀ y ∈ Block.dpl.fieldsAt 0x048, y.1.acc = .wo := by decide
  have hs : s.writeFields 0 word (Block.dpl.fieldsAt 0x048) = s :=
    State.writeFields_dropped 0 word (fun y hy => .inr (.inr (.inr (hwo y hy))))
  rw [h]
  simp only [State.aroundWrite, hs]

/-! ### TIM_CFG (R305, R311) -/

/-- The fields that show the time state and the followed port. -/
def timeStateKeys : List Nat :=
  [R.TIM_STATUS_STATE, R.TIM_STATUS_STRATUM, R.TIM_STATUS_ALT, R.TIM_STATUS_PORT].map (fun f => f.key 0 0)

/-- `t` is `s` but for the time state, with its fields. -/
def State.onlyTimeState (s t : State) : Prop := t = { s with regs := t.regs, timing := t.timing } ∧ FieldsKept s t timeStateKeys

theorem State.onlyTimeState.wr {s t : State} (h : s.onlyTimeState t) {f : Fld} (v : Nat) (hf : f.key 0 0 ∈ timeStateKeys) :
    s.onlyTimeState (t.wr f v) := by
  obtain ⟨h1, h2⟩ := h
  have hw : t.wr f v = { t with regs := (t.wr f v).regs } := rfl
  exact ⟨by rw [hw, h1], h2.wr v hf⟩

theorem State.onlyTimeState.timing {s t : State} (h : s.onlyTimeState t) (x : TimeSt) : s.onlyTimeState { t with timing := x } := by
  obtain ⟨h1, h2⟩ := h
  exact ⟨by rw [h1], h2.of_regs rfl⟩

theorem State.onlyTimeState.refl (s : State) : s.onlyTimeState s := ⟨rfl, FieldsKept.refl s _⟩

theorem State.rd_timing (s : State) (x : TimeSt) (f : Fld) (i k : Nat) : State.rd { s with timing := x } f i k = s.rd f i k := rfl

theorem State.ownTime_frame (s : State) (st stratum : Nat) : s.onlyTimeState (s.ownTime st stratum) :=
  ((((State.onlyTimeState.refl s).wr st (by decide)).wr stratum (by decide)).wr (f := R.TIM_STATUS_ALT) 0 (by decide)).timing _

theorem State.rd_ownTime (s : State) (st stratum : Nat) : (s.ownTime st stratum).rd R.TIM_STATUS_STATE = st % 8 := by
  unfold State.ownTime
  dsimp only
  rw [State.rd_timing]
  simp (disch := decide) only [State.rd_wr_ne, State.rd_wr_same]
  rfl

/-- The time state that TIM_CFG asks for while the package does not follow its second port (R305). -/
def State.askedState (s : State) : Nat :=
  if s.rd R.TIM_CFG_ROOT = 1 then 4 else if s.rd R.TIM_CFG_PARENT_VALID = 1 then
    (if s.rd R.TIM_STATUS_STATE = 0 ∨ s.rd R.TIM_STATUS_STATE = 4 then 1 else s.rd R.TIM_STATUS_STATE) else 0

theorem State.timeConfig_frame {s : State} (halt : s.rd R.TIM_STATUS_ALT = 0) :
    s.onlyTimeState s.timeConfig ∧ s.timeConfig.rd R.TIM_STATUS_STATE = s.askedState := by
  have hr := State.onlyTimeState.refl s
  unfold State.timeConfig State.askedState State.on
  simp only [halt, beq_iff_eq, Bool.not_eq_eq_eq_not, Bool.not_true, beq_eq_false_iff_ne, ne_eq, ite_not, zero_ne_one, if_false]
  split_ifs with h1 h2 h3
  · exact ⟨s.ownTime_frame 4 0, s.rd_ownTime 4 0⟩
  · refine ⟨((((hr.wr 1 (by decide)).wr 255 (by decide)).wr 0 (by decide)).wr (f := R.TIM_STATUS_PORT) _ (by decide)).timing _, ?_⟩
    rw [State.rd_timing]
    simp (disch := decide) only [State.rd_wr_ne, State.rd_wr_same]
    rfl
  · exact ⟨hr.wr _ (by decide), State.rd_wr_ne _ _ _ _ _ _ _ _ (by decide)⟩
  · exact ⟨s.ownTime_frame 0 255, s.rd_ownTime 0 255⟩

/-- A write of TIM_CFG takes the time state that it asks for (R305, R327). -/
theorem State.writeWord_timeConfig {s : State} (halt : s.rd R.TIM_STATUS_ALT = 0) (word : Nat) :
    let t := s.writeWord .tim 0 0x044 word
    t.cores = s.cores ∧ t.tick = s.tick ∧ t.time = s.time ∧
    (∀ y ∈ Block.tim.fieldsAt 0x044, t.rd y.1 0 y.2 = bitsOf word y.1.lsb y.1.width) ∧
    t.rd R.TIM_STATUS_STATE = (if t.rd R.TIM_CFG_ROOT = 1 then 4 else if t.rd R.TIM_CFG_PARENT_VALID = 0 then 0
      else if s.rd R.TIM_STATUS_STATE = 0 ∨ s.rd R.TIM_STATUS_STATE = 4 then 1 else s.rd R.TIM_STATUS_STATE) ∧
    FieldsKept s t (regKeys 0 (Block.tim.fieldsAt 0x044) ++ timeStateKeys ++ bringupKeys) := by
  obtain ⟨idx, h⟩ := s.writeWord_acting (b := .tim) (inst := 0) (off := 0x044) rfl rfl (by decide) (by decide) word
  have hf := State.writeFields_onlyRegs 0 word (Block.tim.fieldsAt 0x044) s
  have hk := State.writeFields_kept 0 word (Block.tim.fieldsAt 0x044) s
  have hrd := State.rd_writeFields_plain (s := s) (inst := 0) (word := word) (fs := Block.tim.fieldsAt 0x044) (by decide) (by decide)
    (fun y hy => ⟨s.locked_unlocked (.inl (by revert y; decide)) _, by revert y; decide, by revert y; decide⟩)
  change s.writeWord .tim 0 0x044 word = s.timeWrite (fun s => s.writeFields 0 word (Block.tim.fieldsAt 0x044)) at h
  unfold State.timeWrite at h
  dsimp only at h
  intro t
  have ht : t = s.writeWord .tim 0 0x044 word := rfl
  rw [h] at ht
  clear_value t
  generalize s.writeFields 0 word (Block.tim.fieldsAt 0x044) = u at *
  have hst : u.rd R.TIM_STATUS_STATE = s.rd R.TIM_STATUS_STATE := hk _ _ _ (by decide)
  obtain ⟨⟨hc, hkc⟩, hask⟩ := u.timeConfig_frame ((hk R.TIM_STATUS_ALT 0 0 (by decide)).trans halt)
  generalize u.timeConfig = v at *
  obtain ⟨w, hw, hwc, hwt, hwm, hwk⟩ : ∃ w : State, t = w.stages ∧ w.cores = v.cores ∧ w.tick = v.tick ∧ w.time = v.time ∧ w.regs = v.regs := by
    split_ifs at ht
    · exact ⟨_, ht, rfl, rfl, rfl, rfl⟩
    · exact ⟨v, ht, rfl, rfl, rfl, rfl⟩
  have hg := w.stages_onlyRegs
  have hks : FieldsKept v t bringupKeys := by
    rw [hw]
    exact ((FieldsKept.refl v _).of_regs hwk).trans w.stages_kept
  rw [← hw] at hg
  have hkt : FieldsKept u t (timeStateKeys ++ bringupKeys) :=
    (hkc.mono (List.subset_append_left _ _)).trans (hks.mono (List.subset_append_right _ _))
  have hvalid : u.rd R.TIM_CFG_PARENT_VALID < 2 := by
    rw [hrd (R.TIM_CFG_PARENT_VALID, 0) (by decide)]
    exact bitsOf_lt _ _ _
  refine ⟨?_, ?_, ?_, fun y hy => ?_, ?_, ?_⟩
  · rw [hg]; exact hwc.trans (by rw [hc, hf])
  · rw [hg]; exact hwt.trans (by rw [hc, hf])
  · rw [hg]; exact hwm.trans (by rw [hc, hf])
  · rw [hkt _ _ _ (by revert y; decide)]
    exact hrd y hy
  · rw [hks R.TIM_STATUS_STATE 0 0 (by decide), hkt R.TIM_CFG_ROOT 0 0 (by decide), hkt R.TIM_CFG_PARENT_VALID 0 0 (by decide), hask]
    unfold State.askedState
    rw [hst]
    clear hrd hg hf hc h ht hw hk hkc hks hkt
    generalize u.rd R.TIM_CFG_PARENT_VALID = x at hvalid ⊢
    interval_cases x <;> simp
  · rw [List.append_assoc]
    exact (hk.mono (List.subset_append_left _ _)).trans (hkt.mono (List.subset_append_right _ _))

/-! ## Writes that are dropped (R6, R480, R481, R486) -/

theorem State.not_drops_unlocked {s : State} {b : Block} {x : Fld × Nat} (hx : x.1 ∈ Fld.ofBlock b)
    (h : (b, x.1.off) ∈ unlockedRegisters ∨ x.1.off = 0x010) : ¬s.drops x := by
  have hplain : ∀ b, ∀ f ∈ Fld.ofBlock b, (b, f.off) ∈ unlockedRegisters ∨ f.off = 0x010 →
      f.ownCommand = false ∧ f.acc ≠ .ro ∧ f.acc ≠ .wo := by
    intro b; cases b <;> decide +kernel
  obtain ⟨h1, h2, h3⟩ := hplain b _ hx h
  have h4 : s.locked x.1 x.2 = false := s.locked_unlocked (by rw [Fld.blk_of_mem hx]; exact h) _
  simp [State.drops, h1, h2, h3, h4]

/-- A register that locks while a plan image is loaded and takes every write else: only then is its write dropped. -/
theorem State.loaded_of_drops {s : State} {b : Block} {x : Fld × Nat} (hx : x.1 ∈ Fld.ofBlock b)
    (h : (b, x.1.off) ∈ [(Block.xpk, 0x058), (.wsl, 0x100), (.rte, 0x048)]) (hd : s.drops x) : s.loaded = true := by
  have hplain : ∀ b, ∀ f ∈ Fld.ofBlock b, (b, f.off) ∈ [(Block.xpk, 0x058), (.wsl, 0x100), (.rte, 0x048)] →
      f.ownCommand = false ∧ f.acc ≠ .ro ∧ f.acc ≠ .wo := by
    intro b; cases b <;> decide +kernel
  obtain ⟨h1, h2, h3⟩ := hplain b _ hx h
  have hb := Fld.blk_of_mem hx
  have h4 : s.locked x.1 x.2 = s.loaded := by
    simp only [List.mem_cons, Prod.ext_iff, List.not_mem_nil, or_false] at h
    unfold State.locked
    rcases h with ⟨rfl, ho⟩ | ⟨rfl, ho⟩ | ⟨rfl, ho⟩ <;> simp only [hb, ho]
  simpa [State.drops, h1, h2, h3, h4] using hd

/-- A write whose fields are all dropped changes nothing, the pool command apart. -/
theorem State.aroundWrite_dropped {s : State} {b : Block} {x : Fld × Nat} (hx : x.1 ∈ Fld.ofBlock b) (hd : s.drops x)
    (hp : (b, x.1.off) ≠ (.dpl, 0x048)) (inst idx word : Nat) {act : State → State} (ha : act s = s) :
    State.aroundWrite b inst idx x.1.off word act s = s := by
  have hopen := State.not_drops_unlocked (s := s) hx
  have hload := State.loaded_of_drops (s := s) hx
  unfold State.aroundWrite
  generalize x.1.off = o at *
  split
  · exact absurd hd (hopen (.inl (by decide)))
  · exact absurd hd (hopen (.inl (by decide)))
  · exact absurd rfl hp
  · exact absurd hd (hopen (.inl (by decide)))
  · rw [if_pos (hload (by decide) hd), ha]
  · exact absurd hd (hopen (.inl (by decide)))
  · rw [if_pos (hload (by decide) hd), ha]
  · rw [if_pos (hload (by decide) hd), ha]
  · exact absurd hd (hopen (.inr rfl))
  · exact ha

/-- A register of locked and read-only fields stays as it is, and nothing else changes. -/
theorem State.writeWord_dropped {s : State} {b : Block} {inst off : Nat} (hpa : s.pageAbsent b inst = false)
    (hd : ddrOnly b inst off = false) (word : Nat) (hp : (b, off) ≠ (.dpl, 0x048)) (h : ∀ y ∈ b.fieldsAt off, s.drops y) :
    s.writeWord b inst off word = s := by
  obtain ⟨-, hw⟩ | ⟨x, hx, hw⟩ := s.writeWord_fields hpa hd word
  · exact hw
  · rw [hw]
    refine State.aroundWrite_dropped (Block.mem_fieldsAt hx).1 (h x hx) (fun e => hp ?_) inst x.2 word (State.writeFields_dropped inst word h)
    obtain ⟨rfl, ho⟩ := Prod.ext_iff.1 e
    rw [Block.off_of_mem hx (by decide) ho]

/-- An access that R480 or R481 refuses is counted and changes nothing else. -/
theorem State.badAccess_counted (s : State) : s.onlyRegs s.badAccess ∧ Counted s s.badAccess R.HIF_CNT_BAD_ACCESS 0 ∧
    FieldsKept s s.badAccess [R.HIF_CNT_BAD_ACCESS.key 0 0] := by
  refine ⟨(State.onlyRegs.refl s).wr _ _ _ _, ?_, (FieldsKept.refl s _).bump (by simp)⟩
  unfold Counted State.badAccess State.bump State.bumpBy
  rw [State.rd_wr_same]
  have : 0 < 2 ^ R.HIF_CNT_BAD_ACCESS.width := by decide
  exact Nat.mod_eq_of_lt (by omega)

theorem State.registerWrite_refused {s : State} {addr : Nat} {b : Block} {inst : Nat} {enable : BitVec 4}
    (hp : pageAt addr = some (b, inst)) (h : addr % 4 ≠ 0 ∨ enable ≠ 0xF#4) (ha : s.answers b = true) (word : Nat) :
    s.registerWrite addr enable word = s.badAccess := by
  unfold State.registerWrite
  rw [hp]
  simp only [if_pos h, ha, if_true]

theorem State.registerWrite_unanswered {s : State} {addr : Nat} {b : Block} {inst : Nat}
    (hp : pageAt addr = some (b, inst)) (ha : s.answers b = false) (enable : BitVec 4) (word : Nat) :
    s.registerWrite addr enable word = s := by
  unfold State.registerWrite State.hostCmd
  rw [hp]
  simp [ha]

theorem State.registerWrite_outside {s : State} {addr : Nat} (hp : pageAt addr = none) (ha : s.answers .hif = true)
    (enable : BitVec 4) (word : Nat) : s.registerWrite addr enable word = s.badAccess := by
  unfold State.registerWrite
  rw [hp]
  simp only [ha, if_true]

/-! ## Reads of registers (R480 to R482) -/

theorem exec_latchedPairRead (addr : Nat) (enable : BitVec 4) (s : State) :
    exec (.latchedPairRead (.bar0 addr enable)) s = .next (s.registerRead addr enable) := rfl

theorem State.reached_of_answers {s : State} {b : Block} (h : s.answers b = true) : s.reached = true := by
  unfold State.answers at h
  exact (Bool.and_eq_true_iff.1 h).1

theorem enabled_all (v : Nat) : enabled 0xF#4 v = v := if_pos rfl

/-- A digit of a word that is put together from four bytes. -/
theorem bitsOf_bytes (d : Nat → Nat) (hd : ∀ j, d j < 256) (i : Nat) (hi : i < 4) :
    bitsOf (((List.range 4).map (fun j => 2 ^ (8 * j) * d j)).sum) (8 * i) 8 = d i := by
  have h0 := hd 0
  have h1 := hd 1
  have h2 := hd 2
  have h3 := hd 3
  simp only [bitsOf, Nat.shiftRight_eq_div_pow, List.range_succ, List.range_zero, List.nil_append, List.cons_append, List.map_cons, List.map_nil,
    List.sum_cons, List.sum_nil]
  interval_cases i <;> omega

/-- The bytes that a read enables are delivered (R481). -/
theorem bitsOf_enabled (enable : BitVec 4) (v i : Nat) (hi : i < 4) (he : enable.getLsbD i = true) :
    bitsOf (enabled enable v) (8 * i) 8 = bitsOf v (8 * i) 8 := by
  unfold enabled
  split_ifs
  · rfl
  · have hb (j : Nat) : (if enable.getLsbD j then 2 ^ (8 * j) * bitsOf v (8 * j) 8 else 0) =
        2 ^ (8 * j) * (if enable.getLsbD j then bitsOf v (8 * j) 8 else 0) := by split_ifs <;> rfl
    simp only [hb]
    rw [bitsOf_bytes (fun j => if enable.getLsbD j then bitsOf v (8 * j) 8 else 0) _ i hi, if_pos he]
    intro j
    split_ifs
    · exact bitsOf_lt v _ 8
    · decide

/-- A read latches the HI half of the pair whose LO half it returns, and changes nothing else (R482). -/
theorem State.latch_frame (s : State) (b : Block) (inst off : Nat) :
    s.latch b inst off = { s with latches := (s.latch b inst off).latches } ∧
    (b.isLo off = true → SMap.get noLatch (s.latch b inst off).latches (b.page inst + off) = s.word b inst (off + 4)) ∧
    (b.isLo off = false → (s.latch b inst off).latches = s.latches) := by
  unfold State.latch
  split_ifs with h
  · exact ⟨rfl, fun _ => SMap.get_set_same _ _ _ _, fun h' => absurd h (by simp [h'])⟩
  · exact ⟨rfl, fun h' => absurd h' h, fun _ => rfl⟩

/-- A read of a register that is no window onto other state returns its word. -/
theorem State.load_word {b : Block} {off : Nat} (h : (b, off) ∉ [(Block.spm, 0x064), (.rte, 0x044)]) (s : State) (inst : Nat) :
    s.load b inst off = (s.readWord b inst off, s.latch b inst off) := by
  unfold State.load
  split
  · exact absurd (by decide) h
  · exact absurd (by decide) h
  · rfl

theorem State.registerRead_acts {s : State} {addr : Nat} {b : Block} {inst : Nat} (hp : pageAt addr = some (b, inst))
    (hr : s.reachable b inst) (enable : BitVec 4) :
    s.registerRead addr enable =
      (s.load b inst (addr % 0x1000 / 4 * 4)).2.emit (.readData (enabled enable (s.load b inst (addr % 0x1000 / 4 * 4)).1)) := by
  unfold State.registerRead
  rw [hp]
  exact State.hostLoad_acts _ hr

theorem State.registerRead_unanswered {s : State} {addr : Nat} {b : Block} {inst : Nat} (hp : pageAt addr = some (b, inst))
    (hr : s.reached = true) (ha : s.answers b = false) (enable : BitVec 4) :
    s.registerRead addr enable = s.emit (.readData 0xFFFFFFFF) := by
  unfold State.registerRead State.hostLoad
  rw [hp]
  simp [hr, ha]

/-- The page of a core's scratchpad registers (R485). -/
theorem pageAt_spm (p : Fin 176) : pageAt (Block.page .spm p + 0x064) = some (.spm, p.val) ∧
    (Block.page .spm p + 0x064) % 0x1000 / 4 * 4 = 0x064 := by
  revert p
  decide +kernel

/-- A whole read of a register is a host read of what the register loads. -/
theorem State.registerRead_whole {addr : Nat} {b : Block} {inst off : Nat} (hp : pageAt addr = some (b, inst))
    (ho : addr % 0x1000 / 4 * 4 = off) (s : State) : s.registerRead addr 0xF#4 = s.hostLoad b inst (fun s => s.load b inst off) := by
  unfold State.registerRead
  rw [hp]
  simp only [ho, enabled_all]

/-- A read of SPM_DBG_DATA is the row SPM_DBG_READ (R487). -/
theorem State.registerRead_spmData (s : State) (p : Fin 176) :
    exec (.latchedPairRead (.bar0 (Block.page .spm p + 0x064) 0xF#4)) s = exec (.spmDbgRead p) s := by
  obtain ⟨hp, ho⟩ := pageAt_spm p
  simp only [exec, execLatchedPairRead, State.registerRead_whole hp ho, State.load, execSpmDbgRead]

/-- A read of RTE_DATA_LO is the row ROUTE_ENTRY_READ (R292). -/
theorem State.registerRead_routeData (s : State) :
    exec (.latchedPairRead (.bar0 (Block.page .rte 0 + 0x044) 0xF#4)) s = exec .routeEntryRead s := by
  have hp : pageAt (Block.page .rte 0 + 0x044) = some (.rte, 0) := by decide +kernel
  have ho : (Block.page .rte 0 + 0x044) % 0x1000 / 4 * 4 = 0x044 := by decide +kernel
  simp only [exec, execLatchedPairRead, State.registerRead_whole hp ho, State.load, execRouteEntryRead]

/-! ## Commands on a page that is not answered (R486) -/

/-- Every command of the host on a register page is a host write of that page. -/
theorem exec_command {c : Instr} {b : Block} {inst : Nat} (h : commandPage c = some (b, inst)) (s : State) :
    ∃ act, exec c s = .next (s.hostCmd b inst act) := by
  cases c <;> cases h <;> exact ⟨_, rfl⟩

theorem exec_command_unanswered {c : Instr} {b : Block} {inst : Nat} (h : commandPage c = some (b, inst)) {s : State}
    (ha : s.answers b = false) : exec c s = .next s := by
  obtain ⟨act, he⟩ := exec_command h s
  rw [he]
  simp [State.hostCmd, ha]

/-! ## Registers are accessed (O56) -/

/-- A write of a register at a known offset of a page of the hub. -/
theorem State.registerWrite_hub {s : State} {addr : Nat} {b b' : Block} {inst off : Nat} (hp : pageAt addr = some (b, inst))
    (ha : addr % 4 = 0) (hr : s.reachable b inst) (h : (b, addr % 0x1000) = (b', off)) (hb : b' ∈ hubPages) (word : Nat) :
    s.reachable b' 0 ∧ b = b' ∧ inst = 0 ∧ addr % 0x1000 = off ∧ s.registerWrite addr 0xF#4 word = s.writeWord b' 0 off word := by
  obtain ⟨hbb, ho⟩ := Prod.ext_iff.1 h
  dsimp only at hbb ho
  subst hbb
  obtain rfl := pageAt_hub hp hb
  exact ⟨hr, rfl, rfl, ho, by rw [State.registerWrite_acts hp ha hr, ho]⟩

/-- A refused pool command shows its state and reason and nothing else (R372). -/
theorem State.dplStatus_shows (s : State) {reason : Nat} (hr : reason < 2 ^ R.DPL_CMD_STATUS_REASON.width) :
    s.onlyRegs (s.dplStatus 3 reason) ∧ (s.dplStatus 3 reason).rd R.DPL_CMD_STATUS_STATE = 3 ∧
    (s.dplStatus 3 reason).rd R.DPL_CMD_STATUS_REASON = reason ∧
    FieldsKept s (s.dplStatus 3 reason) [R.DPL_CMD_STATUS_STATE.key 0 0, R.DPL_CMD_STATUS_REASON.key 0 0] := by
  unfold State.dplStatus
  refine ⟨((State.onlyRegs.refl s).wr _ _ _ _).wr _ _ _ _, ?_, ?_, ((FieldsKept.refl s _).wr _ (by simp)).wr _ (by simp)⟩
  · simp (disch := decide) only [State.rd_wr_ne, State.rd_wr_same]
    rfl
  · rw [State.rd_wr_same]
    exact Nat.mod_eq_of_lt hr

/-- A read of a register that is no window onto other state (R481, R482). -/
theorem State.registerRead_word {s : State} {addr : Nat} {b : Block} {inst : Nat} (hp : pageAt addr = some (b, inst))
    (hr : s.reachable b inst) (hw : (b, addr % 0x1000 / 4 * 4) ∉ [(Block.spm, 0x064), (.rte, 0x044)]) (enable : BitVec 4) :
    s.registerRead addr enable = { s with
      latches := (s.latch b inst (addr % 0x1000 / 4 * 4)).latches
      outbox := s.outbox ++ [.readData (enabled enable (s.readWord b inst (addr % 0x1000 / 4 * 4)))] } := by
  rw [State.registerRead_acts hp hr, State.load_word hw]
  have h := (s.latch_frame b inst (addr % 0x1000 / 4 * 4)).1
  generalize s.latch b inst (addr % 0x1000 / 4 * 4) = t at h ⊢
  dsimp only
  unfold State.emit
  rw [h]

theorem State.registerRead_outside {s : State} {addr : Nat} (hp : pageAt addr = none) (ha : s.answers .hif = true) (enable : BitVec 4) :
    s.registerRead addr enable = s.emit (.readData 0) := by
  unfold State.registerRead
  rw [hp]
  simp [State.reached_of_answers ha, ha]

/-- Settles O56: a register takes its word by the access codes of its fields, with what TIM_CFG, XPK_PCFG, DPL_CMD, FLT_HEALTH_RETIRE and
WSL_CONVERT do besides; a refused access is counted; a read delivers the word and changes no register. -/
theorem registersAreAccessed : Obligations.RegistersAreAccessed := by
  unfold Obligations.RegistersAreAccessed
  refine ⟨fun s addr value => ⟨?_, ?_, ?_, ?_, ?_, ?_, s.registerRead_spmData, s.registerRead_routeData⟩,
    fun s c b inst h ha => exec_command_unanswered h ha⟩
  · intro b inst hp ha hr hpa hd fs
    simp only [exec_registerWrite]
    refine ⟨fun hn hl hb hw => ?_, fun h hl => ?_, fun h => ?_, fun h => ?_, fun h => ?_, fun h halt => ?_, fun h hdrop => ?_⟩
    · rw [State.registerWrite_acts hp ha hr]
      obtain ⟨h1, h2, h3, h4, h5⟩ := State.writeWord_plain hpa hd value.toNat hn
        (fun k hk => by obtain ⟨y, hy, rfl⟩ := List.mem_map.1 hk; exact hl y hy) hb hw
      exact ⟨_, rfl, h1, h2, h3, h4, h5⟩
    · obtain ⟨-, rfl, rfl, ho, hwr⟩ := State.registerWrite_hub hp ha hr h (by decide) value.toNat
      have hfs : fs = Block.xpk.fieldsAt 0x058 := by rw [← ho]
      rw [hwr, hfs]
      obtain ⟨h1, h2, h3, h4⟩ := State.writeWord_xpkCfg hl value.toNat
      exact ⟨_, rfl, h1, h2, h3, h4⟩
    · obtain ⟨hr, rfl, rfl, ho, hwr⟩ := State.registerWrite_hub hp ha hr h (by decide) value.toNat
      rw [hwr]
      exact ⟨_, rfl, State.writeWord_threshold hr value.isLt⟩
    · obtain ⟨hr, rfl, rfl, ho, hwr⟩ := State.registerWrite_hub hp ha hr h (by decide) value.toNat
      have hfs : fs = Block.wsl.fieldsAt 0x054 := by rw [← ho]
      rw [hwr, hfs]
      exact ⟨_, rfl, State.writeWord_convert hr value.toNat⟩
    · obtain ⟨-, rfl, rfl, ho, hwr⟩ := State.registerWrite_hub hp ha hr h (by decide) value.toNat
      rw [hwr, State.writeWord_pool]
      refine ⟨fun h1 h2 => by rw [if_pos ⟨h1, h2⟩], fun hop => ?_⟩
      rw [if_neg (by omega)]
      exact ⟨_, rfl, s.dplStatus_shows (by split_ifs <;> decide)⟩
    · obtain ⟨-, rfl, rfl, ho, hwr⟩ := State.registerWrite_hub hp ha hr h (by decide) value.toNat
      have hfs : fs = Block.tim.fieldsAt 0x044 := by rw [← ho]
      rw [hwr, hfs]
      exact ⟨_, rfl, State.writeWord_timeConfig halt value.toNat⟩
    · rw [State.registerWrite_acts hp ha hr, State.writeWord_dropped hpa hd value.toNat h hdrop]
  · intro b inst enable hp h ha
    rw [exec_registerWrite, State.registerWrite_refused hp h ha]
    exact ⟨_, rfl, s.badAccess_counted⟩
  · intro b inst enable hp ha
    rw [exec_registerWrite, State.registerWrite_unanswered hp ha]
  · intro hp ha
    rw [exec_registerWrite, State.registerWrite_outside hp ha, exec_latchedPairRead, State.registerRead_outside hp ha]
    obtain ⟨-, h1, h2⟩ := s.badAccess_counted
    exact ⟨⟨_, rfl, h1, h2⟩, rfl⟩
  · intro b inst enable hp hr hw word
    obtain ⟨-, hlo, hhi⟩ := s.latch_frame b inst (addr % 0x1000 / 4 * 4)
    rw [exec_latchedPairRead, State.registerRead_word hp hr hw]
    exact ⟨_, enabled enable word, rfl, rfl, rfl, fun h => by rw [h, enabled_all], fun i => bitsOf_enabled enable word i, hlo, hhi⟩
  · intro b inst hp hr ha
    rw [exec_latchedPairRead, State.registerRead_unanswered hp hr ha]
    rfl

end Sys2Proof.Machine
end

-- ==== Fuses: shared operations ====
section
/-! PROOFS. What the operations that the instructions share leave of the fuses (O4): all of them. One law per operation, in the order of the
model; where a frame law of an earlier part says what an operation changes, it is that law. -/

namespace Sys2Proof.Machine

/-- Two states with the same fuses. -/
def SameFuses (s t : State) : Prop := t.fuses = s.fuses

@[simp] theorem sameFuses_iff (s t : State) : SameFuses s t ↔ t.fuses = s.fuses := Iff.rfl

theorem SameFuses.eq {s t : State} (h : SameFuses s t) : t.fuses = s.fuses := h

/-- A state named by a variable hides how it was made, so that no check of a later step of the proof computes with it. -/
theorem SameFuses.named {s t : State} (h : SameFuses s t) : ∃ u, t = u ∧ SameFuses s u := ⟨t, rfl, h⟩

/-- The fuses of a choice between two states are the choice between their fuses: with the laws below, every branch has the same. -/
@[simp] theorem State.ite_fuses (c : Prop) [Decidable c] (s t : State) : (if c then s else t).fuses = if c then s.fuses else t.fuses :=
  apply_ite _ _ _ _

/-- What every step of a loop keeps, the loop keeps. -/
theorem foldl_kept {α β γ : Type} (g : β → γ) {f : β → α → β} (h : ∀ b x, g (f b x) = g b) (l : List α) (b : β) :
    g (l.foldl f b) = g b := by
  induction l generalizing b with
  | nil => rfl
  | cons x xs ih => exact (ih _).trans (h b x)

/-- A loop whose every step keeps the fuses keeps them. -/
@[simp] theorem foldl_fuses {α : Type} {f : State → α → State} (s : State) (l : List α) (h : ∀ t x, SameFuses t (f t x)) :
    (l.foldl f s).fuses = s.fuses := foldl_kept State.fuses h l s

theorem State.onlyCounts_fuses {s t : State} (h : s.onlyCounts t) : t.fuses = s.fuses := by
  unfold State.onlyCounts at h
  rw [h]

/-! ## Registers, events and time -/

@[simp] theorem State.bumpPair_fuses (s : State) (lo hi : Fld) (n inst : Nat) : (s.bumpPair lo hi n inst).fuses = s.fuses := rfl

@[simp] theorem State.msix_fuses (s : State) (fn entry : Nat) : (s.msix fn entry).fuses = s.fuses := by
  rw [State.msix_frame]

@[simp] theorem State.unmaskSend_fuses (s : State) (f entry : Nat) : (s.unmaskSend f entry).fuses = s.fuses := by
  simp [State.unmaskSend]

@[simp] theorem State.unmaskAll_fuses (s : State) (f : Nat) : (s.unmaskAll f).fuses = s.fuses := by
  simp [State.unmaskAll]

@[simp] theorem State.msixControl_fuses (s : State) (f : Nat) (en masked : Bool) : (s.msixControl f en masked).fuses = s.fuses := by
  simp [State.msixControl]

@[simp] theorem State.onFn_fuses (s : State) (f : Nat) (g : PcieFn → PcieFn) : (s.onFn f g).fuses = s.fuses := rfl

@[simp] theorem State.aerLog_fuses (s : State) (f bit : Nat) : (s.aerLog f bit).fuses = s.fuses := rfl

@[simp] theorem State.pageMsg_fuses (old new : State) (b : Block) (inst : Nat) : (State.pageMsg old new b inst).fuses = new.fuses := by
  simp [State.pageMsg]

@[simp] theorem State.setEvents_fuses (s : State) (b : Block) (inst mask code : Nat) : (s.setEvents b inst mask code).fuses = s.fuses := by
  rw [State.setEvents_frame]

@[simp] theorem State.raiseEvt_fuses (s : State) (b : Block) (inst bit code : Nat) : (s.raiseEvt b inst bit code).fuses = s.fuses := by
  rw [State.raiseEvt_frame]

@[simp] theorem State.freshBool_fuses (s : State) : s.freshBool.2.fuses = s.fuses := rfl

@[simp] theorem State.freshNat_fuses (s : State) : s.freshNat.2.fuses = s.fuses := rfl

@[simp] theorem State.gateRegion_fuses (s : State) (p : Nat) : (s.gateRegion p).fuses = s.fuses := by
  simp [State.gateRegion]

@[simp] theorem State.advanceTime_fuses (s : State) (n : Nat) : (s.advanceTime n).fuses = s.fuses := rfl

@[simp] theorem State.elapse_fuses (s : State) (n : Nat) : (s.elapse n).fuses = s.fuses := by
  rw [State.elapse_frame]

@[simp] theorem State.waitUntil_fuses (s : State) (t : Nat) : (s.waitUntil t).fuses = s.fuses := by
  rw [State.waitUntil_frame]

@[simp] theorem State.waitDie_fuses (s : State) (d : Nat) (t : Int) : (s.waitDie d t).fuses = s.fuses := by
  simp [State.waitDie]

@[simp] theorem State.asleepAccess_fuses (s : State) : s.asleepAccess.fuses = s.fuses := by
  simp [State.asleepAccess]

@[simp] theorem State.hostCmd_fuses {s : State} {act : State → State} (b : Block) (inst : Nat)
    (h : SameFuses s (act s)) : (s.hostCmd b inst act).fuses = s.fuses := by
  unfold State.hostCmd
  split_ifs
  · rfl
  · exact s.asleepAccess_fuses
  · exact h

@[simp] theorem State.hostLoad_fuses {s : State} {act : State → Nat × State} (b : Block) (inst : Nat)
    (h : SameFuses s (act s).2) : (s.hostLoad b inst act).fuses = s.fuses := by
  unfold State.hostLoad
  split_ifs
  · rfl
  · rfl
  · exact s.asleepAccess_fuses
  · exact h

@[simp] theorem State.freeSlots_fuses (s : State) (g : Nat) : (s.freeSlots g).fuses = s.fuses := rfl

@[simp] theorem State.giveSlots_fuses (s : State) (g serial handId : Nat) : (s.giveSlots g serial handId).fuses = s.fuses := by
  simp [State.giveSlots]

@[simp] theorem State.tally_fuses (s : State) (u i n : Nat) : (s.tally u i n).fuses = s.fuses := rfl

@[simp] theorem State.tallyAccess_fuses (s : State) (p : Nat) (sp : Space) (a n : Nat) : (s.tallyAccess p sp a n).fuses = s.fuses := by
  unfold State.tallyAccess
  split <;> simp

@[simp] theorem State.tallyHub_fuses (s : State) (a n : Nat) : (s.tallyHub a n).fuses = s.fuses := rfl

@[simp] theorem State.setSealOf_fuses (s : State) (p : Nat) (t : TileAt) (x : Seal) : (s.setSealOf p t x).fuses = s.fuses := by
  rw [State.setSealOf_frame]

@[simp] theorem State.poisonTile_fuses (s : State) (p : Nat) (t : TileAt) : (s.poisonTile p t).fuses = s.fuses := by
  simp [State.poisonTile]

@[simp] theorem State.poisonTiles_fuses (s : State) (p : Nat) (l : List TileAt) : (s.poisonTiles p l).fuses = s.fuses := by
  rw [State.poisonTiles_frame]

/-! ## The configuration store -/

@[simp] theorem State.setSect_fuses (s : State) (n : Nat) (x : Section) : (s.setSect n x).fuses = s.fuses := rfl

@[simp] theorem State.nvmNext_fuses (s : State) : s.nvmNext.fuses = s.fuses := by
  unfold State.nvmNext
  split <;> simp

@[simp] theorem State.nvmAsk_fuses (s : State) (o : NvmOp) : (s.nvmAsk o).fuses = s.fuses := by
  rw [State.nvmAsk_frame]

@[simp] theorem State.nvmStore_fuses (s : State) (sect : Nat) : (s.nvmStore sect).fuses = s.fuses := by
  simp [State.nvmStore]

@[simp] theorem State.nvmFailed_fuses (s : State) (sect : Nat) : (s.nvmFailed sect).fuses = s.fuses := rfl

@[simp] theorem State.nvmPut_fuses (s : State) (sect : Nat) (data : SMap Nat) : (s.nvmPut sect data).fuses = s.fuses := rfl

@[simp] theorem State.nvmSuper_fuses (s : State) (sect : Nat) (data : SMap Nat) : (s.nvmSuper sect data).fuses = s.fuses := by
  simp [State.nvmSuper]

/-! ## The journal and the jokers -/

@[simp] theorem State.jrnPut_fuses (s : State) (e : JrnEntry) : (s.jrnPut e).fuses = s.fuses := by
  simp [State.jrnPut]

@[simp] theorem State.journal_fuses (s : State) (e : JrnEntry) : (s.journal e).fuses = s.fuses := by
  simp [State.journal]

@[simp] theorem State.onMap_fuses (s : State) (die : Nat) (f : JokerMap → JokerMap) : (s.onMap die f).fuses = s.fuses := rfl

@[simp] theorem State.noJoker_fuses (s : State) (die : Nat) : (s.noJoker die).fuses = s.fuses := by
  simp [State.noJoker]

@[simp] theorem State.lastJoker_fuses (s : State) (die : Nat) : (s.lastJoker die).fuses = s.fuses := by
  simp [State.lastJoker]

@[simp] theorem State.setScore_fuses (s : State) (part v : Nat) : (s.setScore part v).fuses = s.fuses := rfl

@[simp] theorem State.retireJoker_fuses (s : State) (p code : Nat) : (s.retireJoker p code).fuses = s.fuses := by
  simp [State.retireJoker]

@[simp] theorem State.markCore_fuses (s : State) (p code : Nat) : (s.markCore p code).fuses = s.fuses := by
  simp [State.markCore]

@[simp] theorem State.addScore_fuses (s : State) (part w : Nat) : (s.addScore part w).fuses = s.fuses := by
  simp [State.addScore]

@[simp] theorem State.markWorn_fuses (s : State) : s.markWorn.fuses = s.fuses := by
  simp [State.markWorn]

@[simp] theorem State.rescore_fuses (s : State) : s.rescore.fuses = s.fuses := by
  simp [State.rescore]

@[simp] theorem State.checkMismatch_fuses (s : State) (p g serial : Nat) : (s.checkMismatch p g serial).fuses = s.fuses := by
  simp [State.checkMismatch]

/-! ## Weight slots and seats -/

@[simp] theorem State.setWslot_fuses (s : State) (i : Nat) (w : WSlot) : (s.setWslot i w).fuses = s.fuses := rfl

@[simp] theorem State.settle_fuses (s : State) : s.settle.fuses = s.fuses := rfl

@[simp] theorem State.doStage_fuses (s : State) (m e : Nat) : (s.doStage m e).fuses = s.fuses := rfl

@[simp] theorem State.doCut_fuses (s : State) (m : Nat) : (s.doCut m).fuses = s.fuses := rfl

@[simp] theorem State.autoStage_fuses (s : State) : s.autoStage.fuses = s.fuses := by
  simp [State.autoStage]

@[simp] theorem State.autoStep_fuses (s : State) : s.autoStep.fuses = s.fuses := by
  simp [State.autoStep]

@[simp] theorem State.convert_fuses (s : State) (m : Nat) : (s.convert m).fuses = s.fuses := by
  simp [State.convert]

@[simp] theorem State.convertWaiting_fuses (s : State) : s.convertWaiting.fuses = s.fuses := by
  unfold State.convertWaiting
  split <;> simp

@[simp] theorem State.autos_fuses (s : State) : s.autos.fuses = s.fuses := by
  simp [State.autos]

@[simp] theorem State.wslStatus_fuses (s : State) (st reason : Nat) : (s.wslStatus st reason).fuses = s.fuses := rfl

@[simp] theorem State.wslCmd_fuses {s : State} {act : State → State}
    (h : ∀ t, SameFuses t (act t)) : (s.wslCmd act).fuses = s.fuses := by
  simp [State.wslCmd, (h _).eq]

@[simp] theorem State.wslPending_fuses (s : State) : s.wslPending.fuses = s.fuses := by
  unfold State.wslPending
  dsimp only
  (repeat' split) <;> simp

@[simp] theorem State.setSeat_fuses (s : State) (d : Nat) (x : Seat) : (s.setSeat d x).fuses = s.fuses := rfl

@[simp] theorem State.settleSeats_fuses (s : State) : s.settleSeats.fuses = s.fuses := by
  simp [State.settleSeats]

@[simp] theorem State.dplStatus_fuses (s : State) (st reason : Nat) : (s.dplStatus st reason).fuses = s.fuses := rfl

@[simp] theorem State.dplCmd_fuses {s : State} {act : State → State} (seat : Nat) (needSeat : Bool)
    (h : ∀ t, SameFuses t (act t)) : (s.dplCmd seat needSeat act).fuses = s.fuses := by
  simp [State.dplCmd, (h _).eq]

/-! ## Bids -/

@[simp] theorem State.phaseEnd_fuses (s : State) (d : Dealing) : (s.phaseEnd d).fuses = s.fuses := by
  simp [State.phaseEnd]

@[simp] theorem State.useBid_fuses (s : State) (handId trick : Nat) : (s.useBid handId trick).fuses = s.fuses := by
  unfold State.useBid
  split <;> simp

/-! ## Operands, memories and seals -/

@[simp] theorem State.record1_fuses {s : State} {put : State → State} (valid : Fld) (inst : Nat)
    (h : ∀ t, SameFuses t (put t)) : (s.record1 valid inst put).fuses = s.fuses := by
  unfold State.record1
  dsimp only
  split_ifs
  · rfl
  · exact h _

@[simp] theorem State.collide_fuses (s : State) (p row reader writer : Nat) (ww : Bool) (pc : Nat) :
    (s.collide p row reader writer ww pc).fuses = s.fuses := State.onlyCounts_fuses (State.collide_counts ..)

@[simp] theorem State.serve_fuses (s : State) (p code pc : Nat) (write : Bool) (sp : Space) (a n : Nat) (o : Order) (l : List Rival) :
    (s.serve p code pc write sp a n o l).2.fuses = s.fuses := State.onlyCounts_fuses (State.serve_counts ..)

@[simp] theorem State.serveUnit_fuses (s : State) (p code pc : Nat) (write : Bool) (sp : Space) (a n : Nat) (o : Order) (rs : List Rival) :
    (s.serveUnit p code pc write sp a n o rs).2.fuses = s.fuses := State.onlyCounts_fuses (State.serveUnit_counts ..)

@[simp] theorem State.noteRecent_fuses (s : State) (p code skip pc : Nat) (r : MemReq) : (s.noteRecent p code skip pc r).fuses = s.fuses := rfl

@[simp] theorem State.portSeal_fuses (s : State) (p tile : Nat) (x : Seal) : (s.portSeal p tile x).fuses = s.fuses := rfl

@[simp] theorem State.portRead_fuses (s : State) (p code pc a n : Nat) : (s.portRead p code pc a n).2.fuses = s.fuses := by
  simp [State.portRead]

@[simp] theorem State.spmStore_fuses (s : State) (p : Nat) (x : Nat × List Byte) : (s.spmStore p x).fuses = s.fuses := rfl

@[simp] theorem State.portWrite_fuses (s : State) (p code skip a : Nat) (bs : List Byte) : (s.portWrite p code skip a bs).2.fuses = s.fuses := by
  simp [State.portWrite]

@[simp] theorem State.store_fuses (s : State) (p : Nat) (sp : Space) (x : Nat × List Byte) : (s.store p sp x).fuses = s.fuses := by
  unfold State.store
  split <;> simp

@[simp] theorem State.pendingUse_fuses (s : State) (p skip : Nat) (seen : SMap Nat) (q pos : Nat) (push : Bool) :
    (s.pendingUse p skip seen q pos push).2.fuses = s.fuses := by
  unfold State.pendingUse
  dsimp only
  (repeat' split) <;> simp

@[simp] theorem State.eccRecord_fuses (s : State) (sp : Space) (inst word tile : Nat) (scrub : Bool) :
    (s.eccRecord sp inst word tile scrub).fuses = s.fuses := by
  simp [State.eccRecord]

@[simp] theorem State.strike_fuses (s : State) (u w : Nat) (corr : Bool) : (s.strike u w corr).fuses = s.fuses := by
  simp [State.strike]

@[simp] theorem State.softError_fuses (s : State) : s.softError.fuses = s.fuses := by
  unfold State.softError
  split <;> simp

@[simp] theorem State.wordErrors_fuses (s : State) (sp : Space) (lo hi : Nat) (es : SMap MemErr) : (s.wordErrors sp lo hi es).1.fuses = s.fuses := by
  unfold State.wordErrors
  dsimp only
  (repeat' split) <;> simp

@[simp] theorem State.lineErrors_fuses (s : State) (sp : Space) (a n : Nat) (es : SMap MemErr) : (s.lineErrors sp a n es).1.fuses = s.fuses := by
  simp [State.lineErrors]

@[simp] theorem State.tierErrors_fuses (s : State) (sp : Space) (a n : Nat) : (s.tierErrors sp a n).1.fuses = s.fuses := by
  simp [State.tierErrors]

@[simp] theorem State.dealerRead_fuses (s : State) (a n : Nat) : (s.dealerRead a n).2.fuses = s.fuses := by
  simp [State.dealerRead]

@[simp] theorem State.spmErrors_fuses (s : State) (p a n : Nat) (es : SMap MemErr) : (s.spmErrors p a n es).1.fuses = s.fuses := by
  unfold State.spmErrors
  dsimp only
  (repeat' split) <;> simp

@[simp] theorem State.sealFault_fuses (s : State) (p bit code cnt engine pos : Nat) (t : TileAt) (x : Seal) (part : Bool) (ex pc : Nat) :
    (s.sealFault p bit code cnt engine pos t x part ex pc).fuses = s.fuses := by
  unfold State.sealFault
  split <;> simp

@[simp] theorem State.hostRead_fuses (s : State) (fn a n : Nat) : (s.hostRead fn a n).2.fuses = s.fuses := by
  unfold State.hostRead
  dsimp only
  split_ifs <;> simp

@[simp] theorem State.hostWrite_fuses (s : State) (fn a : Nat) (bs : List Byte) : (s.hostWrite fn a bs).fuses = s.fuses := by
  simp [State.hostWrite]

@[simp] theorem State.addDigest_fuses (s : State) (p space addr : Nat) (x : Seal) : (s.addDigest p space addr x).fuses = s.fuses := by
  unfold State.addDigest
  split <;> simp

/-! ## The matrix unit -/

@[simp] theorem State.mxuState_fuses (s : State) (p : Nat) : (s.mxuState p).fuses = s.fuses := by
  simp [State.mxuState]

/-! ## Flits on their way out -/

@[simp] theorem State.pushFlow_fuses (s : State) (port flow : Nat) (fs : List (Flit × Owner)) : (s.pushFlow port flow fs).fuses = s.fuses := rfl

@[simp] theorem State.sendRoute_fuses (s : State) (i : Nat) (fs : List (Flit × Owner)) : (s.sendRoute i fs).fuses = s.fuses := rfl

@[simp] theorem State.sendTrick_fuses (s : State) (port : Nat) (f : Flit) : (s.sendTrick port f).fuses = s.fuses := rfl

end Sys2Proof.Machine
end

-- ==== Fuses: engine bodies ====
section
/-! PROOFS. The body of every engine instruction keeps the fuses (O4), whether it ends or faults. -/

namespace Sys2Proof.Machine

/-- The context in which a body has ended. -/
def Eng.final {α : Type} : EStateM.Result EFault ECtx α → ECtx
  | .ok _ c => c
  | .error _ c => c

/-- A part of a body that keeps the fuses `F`, whether it ends or faults. A body is a `do` block: the rules below follow its binds, its
choices and its loops, and the laws above give what its accesses keep. -/
structure Eng.Keeps (F : Fuses) {α : Type} (m : Eng α) : Prop where
  final : ∀ c : ECtx, c.s.fuses = F → (Eng.final (m c)).s.fuses = F

namespace Eng.Keeps
variable {F : Fuses} {α β : Type}

theorem pure (a : α) : Eng.Keeps F (pure a : Eng α) := ⟨fun _ h => h⟩

theorem throw (e : EFault) : Eng.Keeps F (throw e : Eng α) := ⟨fun _ h => h⟩

theorem bind {m : Eng α} {k : α → Eng β} (hm : Eng.Keeps F m) (hk : ∀ a, Eng.Keeps F (k a)) : Eng.Keeps F (m >>= k) := by
  refine ⟨fun c h => ?_⟩
  have hc := hm.final c h
  show (Eng.final (EStateM.bind m k c)).s.fuses = F
  unfold EStateM.bind
  split
  · next a c' e => rw [e] at hc; exact (hk a).final c' hc
  · next e' c' e => rw [e] at hc; exact hc

theorem get_bind {k : ECtx → Eng β} (hk : ∀ c : ECtx, c.s.fuses = F → Eng.Keeps F (k c)) : Eng.Keeps F (get >>= k) :=
  ⟨fun c h => (hk c h).final c h⟩

theorem set {c : ECtx} (h : c.s.fuses = F) : Eng.Keeps F (set c : Eng PUnit) := ⟨fun _ _ => h⟩

theorem modify {f : ECtx → ECtx} (h : ∀ c, (f c).s.fuses = c.s.fuses) : Eng.Keeps F (modify f : Eng PUnit) :=
  ⟨fun c hc => (h c).trans hc⟩

theorem forIn {l : List α} {b : β} {f : α → β → Eng (ForInStep β)} (h : ∀ a b, Eng.Keeps F (f a b)) : Eng.Keeps F (forIn l b f) := by
  induction l generalizing b with
  | nil => exact pure _
  | cons x xs ih =>
    rw [List.forIn_cons]
    refine (h x b).bind fun r => ?_
    cases r
    · exact pure _
    · exact ih

theorem ite {c : Prop} [Decidable c] {a b : Eng α} (ha : Eng.Keeps F a) (hb : Eng.Keeps F b) : Eng.Keeps F (if c then a else b) := by
  split
  · exact ha
  · exact hb

theorem guarded {c : Prop} [Decidable c] {m : Eng Unit} {k : Unit → Eng β} (hm : Eng.Keeps F m) (hk : ∀ a, Eng.Keeps F (k a)) :
    Eng.Keeps F (if c then m >>= k else k ()) := ite (hm.bind hk) (hk ())

theorem choose {c : Prop} [Decidable c] {m n : Eng α} {k : α → Eng β} (hm : Eng.Keeps F m) (hn : Eng.Keeps F n) (hk : ∀ a, Eng.Keeps F (k a)) :
    Eng.Keeps F (if c then m >>= k else n >>= k) := ite (hm.bind hk) (hn.bind hk)

theorem fail (n : Nat) : Eng.Keeps F (Eng.fail n : Eng α) := get_bind fun _ _ => throw _

theorem onState {f : State → State} (h : ∀ s, (f s).fuses = s.fuses) : Eng.Keeps F (Eng.onState f) := modify fun c => h c.s

theorem onCore (f : Core → Core) : Eng.Keeps F (Eng.onCore f) := modify fun _ => rfl

theorem core : Eng.Keeps F Eng.core := get_bind fun _ _ => pure _

theorem slot (pos : Nat) : Eng.Keeps F (Eng.slot pos) := get_bind fun _ _ => pure _

theorem freeCount {f : State → Nat → State} (h : ∀ s n, (f s n).fuses = s.fuses) : Eng.Keeps F (Eng.freeCount f) :=
  get_bind fun _ hc => set ((h _ _).trans hc)

theorem busy (reg : Fld) : Eng.Keeps F (Eng.busy reg) := get_bind fun _ _ => freeCount fun _ _ => by simp

theorem checkBounds (sp : Space) (write : Bool) (a n : Nat) : Eng.Keeps F (Eng.checkBounds sp write a n) :=
  get_bind fun _ _ => .ite (pure _) (.guarded (onState fun _ => by simp) fun _ => fail _)

theorem request (pos : Nat) (write : Bool) (sp : Space) (a n : Nat) : Eng.Keeps F (Eng.request pos write sp a n) :=
  get_bind fun c hc => .bind (.set ((c.s.serveUnit_fuses ..).trans hc)) fun _ => .pure _

theorem raise (f : Option EFault) : Eng.Keeps F (Eng.raise f) := by
  cases f
  · exact pure _
  · exact throw _

theorem pendingUse (q pos : Nat) (push : Bool) : Eng.Keeps F (Eng.pendingUse q pos push) :=
  get_bind fun c hc => .bind (.set ((c.s.pendingUse_fuses ..).trans hc)) fun _ => .pure _

theorem noteUse (q pos : Nat) (push : Bool) : Eng.Keeps F (Eng.noteUse q pos push) := modify fun _ => rfl

theorem pop (q : Nat) : Eng.Keeps F (Eng.pop q) := by
  refine .bind core fun _ => ?_
  split
  · exact fail _
  · exact .ite (fail _) (.bind (pendingUse ..) fun _ => .ite (fail _) (.bind (onCore _) fun _ => .bind (noteUse ..) fun _ => pure _))

theorem push (q : Nat) : Eng.Keeps F (Eng.push q) := by
  refine .bind core fun _ => ?_
  split
  · exact fail _
  · refine .ite (fail _) (.choose (pendingUse ..) (pure _) fun _ => .ite (fail _) (.bind (onCore _) fun _ => .bind (noteUse ..) fun _ => pure _))

theorem unitAddr (pos unit n : Nat) (write : Bool) : Eng.Keeps F (Eng.unitAddr pos unit n write) :=
  .bind (slot _) fun _ => .ite (.ite (fail _) (.choose (push _) (pop _) fun _ => pure _)) (pure _)

theorem sealFail (k : Nat) (t : TileAt) (pos : Nat) (x : Seal) (part : Bool) (expect : Nat) :
    Eng.Keeps F (Eng.sealFail k t pos x part expect) :=
  get_bind fun _ _ => .bind (onState fun _ => by simp) fun _ => fail _

theorem sealExpect (pos : Nat) : Eng.Keeps F (Eng.sealExpect pos) :=
  get_bind fun _ _ => .bind (slot pos) fun _ => .bind core fun _ => pure _

theorem readFail (pos : Nat) (t : TileAt) (x : Seal) : Eng.Keeps F (Eng.readFail pos t x) :=
  get_bind fun _ _ => .bind (sealExpect pos) fun _ => sealFail ..

theorem readSealed (pos : Nat) (u : TileAt) (unit : Nat) : Eng.Keeps F (Eng.readSealed pos u unit) := by
  refine .bind (checkBounds ..) fun _ => ?_
  dsimp only
  split
  · refine get_bind fun c hc => ?_
    have h := (c.s.hostRead_fuses 0 u.addr unit).trans hc
    split
    · next bs s' e =>
      rw [e] at h
      exact .bind (set ((s'.tallyAccess_fuses ..).trans h)) fun _ => pure _
    · next s' e =>
      rw [e] at h
      exact .bind (sealExpect _) fun _ => .bind (set (by simpa using h)) fun _ => pure _
  · refine .bind (request ..) fun _ => get_bind fun c hc => ?_
    split <;> exact .bind (set (by simpa using hc)) fun _ => .bind (raise _) fun _ => .guarded (readFail ..) fun _ => pure _

theorem readAt (pos : Nat) (u : TileAt) (unit : Nat) : Eng.Keeps F (Eng.readAt pos u unit) := .bind (readSealed ..) fun _ => pure _

theorem readUnit (pos unit n : Nat) : Eng.Keeps F (Eng.readUnit pos unit n) := .bind (unitAddr ..) fun _ => readAt ..

theorem readUnits (pos unit k : Nat) : Eng.Keeps F (Eng.readUnits pos unit k) :=
  .bind (forIn fun _ _ => .bind (readUnit ..) fun _ => pure _) fun _ => pure _

theorem readElems (pos unit w cnt : Nat) : Eng.Keeps F (Eng.readElems pos unit w cnt) := .bind (readUnits ..) fun _ => pure _

theorem checkReads : Eng.Keeps F Eng.checkReads := by
  refine get_bind fun c _ => .bind (forIn fun r _ => ?_) fun _ => modify fun _ => rfl
  refine .ite (pure _) (.ite (.bind (slot _) fun _ => .bind core fun _ => ?_) (.guarded (modify fun _ => rfl) fun _ => pure _))
  dsimp only
  split
  · exact .bind (sealExpect _) fun _ => .bind (sealFail ..) fun _ => pure _
  · exact pure _

theorem writeAt (pos : Nat) (u : TileAt) (bs : List Byte) : Eng.Keeps F (Eng.writeAt pos u bs) := by
  refine .bind (checkBounds ..) fun _ => ?_
  dsimp only
  split
  · exact get_bind fun c hc => .ite (set hc) (set (by simpa using hc))
  · exact .bind (request ..) fun _ => get_bind fun c hc => .bind (set (by simpa using hc)) fun _ => raise _

theorem writeUnit (pos unit n : Nat) (bs : List Byte) : Eng.Keeps F (Eng.writeUnit pos unit n bs) := .bind (unitAddr ..) fun _ => writeAt ..

theorem writeUnits (pos unit : Nat) (bs : List Byte) : Eng.Keeps F (Eng.writeUnits pos unit bs) :=
  .bind (forIn fun _ _ => .bind (writeUnit ..) fun _ => pure _) fun _ => pure _

theorem writeElems (pos unit w : Nat) (cs : List Nat) : Eng.Keeps F (Eng.writeElems pos unit w cs) := writeUnits ..

theorem putSeal (t : TileAt) (x : Seal) : Eng.Keeps F (Eng.putSeal t x) :=
  get_bind fun c hc => .guarded (set ((c.s.setSealOf_fuses ..).trans hc)) fun _ => .ite (onState fun s => s.addDigest_fuses ..) (pure _)

theorem markPropagate : Eng.Keeps F Eng.markPropagate := get_bind fun _ hc => .ite (set hc) (pure _)

theorem writeSealsOf (sel : WroteTile → Bool) (fmt : Nat → Nat × Nat) : Eng.Keeps F (Eng.writeSealsOf sel fmt) :=
  get_bind fun _ _ => .guarded markPropagate fun _ => .bind
    (forIn fun _ _ => .bind (slot _) fun _ => .bind core fun _ =>
      .ite (.bind (onCore _) fun _ => .bind (putSeal ..) fun _ => pure _) (.bind (putSeal ..) fun _ => pure _)) fun _ => pure _

theorem writeSeals (fmt : Nat → Nat × Nat) : Eng.Keeps F (Eng.writeSeals fmt) := writeSealsOf ..

theorem mxuState : Eng.Keeps F (Eng.mxuState : Eng α) := get_bind fun _ _ => .bind (onState fun _ => by simp) fun _ => fail _

theorem readScales (mode rows nb : Nat) : Eng.Keeps F (Eng.readScales mode rows nb) := by
  unfold Eng.readScales
  split
  · exact readElems ..
  · exact readElems ..
  · exact pure _

theorem bodyMload : Eng.Keeps F bodyMload :=
  get_bind fun _ _ => .bind (readElems ..) fun _ => .bind (readScales ..) fun _ => .bind checkReads fun _ => onCore _

theorem bodyMmul : Eng.Keeps F bodyMmul :=
  get_bind fun _ _ => .bind core fun _ => .guarded mxuState fun _ => .bind (readElems ..) fun _ => .bind (readScales ..) fun _ =>
    .bind checkReads fun _ => .bind (forIn fun _ _ => .bind (onCore _) fun _ => pure _) fun _ =>
    .bind (onState fun _ => by simp) fun _ => .bind (freeCount fun _ _ => by simp) fun _ =>
    .ite (.bind (onState fun _ => by simp) fun _ => fail _) (pure _)

theorem destUnits (pos k unit : Nat) : Eng.Keeps F (Eng.destUnits pos k unit) :=
  .bind (slot _) fun _ => .bind core fun _ => get_bind fun _ _ => pure _

theorem poisonDest (us : List (Option TileAt)) : Eng.Keeps F (Eng.poisonDest us) := modify fun _ => by simp

/-- The end of MDRAIN: its codes, its second operand, its seals, and the accumulators. -/
theorem mdrainWrites {wd wd2 : Nat} {codes second : List Nat} {c d : Prop} [Decidable c] [Decidable d] {fmt : Nat → Nat × Nat}
    {g : Core → Core} :
    Eng.Keeps F (do
      Eng.writeElems 0 4096 wd codes
      if c then Eng.writeElems 1 64 wd2 second
      Eng.writeSeals fmt
      if d then Eng.onCore g) :=
  .bind (writeElems ..) fun _ => .guarded (writeElems ..) fun _ => .bind (writeSeals _) fun _ => .ite (onCore _) (pure _)

theorem bodyMdrain : Eng.Keeps F bodyMdrain := by
  refine get_bind fun _ _ => .bind core fun _ => .guarded mxuState fun _ => .ite (.bind (onCore _) fun _ => ?_) mdrainWrites
  dsimp only
  split
  · exact .bind (destUnits ..) fun _ => .bind (destUnits ..) fun _ => .bind (poisonDest _) fun _ => .bind (onState fun _ => by simp) fun _ =>
      .bind (fail _) fun _ => mdrainWrites
  · exact mdrainWrites

theorem bodyMburn : Eng.Keeps F bodyMburn := get_bind fun _ _ => onState fun _ => by simp

theorem tableAddr (x : Nat) : Eng.Keeps F (Eng.tableAddr x) := by
  refine .bind (slot _) fun _ => .ite (fail _) ?_
  split
  · exact pure _
  · exact .ite (pure _) (fail _)
  · exact fail _

theorem readPanel (x : Nat) : Eng.Keeps F (Eng.readPanel x) := .bind (tableAddr x) fun _ => .bind (readAt ..) fun _ => pure _

theorem readEntries (p : Panel) : Eng.Keeps F (Eng.readEntries p) :=
  .bind (slot _) fun _ => .bind (forIn fun _ _ => .bind (readAt ..) fun _ => pure _) fun _ => pure _

theorem bodySpmm : Eng.Keeps F bodySpmm := by
  refine get_bind fun _ _ => .bind core fun _ => .guarded mxuState fun _ => .bind (readElems ..) fun _ => .bind (readPanel _) fun _ =>
    .choose (readElems ..) (pure _) fun _ => .choose (pure _) (readUnits ..) fun _ => .bind (forIn fun _ _ => ?_) fun _ =>
    .bind checkReads fun _ => .guarded (fail _) fun _ => .bind (forIn fun _ _ => ?_) fun _ =>
    .bind (onCore _) fun _ => .bind (busy _) fun _ => .bind (freeCount fun _ _ => by simp) fun _ =>
    .ite (.bind (onState fun _ => by simp) fun _ => fail _) (pure _)
  · exact .ite (.bind (readPanel _) fun _ => .ite (pure _) (.bind (readEntries _) fun _ => .ite (pure _) (pure _))) (pure _)
  · exact .bind core fun _ => .ite (.bind (onCore _) fun _ => .bind (onState fun _ => by simp) fun _ => pure _) (pure _)

theorem putCopy (u : TileAt) (x : Seal) : Eng.Keeps F (Eng.putCopy u x) :=
  .ite (get_bind fun _ hc => .guarded (set hc) fun _ => putSeal ..) (putSeal ..)

theorem putCopies (l : List (TileAt × Option Seal)) : Eng.Keeps F (Eng.putCopies l) := by
  refine .bind (forIn fun _ _ => ?_) fun _ => pure _
  dsimp only
  split
  · exact .bind (putCopy ..) fun _ => pure _
  · exact .bind (writeSealsOf ..) fun _ => pure _

theorem bodyDcopy : Eng.Keeps F bodyDcopy :=
  get_bind fun _ _ => .bind (slot _) fun _ =>
    .bind (forIn fun _ _ => .bind (unitAddr ..) fun _ => .bind (readSealed ..) fun _ => pure _) fun _ => .bind checkReads fun _ =>
    .bind (forIn fun _ _ => .bind (unitAddr ..) fun _ => .bind (writeAt ..) fun _ => pure _) fun _ =>
    .ite (putCopies _) (writeSeals _)

theorem bodyDfill : Eng.Keeps F bodyDfill :=
  get_bind fun _ _ => .bind (slot _) fun _ => .bind (forIn fun _ _ => .bind (writeUnit ..) fun _ => pure _) fun _ => writeSeals _

theorem bodyDgather : Eng.Keeps F bodyDgather :=
  get_bind fun _ _ => .bind (slot _) fun _ => .bind (slot _) fun _ => .guarded (fail _) fun _ => .bind (readElems ..) fun _ =>
    .bind (forIn fun _ _ => .ite (pure _) (.bind (readSealed ..) fun _ => pure _)) fun _ => .bind checkReads fun _ =>
    .bind (forIn fun _ _ => .bind (unitAddr ..) fun _ => .bind (writeAt ..) fun _ => pure _) fun _ =>
    .ite (putCopies _) (writeSeals _)

theorem redOverflow : Eng.Keeps F Eng.redOverflow := get_bind fun _ _ => .bind (onState fun _ => by simp) fun _ => fail _

theorem bodyRadd : Eng.Keeps F bodyRadd :=
  get_bind fun _ _ => .bind (slot _) fun _ => .bind (readElems ..) fun _ => .bind (readElems ..) fun _ => .bind checkReads fun _ =>
    .bind (writeElems ..) fun _ => .bind (writeSeals _) fun _ => .bind (busy _) fun _ => .ite redOverflow (pure _)

theorem bodyRanchor : Eng.Keeps F bodyRanchor :=
  get_bind fun _ _ => .ite
    (.bind (slot _) fun _ => .bind (readElems ..) fun _ => .bind (readElems ..) fun _ => .bind checkReads fun _ =>
      .bind (writeElems ..) fun _ => .bind (writeSeals _) fun _ => busy _)
    (.bind (slot _) fun _ => .bind (readElems ..) fun _ => .bind (readElems ..) fun _ => .bind checkReads fun _ =>
      .bind (writeElems ..) fun _ => .bind (writeSeals _) fun _ => busy _)

theorem bodyRcvt : Eng.Keeps F bodyRcvt :=
  get_bind fun _ _ => .bind (slot _) fun _ => .ite
    (.bind (readElems ..) fun _ => .bind (readElems ..) fun _ => .bind checkReads fun _ =>
      .bind (writeElems ..) fun _ => .bind (writeSeals _) fun _ => .bind (busy _) fun _ => .ite redOverflow (pure _))
    (.bind (readElems ..) fun _ => .bind (readElems ..) fun _ => .bind checkReads fun _ =>
      .bind (writeElems ..) fun _ => .bind (writeSeals _) fun _ => busy _)

theorem bodyLput : Eng.Keeps F bodyLput :=
  .bind (slot _) fun _ => .guarded (fail _) fun _ =>
    .bind (forIn fun _ _ => .bind (unitAddr ..) fun _ => .bind (readSealed ..) fun _ => pure _) fun _ => .bind checkReads fun _ =>
    .guarded (modify fun _ => rfl) fun _ => get_bind fun _ _ => .bind core fun _ => .bind
      (forIn fun _ _ => .guarded (onState fun _ => by simp) fun _ => .guarded (modify fun _ => rfl) fun _ =>
        .bind (onState fun _ => by simp) fun _ => pure _) fun _ => pure _

theorem bodyLfetch : Eng.Keeps F bodyLfetch :=
  .bind (slot _) fun _ => .guarded (fail _) fun _ => .guarded (fail _) fun _ => get_bind fun _ _ => .bind core fun _ =>
    onState fun _ => by simp

theorem bodyLsig : Eng.Keeps F bodyLsig := get_bind fun _ _ => .bind core fun _ => onState fun _ => by simp

theorem bodyVop : Eng.Keeps F bodyVop :=
  get_bind fun _ _ => .bind (slot _) fun _ => .bind (readElems ..) fun _ => .choose (readElems ..) (pure _) fun _ =>
    .choose (readElems ..) (pure _) fun _ => .bind checkReads fun _ =>
    .bind (writeElems ..) fun _ => .bind (writeSeals _) fun _ => busy _

theorem bodyVred : Eng.Keeps F bodyVred :=
  get_bind fun _ _ => .bind (slot _) fun _ => .bind (readElems ..) fun _ => .bind checkReads fun _ =>
    .bind (writeElems ..) fun _ => .bind (writeSeals _) fun _ => busy _

theorem bodyVcvt : Eng.Keeps F bodyVcvt :=
  get_bind fun _ _ => .bind (slot _) fun _ => .bind (readElems ..) fun _ => .choose (readElems ..) (pure _) fun _ =>
    .bind checkReads fun _ => .ite
    (.bind (writeElems ..) fun _ => .bind (writeElems ..) fun _ => .bind (writeSeals _) fun _ => busy _)
    (.bind (writeElems ..) fun _ => .bind (writeSeals _) fun _ => busy _)

theorem bodyXfn (op : XOp) : Eng.Keeps F (bodyXfn op) :=
  get_bind fun _ _ => .bind (slot _) fun _ => .bind (readElems ..) fun _ => .bind checkReads fun _ =>
    .bind (writeElems ..) fun _ => .bind (writeSeals _) fun _ => busy _

theorem bodySample : Eng.Keeps F bodySample :=
  get_bind fun _ _ => .bind (readElems ..) fun _ => .bind (readUnits ..) fun _ => .bind checkReads fun _ =>
    .bind (writeElems ..) fun _ => .bind (writeSeals _) fun _ => .bind (onState fun _ => by simp) fun _ => busy _

theorem bodySlogp : Eng.Keeps F bodySlogp :=
  get_bind fun _ _ => .bind (readElems ..) fun _ => .bind (readElems ..) fun _ => .bind checkReads fun _ =>
    .bind (writeElems ..) fun _ => .bind (writeSeals _) fun _ => busy _

theorem bodyOf (w : Slot) : Eng.Keeps F (bodyOf w) := by
  unfold Machine.bodyOf
  split
  · exact bodyMload
  · exact bodyMmul
  · exact bodyMdrain
  · exact bodyMburn
  · exact bodyVop
  · exact bodyVred
  · exact bodyVcvt
  · exact get_bind fun _ _ => bodyXfn _
  · exact get_bind fun _ _ => bodyXfn _
  · exact bodyXfn _
  · exact get_bind fun _ _ => bodyXfn _
  · exact bodyDcopy
  · exact bodyDfill
  · exact bodyDgather
  · exact bodyLput
  · exact bodyLfetch
  · exact bodyLsig
  · exact bodyRadd
  · exact bodyRanchor
  · exact bodyRcvt
  · exact bodySpmm
  · exact bodySample
  · exact bodySlogp
  · exact pure _
end Eng.Keeps

end Sys2Proof.Machine
end

-- ==== Fuses: sequencer, requests and dealing ====
section
/-! PROOFS. What the operations of the sequencers, of the requests and of the dealer leave of the fuses (O4). -/

namespace Sys2Proof.Machine

/-! ## Sequencer and engines -/

@[simp] theorem State.applySignal_fuses (s : State) (p : Nat) (w : Slot) : (s.applySignal p w).fuses = s.fuses := by
  rw [State.applySignal_frame]

@[simp] theorem State.coreFault_fuses (s : State) (p code engine pc info : Nat) (more : List TileAt) :
    (s.coreFault p code engine pc info more).fuses = s.fuses := by
  rw [State.coreFault_frame]

@[simp] theorem State.pageFault_fuses (s : State) (p pc : Nat) (b : PageFault) : (s.pageFault p pc b).fuses = s.fuses := by
  simp [State.pageFault]

@[simp] theorem State.handle_fuses {s : State} {run : Slot → State} (p : Nat) (o : Option Op)
    (h : ∀ w, SameFuses s (run w)) : (s.handle p o run).fuses = s.fuses := by
  unfold State.handle
  dsimp only
  split
  · rfl
  · split
    · simp [(h _).eq]
    · rfl

@[simp] theorem State.seqOp_fuses {s : State} {act : Slot → State → State} (p : Nat) (o : Op)
    (h : ∀ w, SameFuses s (act w s)) : (s.seqOp p o act).fuses = s.fuses := by
  refine State.handle_fuses p _ fun w => ?_
  split_ifs
  · exact (State.applySignal_fuses ..).trans (h w)
  · rfl

@[simp] theorem State.advance_fuses (s : State) (p : Nat) : (s.advance p).fuses = s.fuses := rfl

@[simp] theorem State.headCheck_fuses (s : State) (p e : Nat) : (s.headCheck p e).fuses = s.fuses := by
  unfold State.headCheck
  dsimp only
  (repeat' split) <;> simp

@[simp] theorem State.countWaits_fuses (s : State) (p : Nat) (reqs : List MemReq) : (s.countWaits p reqs).fuses = s.fuses := by
  simp [State.countWaits]

@[simp] theorem State.started_fuses (s : State) (p e : Nat) (q : QEntry) (r : ECtx) (c0 : Core) :
    (s.started p e q r c0).fuses = r.s.fuses := by
  simp [State.started]

@[simp] theorem State.startHead_fuses (s : State) (p e : Nat) : (s.startHead p e).fuses = s.fuses := by
  have body (q : QEntry) (k : Core → Core) := (Eng.Keeps.bodyOf (F := s.fuses) q.word).final (ECtx.start (s.onCore p k) p q) rfl
  unfold State.startHead
  dsimp only
  split
  · rfl
  · next q rest _ =>
    split
    · rfl
    · have h := body q (fun k => k.setEngine e { (s.core p).engine e with queue := rest, headSince := s.tick })
      split
      · next r hr =>
        rw [hr] at h
        have hf : r.s.fuses = s.fuses := h
        split <;> simp [hf]
      · next f r hr =>
        rw [hr] at h
        have hf : r.s.fuses = s.fuses := h
        simp [hf]

@[simp] theorem State.issueOp_fuses (s : State) (p : Nat) (o : Op) : (s.issueOp p o).fuses = s.fuses := by
  simp [State.issueOp]

@[simp] theorem State.setp_fuses (w : Slot) (p : Nat) (s : State) : (State.setp w p s).fuses = s.fuses := by
  have read := s.portRead_fuses p 0 (s.core p).pc w.setpAddr 4
  have errs (es : SMap MemErr) := ((s.portRead p 0 (s.core p).pc w.setpAddr 4).2.spmErrors_fuses p w.setpAddr 4 es).trans read
  unfold State.setp
  dsimp only
  split
  · simp
  · split <;> simp
  · simp
  · split
    · have herr := errs (s.portRead p 0 (s.core p).pc w.setpAddr 4).1.2.2.2
      split <;> simp_all
    · simp
  · simp

@[simp] theorem State.mark_fuses (w : Slot) (p : Nat) (s : State) : (State.mark w p s).fuses = s.fuses := by
  simp [State.mark]

@[simp] theorem State.atTrick_fuses (w : Slot) (p : Nat) (s : State) : (State.atTrick w p s).fuses = s.fuses := rfl

@[simp] theorem State.record_fuses (s : State) (p e : Nat) (x : ExecEntry) : (s.record p e x).fuses = s.fuses := by
  unfold State.record
  split <;> simp

@[simp] theorem State.complete_fuses (s : State) (p e : Nat) : (s.complete p e).fuses = s.fuses := by
  unfold State.complete
  dsimp only
  (repeat' split) <;> simp

@[simp] theorem State.flagTimeout_fuses (s : State) (p e : Nat) : (s.flagTimeout p e).fuses = s.fuses := by
  unfold State.flagTimeout
  dsimp only
  (repeat' split) <;> simp

@[simp] theorem State.pageTile_fuses (s : State) (a : Nat) : (s.pageTile a).1.fuses = s.fuses := by
  simp [State.pageTile]

@[simp] theorem State.readPage_fuses (s : State) (im : Image) (st : StreamEnt) (page : Nat) : (s.readPage im st page).1.fuses = s.fuses :=
  foldl_kept (β := State × Option PageFault) (f := fun acc a => ((acc.1.pageTile a).1, acc.2 <|> (acc.1.pageTile a).2))
    (·.1.fuses) (fun acc a => acc.1.pageTile_fuses a) _ (s, none)

@[simp] theorem State.fetchPage_fuses (s : State) (p page : Nat) : (s.fetchPage p page).fuses = s.fuses := by
  unfold State.fetchPage
  dsimp only
  (repeat' split) <;> simp

/-! ## Requests and functions -/

@[simp] theorem State.onFunc_fuses (s : State) (f : Nat) (g : Func → Func) : (s.onFunc f g).fuses = s.fuses := rfl

@[simp] theorem State.setStake_fuses (s : State) (f v : Nat) : (s.setStake f v).fuses = s.fuses := rfl

@[simp] theorem State.debit_fuses (s : State) (f cost : Nat) : (s.debit f cost).fuses = s.fuses := by
  simp [State.debit]

@[simp] theorem State.credit_fuses (s : State) (f cost : Nat) : (s.credit f cost).fuses = s.fuses := by
  simp [State.credit]

@[simp] theorem State.deviceWrite_fuses (s : State) (a : Nat) (bs : List Byte) : (s.deviceWrite a bs).fuses = s.fuses := rfl

@[simp] theorem State.reqWrite_fuses (s : State) (f space a : Nat) (bs : List Byte) : (s.reqWrite f space a bs).fuses = s.fuses := by
  simp [State.reqWrite]

@[simp] theorem State.pushCpl_fuses (s : State) (f : Nat) (c : Cpl) : (s.pushCpl f c).fuses = s.fuses := rfl

@[simp] theorem State.dropReq_fuses (s : State) (r : Req) : (s.dropReq r).fuses = s.fuses := by
  simp [State.dropReq]

@[simp] theorem State.finish_fuses (s : State) (r : Req) (status cancel : Nat) : (s.finish r status cancel).fuses = s.fuses := by
  unfold State.finish
  dsimp only
  (repeat' split) <;> simp

@[simp] theorem State.onReq_fuses (s : State) (order : Nat) (f : Req → Req) : (s.onReq order f).fuses = s.fuses := rfl

@[simp] theorem State.cplMessage_fuses (s : State) (f : Nat) : (s.cplMessage f).fuses = s.fuses := by
  simp [State.cplMessage]

@[simp] theorem State.freeSlot_fuses (s : State) (f : Nat) (c : Cpl) : (s.freeSlot f c).fuses = s.fuses := by
  simp [State.freeSlot]

@[simp] theorem State.writeCpl_fuses (s : State) (f : Nat) : (s.writeCpl f).fuses = s.fuses := by
  unfold State.writeCpl
  dsimp only
  (repeat' split) <;> simp

@[simp] theorem State.cancelReq_fuses (s : State) (r : Req) : (s.cancelReq r).fuses = s.fuses := by
  simp [State.cancelReq]

@[simp] theorem State.sweepSlot_fuses (s : State) (f slot : Nat) : (s.sweepSlot f slot).fuses = s.fuses := by
  unfold State.sweepSlot
  dsimp only
  (repeat' split) <;> simp

@[simp] theorem State.sweep_fuses (s : State) : s.sweep.fuses = s.fuses := by
  simp [State.sweep]

@[simp] theorem State.admission_fuses (s : State) (f : Nat) : (s.admission f).fuses = s.fuses := by
  unfold State.admission
  split <;> simp

@[simp] theorem State.endCostly_fuses (s : State) (r : Req) : (s.endCostly r).fuses = s.fuses := by
  simp [State.endCostly]

@[simp] theorem State.endAtBoundary_fuses (s : State) (h : HandHdr) : (s.endAtBoundary h).fuses = s.fuses := by
  refine foldl_fuses _ _ fun t x => ?_
  split
  · split <;> simp
  · rfl

@[simp] theorem State.pause_fuses (s : State) (r : Req) : (s.pause r).fuses = s.fuses := by
  simp [State.pause]

@[simp] theorem State.pauseUnpaid_fuses (s : State) (h : HandHdr) : (s.pauseUnpaid h).fuses = s.fuses := by
  simp [State.pauseUnpaid]

@[simp] theorem State.pauseLeft_fuses (s : State) (h : HandHdr) (pick : List Nat) : (s.pauseLeft h pick).fuses = s.fuses := by
  simp [State.pauseLeft]

@[simp] theorem State.promptTokens_fuses (s : State) (r : Req) (i n : Nat) : (s.promptTokens r i n).2.fuses = s.fuses := by
  unfold State.promptTokens
  dsimp only
  split_ifs <;> simp

@[simp] theorem State.readPrompts_fuses (s : State) (l : List Req) : (s.readPrompts l).2.fuses = s.fuses := by
  induction l generalizing s with
  | nil => rfl
  | cons r rs ih =>
    have read := s.promptTokens_fuses r r.prompt r.rows
    unfold State.readPrompts
    split
    · exact ih s
    · split
      · next bs s1 e =>
        rw [e] at read
        exact (ih s1).trans read
      · next s1 e =>
        rw [e] at read
        rw [ih]
        exact (s1.finish_fuses ..).trans read

@[simp] theorem State.sealedWrite_fuses (s : State) (a : Nat) (bs : List Byte) : (s.sealedWrite a bs).fuses = s.fuses := rfl

@[simp] theorem State.writeBatch_fuses (s : State) (g number handId : Nat) (rs : List (Req × List Byte)) (bs : List BatchReq) :
    (s.writeBatch g number handId rs bs).fuses = s.fuses := by
  simp [State.writeBatch]

@[simp] theorem State.enter_fuses (s : State) (bs : List BatchReq) : (s.enter bs).fuses = s.fuses := by
  unfold State.enter
  refine foldl_fuses _ _ fun t x => ?_
  dsimp only
  (repeat' split) <;> simp

@[simp] theorem State.afterDealing_fuses (s : State) (r : Req) (gained : Bool) : (s.afterDealing r gained).fuses = s.fuses := by
  unfold State.afterDealing
  dsimp only
  (repeat' split) <;> simp

@[simp] theorem State.endReq_fuses (s : State) (g i : Nat) (b : BatchReq) : (s.endReq g i b).fuses = s.fuses := by
  unfold State.endReq
  split <;> simp

@[simp] theorem State.endReqs_fuses (s : State) (g : Nat) (bs : List BatchReq) : (s.endReqs g bs).fuses = s.fuses := by
  simp [State.endReqs]

@[simp] theorem State.returnReqs_fuses (s : State) (bs : List BatchReq) : (s.returnReqs bs).fuses = s.fuses := by
  unfold State.returnReqs
  refine foldl_fuses _ _ fun t x => ?_
  dsimp only
  (repeat' split) <;> simp

@[simp] theorem State.disable_fuses (s : State) (f : Nat) : (s.disable f).fuses = s.fuses := by
  simp [State.disable]

@[simp] theorem State.clearConfig_fuses (s : State) (f : Nat) : (s.clearConfig f).fuses = s.fuses := by
  simp [State.clearConfig]

@[simp] theorem State.resetFn_fuses (s : State) (f : Nat) : (s.resetFn f).fuses = s.fuses := by
  simp [State.resetFn]

@[simp] theorem State.disableVfs_fuses (s : State) (lo : Nat) : (s.disableVfs lo).fuses = s.fuses := by
  simp [State.disableVfs]

@[simp] theorem State.enableVfs_fuses (s : State) (n : Nat) : (s.enableVfs n).fuses = s.fuses := by
  simp [State.enableVfs]

@[simp] theorem State.enterD3hot_fuses (s : State) (f : Nat) : (s.enterD3hot f).fuses = s.fuses := by
  simp [State.enterD3hot]

@[simp] theorem State.pcieDown_fuses (s : State) : s.pcieDown.fuses = s.fuses := rfl

@[simp] theorem State.logWrite_fuses (s : State) (f offset : Nat) (bytes : List Byte) : (s.logWrite f offset bytes).fuses = s.fuses := rfl

/-! ## Tricks and aborts -/

@[simp] theorem State.sendOn_fuses (s : State) (ports : List Nat) (t : TrickFlit) : (s.sendOn ports t).fuses = s.fuses := by
  simp [State.sendOn]

@[simp] theorem State.sendHolding_fuses (s : State) (code origin : Nat) (except : Option Nat) :
    (s.sendHolding code origin except).fuses = s.fuses := by
  simp [State.sendHolding]

@[simp] theorem State.roundLimit_fuses (s : State) (g : Nat) : (s.roundLimit g).fuses = s.fuses := by
  simp [State.roundLimit]

@[simp] theorem State.endAll_fuses (s : State) : s.endAll.fuses = s.fuses := by
  simp [State.endAll]

@[simp] theorem State.finishUnload_fuses (s0 : State) : s0.finishUnload.fuses = s0.fuses := by
  simp [State.finishUnload]

@[simp] theorem State.unload_fuses (s : State) : s.unload.fuses = s.fuses := by
  simp [State.unload]

@[simp] theorem State.withdraw_fuses (s : State) (code origin : Nat) : (s.withdraw code origin).fuses = s.fuses := by
  simp [State.withdraw]

@[simp] theorem State.sendWithdraw_fuses (s : State) (code origin : Nat) (except : Option Nat) :
    (s.sendWithdraw code origin except).fuses = s.fuses := by
  simp [State.sendWithdraw]

@[simp] theorem State.burned_fuses (s : State) (p : Nat) : (s.burned p).fuses = s.fuses := by
  simp [State.burned]

@[simp] theorem State.setLevel_fuses (s : State) (p : Nat) : (s.setLevel p).fuses = s.fuses := by
  unfold State.setLevel
  split <;> simp

@[simp] theorem State.deliver_fuses (s : State) (g t : Nat) : (s.deliver g t).fuses = s.fuses := by
  unfold State.deliver
  split <;> simp

@[simp] theorem State.giveTime_fuses (s : State) (g t : Nat) : (s.giveTime g t).fuses = s.fuses := by
  simp [State.giveTime]

@[simp] theorem State.checkpoint_fuses (s : State) (g : Nat) : (s.checkpoint g).fuses = s.fuses := rfl

@[simp] theorem State.comparing_fuses (s : State) : s.comparing.fuses = s.fuses := by
  simp [State.comparing]

@[simp] theorem State.partnerMismatch_fuses (s : State) (mine theirs : PartnerFlit) : (s.partnerMismatch mine theirs).fuses = s.fuses := by
  simp [State.partnerMismatch]

@[simp] theorem State.comparePair_fuses (s : State) (mine theirs : PartnerFlit) : (s.comparePair mine theirs).fuses = s.fuses := by
  simp [State.comparePair]

@[simp] theorem State.compare_fuses (s : State) (f : PartnerFlit) : (s.compare f).fuses = s.fuses := by
  unfold State.compare
  dsimp only
  (repeat' split) <;> simp

@[simp] theorem State.slotsEnded_fuses (s : State) (h : HandHdr) : (s.slotsEnded h).fuses = s.fuses := rfl

@[simp] theorem State.endDealing_fuses (s : State) (g : Nat) : (s.endDealing g).fuses = s.fuses := by
  unfold State.endDealing
  dsimp only
  (repeat' split) <;> simp

@[simp] theorem State.endCheck_fuses (s : State) (g p : Nat) (pass : Bool) : (s.endCheck g p pass).fuses = s.fuses := by
  simp [State.endCheck]

@[simp] theorem State.release_fuses (s : State) (g t : Nat) : (s.release g t).fuses = s.fuses := by
  unfold State.release
  split <;> simp

@[simp] theorem State.ownNeed_fuses (s : State) (d : Option Dealing) : (s.ownNeed d).2.fuses = s.fuses := by
  unfold State.ownNeed
  split <;> simp

@[simp] theorem State.trickCheck_fuses (s : State) (g : Nat) : (s.trickCheck g).fuses = s.fuses := by
  unfold State.trickCheck
  dsimp only
  (repeat' split) <;> simp

@[simp] theorem State.loadCheck_fuses (s : State) (g : Nat) : (s.loadCheck g).fuses = s.fuses := by
  unfold State.loadCheck
  split <;> simp

@[simp] theorem State.returnGroup_fuses (s : State) (g code : Nat) : (s.returnGroup g code).fuses = s.fuses := by
  simp [State.returnGroup]

@[simp] theorem State.stopMember_fuses (s : State) (p : Nat) : (s.stopMember p).fuses = s.fuses := by
  simp [State.stopMember]

@[simp] theorem State.startAbort_fuses (s : State) (g : Nat) (a : AbortInfo) (ports : List Nat) : (s.startAbort g a ports).fuses = s.fuses := by
  simp [State.startAbort]

@[simp] theorem State.abortJournal_fuses (s : State) (g : Nat) (a : AbortInfo) : (s.abortJournal g a).fuses = s.fuses := by
  simp [State.abortJournal]

@[simp] theorem State.returnAll_fuses {s : State} {again : Nat → State → State} (g : Nat) (x : AbortInfo)
    (h : ∀ n t, SameFuses t (again n t)) : (State.returnAll again s g x).fuses = s.fuses := by
  simp [State.returnAll, (h _ _).eq]

@[simp] theorem State.abortComplete_fuses {s : State} {again : Nat → State → State} (g : Nat) (x : AbortInfo)
    (h : ∀ n t, SameFuses t (again n t)) : (State.abortComplete again s g x).fuses = s.fuses := by
  unfold State.abortComplete
  simp [(h _ _).eq]

@[simp] theorem State.abortCheck_fuses (n : Nat) (s : State) (g : Nat) : (State.abortCheck n s g).fuses = s.fuses := by
  induction n generalizing s g with
  | zero => rfl
  | succ n ih =>
    unfold State.abortCheck
    dsimp only
    split
    · rfl
    · split_ifs <;> simp [ih]

@[simp] theorem State.abortGroup_fuses (s : State) (g : Nat) (a : AbortInfo) (ports : List Nat) : (s.abortGroup g a ports).fuses = s.fuses := by
  simp [State.abortGroup]

@[simp] theorem State.loseTree_fuses (s : State) (port code : Nat) : (s.loseTree port code).fuses = s.fuses := by
  simp [State.loseTree]

@[simp] theorem State.loseLink_fuses (s : State) (port : Nat) : (s.loseLink port).fuses = s.fuses := by
  simp [State.loseLink]

@[simp] theorem State.activity_fuses (s : State) : s.activity.2.fuses = s.fuses := rfl

@[simp] theorem State.setRamp_fuses (s : State) (p a : Nat) : (s.setRamp p a).fuses = s.fuses := rfl

@[simp] theorem State.arrive_fuses (s : State) (p : Nat) : (s.arrive p).fuses = s.fuses := by
  unfold State.arrive
  dsimp only
  (repeat' split) <;> simp

@[simp] theorem State.abortTrick_fuses (s : State) (p : Nat) : (s.abortTrick p).fuses = s.fuses := by
  unfold State.abortTrick
  dsimp only
  (repeat' split) <;> simp

@[simp] theorem State.resume_fuses (s : State) (p : Nat) : (s.resume p).fuses = s.fuses := by
  unfold State.resume
  dsimp only
  (repeat' split) <;> simp

@[simp] theorem State.dummyStep_fuses (s : State) (p : Nat) : (s.dummyStep p).fuses = s.fuses := by
  unfold State.dummyStep
  split <;> simp

@[simp] theorem State.takeTrick_fuses {s : State} {act : TrickFlit → State → State} (port kind : Nat)
    (h : ∀ f t, SameFuses t (act f t)) : (s.takeTrick port kind act).fuses = s.fuses := by
  unfold State.takeTrick
  split
  · rfl
  · split
    · split
      · exact h _ _
      · rfl
    · rfl

@[simp] theorem State.badTrick_fuses (s : State) : s.badTrick.fuses = s.fuses := rfl

@[simp] theorem State.onArrive_fuses (port : Nat) (t : TrickFlit) (s : State) : (State.onArrive port t s).fuses = s.fuses := by
  unfold State.onArrive
  dsimp only
  (repeat' split) <;> simp

@[simp] theorem State.straggler_fuses (s : State) (g t : Nat) : (s.straggler g t).fuses = s.fuses := by
  unfold State.straggler
  split <;> simp

@[simp] theorem State.onRelease_fuses (port : Nat) (t : TrickFlit) (s : State) : (State.onRelease port t s).fuses = s.fuses := by
  simp [State.onRelease]

@[simp] theorem State.onEnd_fuses (port : Nat) (t : TrickFlit) (s : State) : (State.onEnd port t s).fuses = s.fuses := by
  simp [State.onEnd]

@[simp] theorem State.onWithdraw_fuses (port : Nat) (t : TrickFlit) (s : State) : (State.onWithdraw port t s).fuses = s.fuses := by
  simp [State.onWithdraw]

@[simp] theorem State.onHolding_fuses (port : Nat) (t : TrickFlit) (s : State) : (State.onHolding port t s).fuses = s.fuses := by
  simp [State.onHolding]

@[simp] theorem State.onAbort_fuses (port : Nat) (t : TrickFlit) (s : State) : (State.onAbort port t s).fuses = s.fuses := by
  simp [State.onAbort]

@[simp] theorem State.onAbortArrive_fuses (port : Nat) (t : TrickFlit) (s : State) : (State.onAbortArrive port t s).fuses = s.fuses := by
  simp [State.onAbortArrive]

@[simp] theorem State.onAbortDone_fuses (port : Nat) (t : TrickFlit) (s : State) : (State.onAbortDone port t s).fuses = s.fuses := by
  unfold State.onAbortDone
  dsimp only
  (repeat' split) <;> simp

/-! ## Dealing -/

@[simp] theorem State.wakeDie_fuses (s : State) (d : Nat) : (s.wakeDie d).fuses = s.fuses := rfl

@[simp] theorem State.seqDealt_fuses (s : State) (p handId : Nat) : (s.seqDealt p handId).fuses = s.fuses := by
  simp [State.seqDealt]

@[simp] theorem State.firstPages_fuses (s : State) (im : Image) (e : StreamEnt) : (s.firstPages im e).1.fuses = s.fuses :=
  foldl_kept (β := State × List Frame) (·.1.fuses) (fun a _ => a.1.readPage_fuses ..) _ (s, [])

@[simp] theorem State.setMember_fuses (s : State) (p : Nat) (m : Member) (handId : Nat) (res : ResBlock) (frames : List Frame) :
    (s.setMember p m handId res frames).fuses = s.fuses := by
  simp [State.setMember]

@[simp] theorem State.setMembers_fuses (s : State) (im : Image) (h : Hand) (m : Member) : (s.setMembers im h m).fuses = s.fuses := by
  unfold State.setMembers
  refine foldl_fuses _ _ fun t x => ?_
  dsimp only
  (repeat' split) <;> simp

@[simp] theorem State.writeRecord_fuses (s : State) (g : Nat) (h : HandHdr) (epochs : List Nat) : (s.writeRecord g h epochs).fuses = s.fuses := by
  simp [State.writeRecord]

@[simp] theorem State.vote_fuses (s : State) (g : Nat) : (s.vote g).fuses = s.fuses := by
  simp [State.vote]

@[simp] theorem State.dealHand_fuses (s : State) (im : Image) (i : Nat) (h : Hand) (serial t : Nat) (rs : List (Req × List Byte)) :
    (s.dealHand im i h serial t rs).fuses = s.fuses := by
  simp [State.dealHand]

@[simp] theorem State.dealOwn_fuses (s : State) (im : Image) (i : Nat) (h : Hand) (rs : List (Req × List Byte)) (need extra : Nat) :
    (s.dealOwn im i h rs need extra).fuses = s.fuses := by
  simp [State.dealOwn]

@[simp] theorem State.dealCheck_fuses (s : State) (p need extra : Nat) : (s.dealCheck p need extra).fuses = s.fuses := by
  simp [State.dealCheck]

@[simp] theorem State.firstAdmitted_fuses (s : State) (l : List Cand) : (s.firstAdmitted l).2.fuses = s.fuses := by
  induction l generalizing s with
  | nil => rfl
  | cons c cs ih =>
    unfold State.firstAdmitted
    dsimp only
    split
    · rfl
    · exact ih _

@[simp] theorem State.dealAsked_fuses (s : State) (g : Nat) : (s.dealAsked g).fuses = s.fuses := by
  unfold State.dealAsked
  split <;> simp

@[simp] theorem State.deal_fuses (s : State) (pick : List Nat) (need extra : Nat) : (s.deal pick need extra).fuses = s.fuses := by
  unfold State.deal
  split
  · rfl
  · split
    · exact s.dealAsked_fuses _
    · extract_lets s1 hs cs
      have h1 : s1.fuses = s.fuses := by simp [s1]
      have admitted := (s1.firstAdmitted_fuses (s1.rank cs)).trans h1
      split
      · next s2 e => rw [e] at admitted; exact admitted
      · next c s2 e =>
        have h2 : s2.fuses = s.fuses := by rw [e] at admitted; exact admitted
        split
        · split <;> simp [h2]
        · split
          · next im h _ _ =>
            have read := (s2.pauseLeft h.hdr pick).readPrompts_fuses (s2.compose h.hdr pick)
            rw [State.pauseLeft_fuses, h2] at read
            split
            · simp [h2]
            · split
              · next s3 e3 => rw [e3] at read; exact read
              · next rs s3 _ e3 => rw [e3] at read; exact (State.dealOwn_fuses ..).trans read
          · exact h2

@[simp] theorem State.onDeal_fuses (port : Nat) (t : TrickFlit) (s : State) : (State.onDeal port t s).fuses = s.fuses := by
  simp [State.onDeal]

@[simp] theorem State.dueCheck_fuses (s : State) : s.dueCheck.fuses = s.fuses := by
  simp [State.dueCheck]

@[simp] theorem State.breakTiles_fuses (s : State) (l : Nat) : (s.breakTiles l).fuses = s.fuses := by
  simp [State.breakTiles]

@[simp] theorem State.swapCore_fuses (s : State) (p c l : Nat) : (s.swapCore p c l).fuses = s.fuses := by
  simp [State.swapCore]

end Sys2Proof.Machine
end

-- ==== Fuses: links, time and power ====
section
/-! PROOFS. What the operations of package reset, links, time and power leave of the fuses (O4). -/

namespace Sys2Proof.Machine

/-! ## Stages and package reset -/

@[simp] theorem State.stage_fuses (s : State) (f : Fld) (c : Bool) : (s.stage f c).fuses = s.fuses := by
  simp [State.stage]

@[simp] theorem State.stages_fuses (s : State) : s.stages.fuses = s.fuses := by
  simp [State.stages]

@[simp] theorem State.cutShort_fuses (s : State) : s.cutShort.fuses = s.fuses := by
  unfold State.cutShort
  split <;> simp

@[simp] theorem State.resetNow_fuses (s : State) (perst : Bool) : (s.resetNow perst).fuses = s.fuses := rfl

@[simp] theorem State.resetIfDue_fuses (s : State) : s.resetIfDue.fuses = s.fuses := by
  unfold State.resetIfDue
  split <;> simp

/-! ## Links -/

@[simp] theorem State.retire_fuses (s : State) (port seq : Nat) : (s.retire port seq).fuses = s.fuses := rfl

@[simp] theorem State.applied_fuses (s : State) (o : Owner) : (s.applied o).fuses = s.fuses := by
  unfold State.applied
  split <;> simp

@[simp] theorem State.reported_fuses (s : State) (port v : Nat) : (s.reported port v).fuses = s.fuses := by
  simp [State.reported]

@[simp] theorem State.retireElastic_fuses (s : State) (port : Nat) (x : Elastic) : (s.retireElastic port x).fuses = s.fuses := by
  simp [State.retireElastic]

@[simp] theorem State.putFlit_fuses (s : State) (port : Nat) (f : Flit) : (s.putFlit port f).fuses = s.fuses := rfl

@[simp] theorem State.sendPlain_fuses (s : State) (port ty code arg : Nat) : (s.sendPlain port ty code arg).fuses = s.fuses := rfl

@[simp] theorem State.sendNew_fuses (s : State) (port : Nat) (f : Flit) (o : Owner) : (s.sendNew port f o).fuses = s.fuses := by
  unfold State.sendNew
  split <;> simp

@[simp] theorem State.sendWheel_fuses (s : State) (port : Nat) : (s.sendWheel port).fuses = s.fuses := by
  unfold State.sendWheel
  dsimp only
  (repeat' split) <;> simp

@[simp] theorem State.sendFlit_fuses (s : State) (port : Nat) : (s.sendFlit port).fuses = s.fuses := by
  unfold State.sendFlit
  dsimp only
  (repeat' split) <;> simp

@[simp] theorem State.linkDown_fuses (n : Nat) (s : State) (port : Nat) : (State.linkDown n s port).fuses = s.fuses := by
  induction n generalizing s port with
  | zero => rfl
  | succ n ih =>
    unfold State.linkDown
    simp [ih]

@[simp] theorem State.retrain_fuses (s : State) (port : Nat) : (s.retrain port).fuses = s.fuses := rfl

@[simp] theorem State.startRedeal_fuses (s : State) (port cause seq : Nat) : (s.startRedeal port cause seq).fuses = s.fuses := by
  unfold State.startRedeal
  dsimp only
  (repeat' split) <;> simp

@[simp] theorem State.startReplay_fuses (s : State) (port v : Nat) (counted : Bool) : (s.startReplay port v counted).fuses = s.fuses := by
  unfold State.startReplay
  dsimp only
  (repeat' split) <;> simp

@[simp] theorem State.backOff_fuses (s : State) (port v : Nat) : (s.backOff port v).fuses = s.fuses := by
  simp [State.backOff]

@[simp] theorem State.startTraining_fuses (s : State) (port : Nat) : (s.startTraining port).fuses = s.fuses := rfl

@[simp] theorem State.trainFail_fuses (s : State) (port : Nat) : (s.trainFail port).fuses = s.fuses := by
  simp [State.trainFail]

@[simp] theorem State.trainTo_fuses (s : State) (port st : Nat) : (s.trainTo port st).fuses = s.fuses := rfl

@[simp] theorem State.adapted_fuses (s : State) (port : Nat) : (s.adapted port).fuses = s.fuses := rfl

@[simp] theorem State.equalized_fuses (s : State) (port : Nat) (r : TrainReport) : (s.equalized port r).fuses = s.fuses := by
  unfold State.equalized
  dsimp only
  (repeat' split) <;> simp

@[simp] theorem State.freshStart_fuses (s : State) (port : Nat) : (s.freshStart port).fuses = s.fuses := by
  simp [State.freshStart]

@[simp] theorem State.release'_fuses (s : State) (port v : Nat) : (s.release' port v).fuses = s.fuses := rfl

@[simp] theorem State.configured_fuses (s : State) (port : Nat) (r : TrainReport) : (s.configured port r).fuses = s.fuses := by
  simp [State.configured]

@[simp] theorem State.trainDone_fuses (s : State) (port : Nat) (r : TrainReport) : (s.trainDone port r).fuses = s.fuses := by
  unfold State.trainDone
  split <;> simp

@[simp] theorem State.partSeal_fuses (s : State) (part addr : Nat) : (s.partSeal part addr).fuses = s.fuses := rfl

@[simp] theorem State.refuseTile_fuses (s : State) (port : Nat) (f : Flit) : (s.refuseTile port f).fuses = s.fuses := by
  unfold State.refuseTile
  dsimp only
  (repeat' split) <;> simp

@[simp] theorem State.binPut_fuses (s : State) (port : Nat) (raw : List Byte) : (s.binPut port raw).fuses = s.fuses := by
  simp [State.binPut]

@[simp] theorem State.discardInfo_fuses (s : State) (port : Nat) (f : Flit) (core reason : Nat) :
    (s.discardInfo port f core reason).fuses = s.fuses := by
  simp [State.discardInfo]

@[simp] theorem State.windowFault_fuses (s : State) (core code : Nat) : (s.windowFault core code).fuses = s.fuses := by
  unfold State.windowFault
  split <;> simp

@[simp] theorem State.refuseFlit_fuses (s : State) (port : Nat) (f : Flit) (raw : List Byte) (reason : Nat) :
    (s.refuseFlit port f raw reason).fuses = s.fuses := by
  simp [State.refuseFlit]

@[simp] theorem State.staleFlit_fuses (s : State) (port : Nat) (f : Flit) (raw : List Byte) : (s.staleFlit port f raw).fuses = s.fuses := by
  unfold State.staleFlit
  split <;> simp

@[simp] theorem State.enqueue_fuses (s : State) (port : Nat) (f : Flit) (raw : List Byte) (forward : Bool) (checked : Option Nat) :
    (s.enqueue port f raw forward checked).fuses = s.fuses := rfl

theorem State.place_fuses {s t : State} {port : Nat} {f : Flit} {raw : List Byte} : s.place port f raw = some t → t.fuses = s.fuses := by
  have done {u : State} (hu : u.fuses = s.fuses) (h : some (u.retire port f.seq) = some t) : t.fuses = s.fuses := by
    rw [← Option.some.inj h, State.retire_fuses, hu]
  have room {u : State} {c : Option Nat} {b : Bool}
      (h : (if decide (256 ≤ (s.port port).elastic.length) = true then none else some (s.enqueue port f raw b c)) = some u) :
      u.fuses = s.fuses := by
    split at h
    · cases h
    · rw [← Option.some.inj h, State.enqueue_fuses]
  unfold State.place
  dsimp only
  split
  · split
    · exact done rfl
    · split <;> exact done rfl
  · split
    · split
      · exact done rfl
      · split <;> exact done rfl
    · split
      · exact done (s.refuseFlit_fuses ..)
      · split
        · intro h
          obtain ⟨u, hu, rfl⟩ := Option.map_eq_some_iff.1 h
          have kept := room hu
          split
          · exact (State.linkDown_fuses ..).trans kept
          · exact kept
        · split
          · exact room
          · split
            · exact room
            · exact room
            · exact done (s.staleFlit_fuses ..)
            · exact done (s.refuseFlit_fuses ..)

@[simp] theorem State.accept_fuses (s : State) (port : Nat) (f : Flit) (raw : List Byte) : (s.accept port f raw).fuses = s.fuses := by
  unfold State.accept
  dsimp only
  split
  · split
    · next t ht => simp [State.place_fuses ht]
    · simp
  · split <;> simp

@[simp] theorem State.header_fuses (s : State) (port : Nat) (f : Flit) : (s.header port f).fuses = s.fuses := by
  simp [State.header]

@[simp] theorem State.noteBeacon_fuses (s : State) (port : Nat) (b : Beacon) : (s.noteBeacon port b).fuses = s.fuses := by
  simp [State.noteBeacon]

@[simp] theorem State.plain_fuses (s : State) (port ago : Nat) (f : Flit) : (s.plain port ago f).fuses = s.fuses := by
  unfold State.plain
  dsimp only
  (repeat' split) <;> simp

@[simp] theorem State.decoded_fuses (s : State) (port ago : Nat) (f : Flit) (bs : List Byte) : (s.decoded port ago f bs).fuses = s.fuses := by
  simp [State.decoded]

@[simp] theorem State.receive_fuses (s : State) (port : Nat) (levels : List (List Nat)) (ago : Nat) :
    (s.receive port levels ago).fuses = s.fuses := by
  unfold State.receive
  dsimp only
  (repeat' split) <;> simp

@[simp] theorem State.dropElastic_fuses (s : State) (port i : Nat) : (s.dropElastic port i).fuses = s.fuses := rfl

@[simp] theorem State.setElastic_fuses (s : State) (port i : Nat) (x : Elastic) : (s.setElastic port i x).fuses = s.fuses := rfl

@[simp] theorem State.withHead_fuses {s : State} {go : State → Nat → Elastic → State} (port : Nat)
    (h : ∀ t i x, SameFuses t (go t i x)) : (s.withHead port go).fuses = s.fuses := by
  unfold State.withHead
  split
  · rfl
  · split
    · rfl
    · split
      · exact h _ _ _
      · split
        · exact h _ _ _
        · rfl
        · simp
        · simp

@[simp] theorem State.collideFault_fuses (s : State) (p : Nat) (f : Option (Nat × Nat)) : (s.collideFault p f).fuses = s.fuses := by
  unfold State.collideFault
  split <;> simp

@[simp] theorem State.receiveData_fuses (s : State) (port i : Nat) (x : Elastic) (part : Nat) : (s.receiveData port i x part).fuses = s.fuses := by
  simp [State.receiveData]

@[simp] theorem State.takeFetch_fuses (s : State) (port i : Nat) (x : Elastic) (part : Nat) : (s.takeFetch port i x part).fuses = s.fuses := by
  simp [State.takeFetch]

@[simp] theorem State.responderPoison_fuses (s : State) (p a : Nat) : (s.responderPoison p a).fuses = s.fuses := by
  simp [State.responderPoison]

@[simp] theorem State.serveFetch_fuses (s : State) (p : Nat) (r : FetchReq) : (s.serveFetch p r).fuses = s.fuses := by
  simp [State.serveFetch]

@[simp] theorem State.fetchAddr_fuses (s : State) (p : Nat) (x : ExecEntry) (j : Nat) : (s.fetchAddr p x j).2.fuses = s.fuses := by
  unfold State.fetchAddr
  dsimp only
  (repeat' split) <;> simp

@[simp] theorem State.settled_fuses (s : State) (p tile : Nat) : (s.settled p tile).fuses = s.fuses := rfl

@[simp] theorem State.endFetchTile_fuses (s : State) (p : Nat) (x : ExecEntry) (f : Flit) (j tile : Nat) (lost : Bool) :
    (s.endFetchTile p x f j tile lost).fuses = s.fuses := by
  unfold State.endFetchTile
  dsimp only
  (repeat' split) <;> simp

@[simp] theorem State.landFetch_fuses (s : State) (p : Nat) (x : ExecEntry) (f : Flit) : (s.landFetch p x f).fuses = s.fuses := by
  simp [State.landFetch]

@[simp] theorem State.routeData_fuses (s : State) : s.routeData.2.fuses = s.fuses := rfl

/-! ## Time -/

@[simp] theorem State.fwFetched_fuses (s : State) : s.fwFetched.fuses = s.fuses := by
  simp [State.fwFetched]

@[simp] theorem State.idleTick_fuses (s : State) : s.idleTick.fuses = s.fuses := by
  simp [State.idleTick]

@[simp] theorem State.switchTo_fuses (s : State) (alt : Bool) : (s.switchTo alt).fuses = s.fuses := rfl

@[simp] theorem State.holdover_fuses (s : State) : s.holdover.fuses = s.fuses := by
  simp [State.holdover]

@[simp] theorem State.lost_fuses (s : State) : s.lost.fuses = s.fuses := by
  simp [State.lost]

@[simp] theorem State.leavePort_fuses (s : State) : s.leavePort.fuses = s.fuses := by
  simp [State.leavePort]

@[simp] theorem State.ownTime_fuses (s : State) (st stratum : Nat) : (s.ownTime st stratum).fuses = s.fuses := rfl

@[simp] theorem State.timeConfig_fuses (s : State) : s.timeConfig.fuses = s.fuses := by
  simp [State.timeConfig]

@[simp] theorem State.timeWrite_fuses {s : State} {act : State → State}
    (h : ∀ t, SameFuses t (act t)) : (s.timeWrite act).fuses = s.fuses := by
  simp [State.timeWrite, (h _).eq]

@[simp] theorem State.askStep_fuses (s : State) (r : StepReq) : (s.askStep r).fuses = s.fuses := rfl

@[simp] theorem State.useOffset_fuses (s : State) (e : Int) (ppm : Nat) : (s.useOffset e ppm).fuses = s.fuses := by
  simp [State.useOffset]

@[simp] theorem State.useBeacon_fuses (s : State) (port : Nat) (b : Beacon) (ppm : Nat) : (s.useBeacon port b ppm).fuses = s.fuses := by
  simp [State.useBeacon]

@[simp] theorem State.onBeacon_fuses (s : State) (ppm : Nat) : (s.onBeacon ppm).fuses = s.fuses := by
  unfold State.onBeacon
  dsimp only
  (repeat' split) <;> simp

@[simp] theorem State.settleStakes_fuses (s : State) (t : Nat) : (s.settleStakes t).fuses = s.fuses := by
  simp [State.settleStakes]

@[simp] theorem State.setTime_fuses (s0 : State) (t : Nat) : (s0.setTime t).fuses = s0.fuses := by
  simp [State.setTime]

@[simp] theorem State.applyStep_fuses (s : State) : s.applyStep.fuses = s.fuses := by
  unfold State.applyStep
  split <;> simp

@[simp] theorem State.moveRefs_fuses (s : State) (die : Nat) (d e : Int) : (s.moveRefs die d e).fuses = s.fuses := by
  simp [State.moveRefs]

@[simp] theorem State.retune_fuses (s : State) (die f : Nat) : (s.retune die f).fuses = s.fuses := by
  simp [State.retune]

/-! ## Power -/

@[simp] theorem State.clockDie_fuses (s : State) (d : Nat) : (s.clockDie d).fuses = s.fuses := by
  simp [State.clockDie]

@[simp] theorem State.trip_fuses (s : State) : s.trip.fuses = s.fuses := by
  simp [State.trip]

@[simp] theorem State.charge_fuses (s : State) (e : Nat) : (s.charge e).fuses = s.fuses := rfl

@[simp] theorem State.paceSet_fuses (s : State) (k : Rat) (cs : List Nat) (b : Rat) : (s.paceSet k cs b).fuses = s.fuses := by
  simp [State.paceSet]

@[simp] theorem State.pace_fuses (s : State) (k bc : Rat) : (s.pace k bc).fuses = s.fuses := by
  simp [State.pace]

@[simp] theorem State.dieTick_fuses (s : State) (r : PowerReport) (bc : Rat) (d : Nat) : (s.dieTick r bc d).fuses = s.fuses := by
  simp [State.dieTick]

@[simp] theorem State.closeTick_fuses (s : State) : s.closeTick.fuses = s.fuses := by
  refine foldl_fuses _ _ fun t x => ?_
  split <;> rfl

@[simp] theorem State.powerTick_fuses (s0 : State) (r : PowerReport) : (s0.powerTick r).fuses = s0.fuses := by
  simp [State.powerTick]

@[simp] theorem State.compareEnergy_fuses (s : State) (valid : Bool) : (s.compareEnergy valid).fuses = s.fuses := by
  simp [State.compareEnergy]

@[simp] theorem State.readPins_fuses (s : State) : s.readPins.fuses = s.fuses := by
  simp [State.readPins]

@[simp] theorem State.spread_fuses (s : State) (from' e : Nat) : (s.spread from' e).fuses = s.fuses := rfl

@[simp] theorem State.measure_fuses (s0 : State) (replies : List (Option (BitVec 16))) : (s0.measure replies).fuses = s0.fuses := by
  change SameFuses s0 _
  unfold State.measure
  split
  · rfl
  · obtain ⟨s, e, hs⟩ := SameFuses.named (s0.waitUntil_fuses (s0.marks.measAt + 1000000))
    rw [e]
    extract_lets +onlyGivenNames _ est ns _ _ s1
    obtain ⟨s2, e, h2⟩ := SameFuses.named ((s1.wr_fuses R.PWR_POWER_EST (min 0xFFFF (est / (1000000 * ns))) 0 0).trans hs)
    rw [e]
    obtain ⟨r, e, hr⟩ := SameFuses.named (s2.readPins_fuses.trans h2)
    extract_lets +onlyGivenNames _
    rw [e]
    extract_lets _ rs failed misses _ s3 w n _ s4 s5
    have h3 : SameFuses s0 s3 := (State.bumpBy_fuses ..).trans hr
    have h5 : SameFuses s0 s5 :=
      (State.compareEnergy_fuses ..).trans ((State.wr_fuses ..).trans ((State.wr_fuses ..).trans h3))
    split
    · exact (State.compareEnergy_fuses ..).trans h2
    · split
      · split
        · exact (State.compareEnergy_fuses ..).trans ((State.wr_fuses ..).trans h3)
        · exact (State.compareEnergy_fuses ..).trans h3
      · split
        · exact (State.spread_fuses ..).trans h5
        · exact h5

end Sys2Proof.Machine
end

-- ==== Fuses: faults, bring-up and host ====
section
/-! PROOFS. What the operations of faults, bring-up, life cycle and host accesses leave of the fuses (O4). A transition of the life cycle burns the
life-cycle word (R526) and leaves the others. -/

namespace Sys2Proof.Machine

/-! ## Health and faults -/

@[simp] theorem State.setSampled_fuses (s : State) (k v : Nat) : (s.setSampled k v).fuses = s.fuses := rfl

@[simp] theorem State.foldCounters_fuses {s : State} {add : State → Nat → Nat → State}
    (h : ∀ t i n, SameFuses t (add t i n)) : (s.foldCounters add).fuses = s.fuses := by
  simp [State.foldCounters, (h _ _ _).eq]

@[simp] theorem State.setTier_fuses (s : State) (ddr : Bool) (t : Tier) : (s.setTier ddr t).fuses = s.fuses := by
  simp [State.setTier]

@[simp] theorem State.scrub_fuses (s : State) (ddr : Bool) (u word : Nat) (found : ScrubFind) : (s.scrub ddr u word found).fuses = s.fuses := by
  unfold State.scrub
  dsimp only
  (repeat' split) <;> simp

@[simp] theorem State.failedWrites_fuses (s : State) (p : Nat) (x : ExecEntry) : (s.failedWrites p x).fuses = s.fuses := by
  simp [State.failedWrites]

@[simp] theorem State.cplTimeout_fuses (s : State) (f : Nat) : (s.cplTimeout f).fuses = s.fuses := by
  simp [State.cplTimeout]

@[simp] theorem State.dmaReadFails_fuses (s : State) (p : Nat) (x : ExecEntry) : (s.dmaReadFails p x).fuses = s.fuses := by
  simp [State.dmaReadFails]

@[simp] theorem State.promptFails_fuses (s : State) (r : Req) : (s.promptFails r).fuses = s.fuses := by
  simp [State.promptFails]

@[simp] theorem State.fwReject_fuses (s : State) (reason : Nat) : (s.fwReject reason).fuses = s.fuses := rfl

@[simp] theorem State.lcsRefuse_fuses (s : State) (reason : Nat) : (s.lcsRefuse reason).fuses = s.fuses := rfl

@[simp] theorem State.newNonce_fuses (s : State) : s.newNonce.fuses = s.fuses := rfl

@[simp] theorem State.downMessage_fuses (s : State) : s.downMessage.fuses = s.fuses := by
  simp [State.downMessage]

@[simp] theorem State.dealerStop_fuses (s : State) : s.dealerStop.fuses = s.fuses := by
  simp [State.dealerStop]

@[simp] theorem State.dealerDown_fuses (s : State) (wdog : Bool) : (s.dealerDown wdog).fuses = s.fuses := by
  simp [State.dealerDown]

@[simp] theorem State.supply_fuses (s : State) (auxLow pwrFail : Bool) : (s.supply auxLow pwrFail).fuses = s.fuses := by
  simp [State.supply]

@[simp] theorem State.lcsCut_fuses (s : State) : s.lcsCut.fuses = s.fuses := by
  unfold State.lcsCut
  split <;> simp

@[simp] theorem State.sag_fuses (s : State) (auxLow pwrFail : Bool) : (s.sag auxLow pwrFail).fuses = s.fuses := by
  simp [State.sag]

@[simp] theorem State.foldScore_fuses (s : State) (part w : Nat) : (s.foldScore part w).fuses = s.fuses := rfl

@[simp] theorem State.holdupSave_fuses (s : State) : s.holdupSave.fuses = s.fuses := by
  unfold State.holdupSave
  split
  · rfl
  · rw [State.wr_fuses, State.nvmPut_fuses, State.nvmPut_fuses, State.nvmPut_fuses, State.foldCounters_fuses]
    exact fun _ _ _ => rfl

/-! ## PCIe configuration -/

@[simp] theorem State.vfMse_fuses (s : State) (on : Bool) : (s.vfMse on).fuses = s.fuses := by
  simp [State.vfMse]

@[simp] theorem State.cfgWrite_fuses (s : State) (f : Nat) (r : CfgReg) (v : Nat) : (s.cfgWrite f r v).fuses = s.fuses := by
  unfold State.cfgWrite
  split <;> simp

@[simp] theorem State.configLoad_fuses (s : State) (f : Nat) (r : CfgReg) : (s.configLoad f r).fuses = s.fuses := by
  simp [State.configLoad]

@[simp] theorem State.configStore_fuses (s : State) (f : Nat) (r : CfgReg) (v : Nat) : (s.configStore f r v).fuses = s.fuses := by
  simp [State.configStore]

@[simp] theorem State.msixWrite_fuses (s : State) (f e w v : Nat) : (s.msixWrite f e w v).fuses = s.fuses := by
  simp [State.msixWrite]

@[simp] theorem State.bar4Load_fuses (s : State) (f off : Nat) : (s.bar4Load f off).fuses = s.fuses := by
  simp [State.bar4Load]

@[simp] theorem State.bar4Store_fuses (s : State) (f off v : Nat) : (s.bar4Store f off v).fuses = s.fuses := by
  simp [State.bar4Store]

/-! ## Bring-up -/

@[simp] theorem State.senseAll_fuses (s : State) : s.senseAll.fuses = s.fuses := by
  simp [State.senseAll]

@[simp] theorem State.loadFields_fuses (s : State) (n : Nat) : (s.loadFields n).fuses = s.fuses := by
  simp [State.loadFields]

@[simp] theorem State.loadSeeds_fuses (s : State) : s.loadSeeds.fuses = s.fuses := by
  simp [State.loadSeeds]

@[simp] theorem State.loadMaps_fuses (s : State) : s.loadMaps.fuses = s.fuses := by
  unfold State.loadMaps
  split <;> simp

@[simp] theorem State.latchMaps_fuses (s : State) : s.latchMaps.fuses = s.fuses := by
  simp [State.latchMaps]

@[simp] theorem State.loadRecords_fuses (s : State) : s.loadRecords.fuses = s.fuses := by
  unfold State.loadRecords
  dsimp only
  (repeat' split) <;> simp

@[simp] theorem State.loadIdentity_fuses (s : State) : s.loadIdentity.fuses = s.fuses := by
  unfold State.loadIdentity
  split <;> simp

@[simp] theorem State.loadSave_fuses (s : State) : s.loadSave.fuses = s.fuses := rfl

@[simp] theorem State.configure_fuses (s : State) (c : FnConfig) : (s.configure c).fuses = s.fuses := by
  simp [State.configure]

@[simp] theorem State.discard_fuses (s : State) : s.discard.fuses = s.fuses := by
  simp [State.discard]

@[simp] theorem State.hubReset_fuses (s : State) : s.hubReset.fuses = s.fuses := by
  simp [State.hubReset]

@[simp] theorem State.dieBit_fuses (s : State) (f : Fld) (d : Nat) (ok : Bool) : (s.dieBit f d ok).fuses = s.fuses := by
  simp [State.dieBit]

@[simp] theorem State.bist_fuses (s : State) (d : Nat) (shared : Bool) (failing : List Nat) : (s.bist d shared failing).fuses = s.fuses := by
  simp [State.bist]

@[simp] theorem State.ddrPage_fuses (s : State) (k : Nat) (r : DimmReport) (used ok ready : Bool) (rate cap : Nat) :
    (s.ddrPage k r used ok ready rate cap).fuses = s.fuses := by
  simp [State.ddrPage]

@[simp] theorem State.ddrDone_fuses (s : State) (results : List DimmReport) : (s.ddrDone results).fuses = s.fuses := by
  simp [State.ddrDone]

@[simp] theorem State.beginTraining_fuses (s : State) (port : Nat) : (s.beginTraining port).fuses = s.fuses := by
  simp [State.beginTraining]

@[simp] theorem State.bringUpDie_fuses (s : State) (d : Nat) : (s.bringUpDie d).fuses = s.fuses := by
  simp [State.bringUpDie]

@[simp] theorem State.remark_fuses (s : State) : s.remark.fuses = s.fuses := by
  simp [State.remark]

@[simp] theorem State.fwStart_fuses (s : State) (bs : List Byte) : (s.fwStart bs).fuses = s.fuses := by
  simp [State.fwStart]

/-! ## Plans -/

@[simp] theorem State.readImage_fuses (s : State) (addr : Nat) : (s.readImage addr).fuses = s.fuses := by
  simp [State.readImage]

@[simp] theorem State.loadStatus_fuses (s : State) (st : Nat) (r : Reject) : (s.loadStatus st r).fuses = s.fuses := by
  simp [State.loadStatus]

@[simp] theorem State.rejectImage_fuses (s : State) (r : Reject) : (s.rejectImage r).fuses = s.fuses := by
  simp [State.rejectImage]

@[simp] theorem State.measureImage_fuses (s : State) (im : Image) : (s.measureImage im).fuses = s.fuses := rfl

@[simp] theorem State.sealImage_fuses (s : State) (im : Image) : (s.sealImage im).fuses = s.fuses := by
  simp [State.sealImage]

@[simp] theorem State.acceptImage_fuses (s : State) (im : Image) : (s.acceptImage im).fuses = s.fuses := by
  simp [State.acceptImage]

/-! ## Life cycle -/

@[simp] theorem State.nvmStatus_fuses (s : State) (st reason sect : Nat) : (s.nvmStatus st reason sect).fuses = s.fuses := rfl

@[simp] theorem State.nvmHost_fuses (s : State) (sect : Nat) (store : Bool) (reason : Nat) : (s.nvmHost sect store reason).fuses = s.fuses := by
  simp [State.nvmHost]

@[simp] theorem State.nvmEnd_fuses (s : State) (o : NvmOp) (ok : Bool) : (s.nvmEnd o ok).fuses = s.fuses := by
  simp [State.nvmEnd]

@[simp] theorem State.lcsBegin_fuses (s : State) (o : LcsOp) : (s.lcsBegin o).fuses = s.fuses := rfl

@[simp] theorem State.lcsEnd_fuses (s : State) : s.lcsEnd.fuses = s.fuses := rfl

@[simp] theorem State.eraseAll_fuses (s : State) (ns : List Nat) : (s.eraseAll ns).fuses = s.fuses := by
  simp [State.eraseAll]

@[simp] theorem State.doTransition_wired (s : State) (dst : Lcs) (ok : Bool) : (s.doTransition dst ok).fuses.wired = s.fuses.wired := by
  unfold State.doTransition
  split
  · rfl
  · split
    · simp [Fuses.wired]
    · split <;> simp

@[simp] theorem State.submitDone_wired (s : State) (loaded ok : Bool) : (s.submitDone loaded ok).fuses.wired = s.fuses.wired := by
  have read := s.hostRead_fuses 0 (s.rdPair R.LCS_TOKEN_ADDR_LO R.LCS_TOKEN_ADDR_HI) tokenLen
  unfold State.submitDone
  split
  · simp_all
  · next t s1 e =>
    have h1 : s1.fuses = s.fuses := by rw [e] at read; exact read
    simp [apply_ite Fuses.wired, h1]

@[simp] theorem State.claimDone_fuses (s : State) (ok : Bool) : (s.claimDone ok).fuses = s.fuses := by
  have read := s.hostRead_fuses 0 (s.rdPair R.LCS_TOKEN_ADDR_LO R.LCS_TOKEN_ADDR_HI) tokenLen
  unfold State.claimDone
  split
  · simp_all
  · next t s1 e =>
    have h1 : s1.fuses = s.fuses := by rw [e] at read; exact read
    simp [h1]

@[simp] theorem State.certDone_fuses (s : State) (ok : Bool) : (s.certDone ok).fuses = s.fuses := by
  have read := s.hostRead_fuses 0 (s.rdPair R.LCS_TOKEN_ADDR_LO R.LCS_TOKEN_ADDR_HI) 4
  unfold State.certDone
  dsimp only
  split
  · simp_all
  · next l s1 e =>
    have h1 : s1.fuses = s.fuses := by rw [e] at read; exact read
    have read' := s1.hostRead_fuses 0 (s.rdPair R.LCS_TOKEN_ADDR_LO R.LCS_TOKEN_ADDR_HI + 4) (leNat l)
    split
    · simp [h1]
    · split
      · simp_all
      · next c s2 e2 =>
        have h2 : s2.fuses = s.fuses := by rw [e2] at read'; exact read'.trans h1
        simp [h2]

@[simp] theorem State.attAsk_fuses (s : State) (kind : Nat) : (s.attAsk kind).fuses = s.fuses := by
  simp [State.attAsk]

/-! ## Latched registers -/

@[simp] theorem State.latch_fuses (s : State) (b : Block) (inst off : Nat) : (s.latch b inst off).fuses = s.fuses := by
  simp [State.latch]

/-! ## Host accesses -/

@[simp] theorem State.badAccess_fuses (s : State) : s.badAccess.fuses = s.fuses := rfl

@[simp] theorem State.writeField_fuses (s : State) (f : Fld) (inst idx word : Nat) : (s.writeField f inst idx word).fuses = s.fuses := by
  unfold State.writeField
  dsimp only
  (repeat' split) <;> simp

@[simp] theorem State.forgetRecords_fuses (s : State) (b : Block) (inst : Nat) : (s.forgetRecords b inst).fuses = s.fuses := by
  simp [State.forgetRecords]

@[simp] theorem State.aroundWrite_fuses {s : State} {act : State → State} (b : Block) (inst idx off word : Nat)
    (h : ∀ t, SameFuses t (act t)) : (State.aroundWrite b inst idx off word act s).fuses = s.fuses := by
  unfold State.aroundWrite
  split <;> simp [(h _).eq]

@[simp] theorem State.writeWord_fuses (s : State) (b : Block) (inst off word : Nat) : (s.writeWord b inst off word).fuses = s.fuses := by
  unfold State.writeWord
  (repeat' split) <;> simp

@[simp] theorem State.registerWrite_fuses (s : State) (addr : Nat) (enable : BitVec 4) (word : Nat) :
    (s.registerWrite addr enable word).fuses = s.fuses := by
  unfold State.registerWrite
  split <;> simp

@[simp] theorem State.pageCmd_fuses {s : State} {act : Block → Nat → State → State} (page : Nat)
    (h : ∀ b i t, SameFuses t (act b i t)) : (s.pageCmd page act).fuses = s.fuses := by
  unfold State.pageCmd
  split <;> simp [(h _ _ _).eq]

@[simp] theorem State.debugWake_fuses (s : State) (p : Nat) : (s.debugWake p).fuses = s.fuses := by
  simp [State.debugWake]

@[simp] theorem State.debugRead_fuses (s : State) (p : Nat) : (s.debugRead p).2.fuses = s.fuses := by
  simp [State.debugRead]

@[simp] theorem State.dbgData_fuses (s : State) (p : Nat) : (s.dbgData p).2.fuses = s.fuses := by
  unfold State.dbgData
  (repeat' split) <;> simp

@[simp] theorem State.load_fuses (s : State) (b : Block) (inst off : Nat) : (s.load b inst off).2.fuses = s.fuses := by
  unfold State.load
  split <;> simp

@[simp] theorem State.registerRead_fuses (s : State) (addr : Nat) (enable : BitVec 4) : (s.registerRead addr enable).fuses = s.fuses := by
  unfold State.registerRead
  split <;> simp

@[simp] theorem State.bar2Serve_fuses (s : State) (write : Bool) (a n : Nat) : (s.bar2Serve write a n).2.fuses = s.fuses :=
  State.onlyCounts_fuses (State.bar2Serve_counts ..)

@[simp] theorem State.bar2Put_fuses (s : State) (a : Nat) (bs : List Byte) : (s.bar2Put a bs).fuses = s.fuses := by
  simp [State.bar2Put]

@[simp] theorem State.bar2Get_fuses (s : State) (a n : Nat) : (s.bar2Get a n).2.fuses = s.fuses := by
  unfold State.bar2Get
  dsimp only
  split_ifs <;> simp

@[simp] theorem State.bar2Gets_fuses (s : State) (l : List (Nat × Nat)) : (s.bar2Gets l).2.fuses = s.fuses := by
  induction l generalizing s with
  | nil => rfl
  | cons x xs ih => exact (ih _).trans (s.bar2Get_fuses x.1 x.2)

/-! ## The partner -/

@[simp] theorem State.takePartner_fuses {s : State} {act : PartnerFlit → State → State} (kind : Nat)
    (h : ∀ f t, SameFuses t (act f t)) : (s.takePartner kind act).fuses = s.fuses := by
  unfold State.takePartner
  split
  · rfl
  · split
    · split
      · exact h _ _
      · rfl
    · rfl

@[simp] theorem State.diverge_fuses (s : State) (a : PartnerFlit) : (s.diverge a).fuses = s.fuses := by
  unfold State.diverge
  dsimp only
  (repeat' split) <;> simp

@[simp] theorem State.matchRecords_fuses (s : State) : s.matchRecords.fuses = s.fuses := by
  unfold State.matchRecords
  split <;> simp

@[simp] theorem State.onCompare_fuses (f : PartnerFlit) (s : State) : (State.onCompare f s).fuses = s.fuses := by
  unfold State.onCompare
  dsimp only
  (repeat' split) <;> simp

@[simp] theorem State.startSearch_fuses (s : State) (g : Nat) : (s.startSearch g).fuses = s.fuses := by
  simp [State.startSearch]

end Sys2Proof.Machine
end

-- ==== Fuses: every instruction ====
section
/-! PROOFS. Every instruction, and every step, leaves every fuse but the life-cycle word (O4). -/

namespace Sys2Proof.Machine

/-- An outcome that keeps the fuses `F`: a fault and a refusal have no next state. -/
def FusesAfter (F : Fuses) (o : Host.Outcome State Fault Refusal) : Prop := ∀ t, o = .next t → t.fuses = F

@[simp] theorem fusesAfter_next (F : Fuses) (t : State) : FusesAfter F (.next t) ↔ t.fuses = F := by
  simp [FusesAfter]

theorem SameFuses.after {s t : State} (h : SameFuses s t) : FusesAfter s.fuses (.next t) := (fusesAfter_next _ _).mpr h

theorem execNop_fuses (p : Fin 176) (s : State) : FusesAfter s.fuses (execNop p s) := by
  unfold execNop
  dsimp only
  split
  · split <;> simp
  · simp

theorem execJokerSwap_fuses (p : Fin 176) (s : State) : FusesAfter s.fuses (execJokerSwap p s) := by
  unfold execJokerSwap
  split <;> simp

theorem execOverrunBackoffExpire_fuses (port : Fin 16) (s : State) : FusesAfter s.fuses (execOverrunBackoffExpire port s) := by
  unfold execOverrunBackoffExpire
  split <;> simp

theorem execTrainingTimeout_fuses (port : Fin 16) (s : State) : FusesAfter s.fuses (execTrainingTimeout port s) := by
  unfold execTrainingTimeout
  split <;> simp

theorem execLinkReceiveWrite_fuses (port : Fin 16) (s : State) : FusesAfter s.fuses (execLinkReceiveWrite port s) := by
  refine SameFuses.after (State.withHead_fuses port fun t i x => ?_)
  dsimp only
  split <;> simp

theorem execRemoteSignalApply_fuses (port : Fin 16) (s : State) : FusesAfter s.fuses (execRemoteSignalApply port s) := by
  refine SameFuses.after (State.withHead_fuses port fun t i x => ?_)
  dsimp only
  split <;> simp

theorem execStaleWaitExpire_fuses (port : Fin 16) (s : State) : FusesAfter s.fuses (execStaleWaitExpire port s) := by
  unfold execStaleWaitExpire
  split
  · rw [fusesAfter_next]
    split
    · rw [State.retireElastic_fuses, State.staleFlit_fuses, State.dropElastic_fuses, State.waitUntil_fuses]
    · rfl
  · simp

theorem execFlitForward_fuses (port : Fin 16) (s : State) : FusesAfter s.fuses (execFlitForward port s) := by
  unfold execFlitForward
  dsimp only
  split
  · split <;> simp
  · simp

theorem execFetchServe_fuses (p : Fin 176) (s : State) : FusesAfter s.fuses (execFetchServe p s) := by
  unfold execFetchServe
  split <;> simp

theorem execFetchReturn_fuses (port : Fin 16) (s : State) : FusesAfter s.fuses (execFetchReturn port s) := by
  refine SameFuses.after (State.withHead_fuses port fun t i x => ?_)
  dsimp only
  split
  · split
    · rfl
    · split <;> simp
  · rfl

theorem execTimeLock_fuses (s : State) : FusesAfter s.fuses (execTimeLock s) := by
  unfold execTimeLock
  split
  · rw [fusesAfter_next]
    dsimp only
    split
    · rw [State.stages_fuses, State.wr_fuses, State.wr_fuses, State.waitUntil_fuses]
    · rfl
  · simp

theorem execDroopHoldExpire_fuses (die : Fin 16) (s : State) : FusesAfter s.fuses (execDroopHoldExpire die s) := by
  unfold execDroopHoldExpire
  split <;> simp

theorem execCompletionMsgTimer_fuses (f : Fin 16) (s : State) : FusesAfter s.fuses (execCompletionMsgTimer f s) := by
  unfold execCompletionMsgTimer
  split <;> simp

theorem execHostReadTimeout_fuses (who : HostReader) (s : State) : FusesAfter s.fuses (execHostReadTimeout who s) := by
  cases who with
  | dma p | request f slot | lcs =>
    unfold execHostReadTimeout
    dsimp only
    split <;> simp
  | rom => simp [execHostReadTimeout]

theorem execFwCheckDone_fuses (s : State) : FusesAfter s.fuses (execFwCheckDone s) := by
  have read := s.hostRead_fuses 0 (s.rdPair R.HUB_FW_ADDR_LO R.HUB_FW_ADDR_HI) (s.rd R.HUB_FW_LEN)
  refine SameFuses.after ?_
  split
  · rfl
  · dsimp only
    split
    · exact State.fwReject_fuses ..
    · split
      · next e =>
        rw [e] at read
        exact (State.fwReject_fuses ..).trans read
      · next e =>
        rw [e] at read
        split
        · exact (State.fwStart_fuses ..).trans read
        · exact (State.fwReject_fuses ..).trans read

theorem execPlanLoadDone_fuses (s : State) : FusesAfter s.fuses (execPlanLoadDone s) := by
  unfold execPlanLoadDone
  split
  · simp
  · rw [fusesAfter_next]
    split
    · rfl
    · dsimp only
      split
      · simp
      · split <;> simp

theorem execNvmOperationDone_fuses (ok : Bool) (s : State) : FusesAfter s.fuses (execNvmOperationDone ok s) := by
  unfold execNvmOperationDone
  split <;> simp

theorem execAttResultReady_fuses (s : State) : FusesAfter s.fuses (execAttResultReady s) := by
  unfold execAttResultReady
  split <;> simp

theorem execHotReset_fuses (s : State) : FusesAfter s.fuses (execHotReset s) := by
  refine SameFuses.after ?_
  split
  · rfl
  · rw [sameFuses_iff, State.pcieDown_fuses, foldl_fuses _ _ fun t f => State.resetFn_fuses .., State.disable_fuses, State.disableVfs_fuses]

theorem State.bar2Puts_fuses (s : State) (a : Nat) (bytes : List Byte) (ps : List (Nat × Nat)) :
    (ps.foldl (fun s x => s.bar2Put x.1 ((bytes.drop (x.1 - a)).take x.2)) s).fuses = s.fuses :=
  foldl_fuses s ps fun t _ => t.bar2Put_fuses ..

theorem execBar2Write_fuses (f : Fin 16) (addr : Nat) (bytes : List Byte) (s : State) :
    FusesAfter s.fuses (execBar2Write f addr bytes s) := by
  refine SameFuses.after ?_
  split
  · rfl
  · extract_lets +onlyGivenNames a ps s1
    have puts : SameFuses s _ := s.bar2Puts_fuses a bytes ps
    obtain ⟨t, e, h⟩ := puts.named
    rw [show s1 = t from e]
    extract_lets s2
    have h2 : SameFuses s s2 := by
      unfold s2
      split
      · exact t.asleepAccess_fuses.trans h
      · exact h
    split
    · exact (State.bump_fuses ..).trans h2
    · exact h2

theorem execBar2Read_fuses (f : Fin 16) (addr len : Nat) (s : State) : FusesAfter s.fuses (execBar2Read f addr len s) := by
  refine SameFuses.after ?_
  split
  · rfl
  · split
    · exact State.emit_fuses ..
    · extract_lets ps
      have h := s.bar2Gets_fuses ps
      obtain ⟨r, e⟩ : ∃ r, s.bar2Gets ps = r := ⟨_, rfl⟩
      rw [e] at h ⊢
      obtain ⟨⟨bs, bad⟩, t⟩ := r
      refine (State.emit_fuses ..).trans ?_
      split
      · exact t.asleepAccess_fuses.trans h
      · exact h

theorem execRegisterWrite_fuses (addr : HostAddr) (value : BitVec 32) (s : State) : FusesAfter s.fuses (execRegisterWrite addr value s) := by
  cases addr <;> simp [execRegisterWrite]

theorem execLatchedPairRead_fuses (addr : HostAddr) (s : State) : FusesAfter s.fuses (execLatchedPairRead addr s) := by
  cases addr <;> simp [execLatchedPairRead]

theorem execXpkSearch_fuses (s : State) : FusesAfter s.fuses (execXpkSearch s) := by
  refine SameFuses.after (State.hostCmd_fuses _ _ ?_)
  dsimp only
  split
  · rfl
  · split
    · split <;> simp
    · rfl

theorem execXpkResume_fuses (s : State) : FusesAfter s.fuses (execXpkResume s) := by
  refine SameFuses.after (State.hostCmd_fuses _ _ ?_)
  dsimp only
  split
  · rfl
  · split <;> simp

theorem execEnlist_fuses (seat : Fin 4096) (s : State) : FusesAfter s.fuses (execEnlist seat s) := by
  refine SameFuses.after (State.dplCmd_fuses _ _ fun t => ?_)
  dsimp only
  split
  · simp
  · split <;> simp

theorem execWithdraw_fuses (seat : Fin 4096) (s : State) : FusesAfter s.fuses (execWithdraw seat s) := by
  refine SameFuses.after (State.dplCmd_fuses _ _ fun t => ?_)
  dsimp only
  split <;> simp

theorem execMsixUnmask_fuses (f : Fin 16) (entry : Option (Fin 2048)) (s : State) : FusesAfter s.fuses (execMsixUnmask f entry s) := by
  cases entry <;> simp [execMsixUnmask]

/-- The one step that may burn the life-cycle word (R526) leaves every other fuse. -/
theorem execLcsOperationDone_wired (ok : Bool) {s t : State} (h : execLcsOperationDone ok s = .next t) :
    t.fuses.wired = s.fuses.wired := by
  unfold execLcsOperationDone at h
  obtain rfl := Host.Outcome.next.inj h
  split
  · rfl
  · rw [State.resetIfDue_fuses]
    split <;> simp

/-- No instruction but the end of a life-cycle operation changes a fuse. -/
theorem exec_fuses {i : Instr} (s : State) (h : ∀ ok, i ≠ .lcsOperationDone ok) : FusesAfter s.fuses (exec i s) := by
  cases i with
  | wait p | signal p | loop p | endl p | setp p | brp p | trick p | adg p | wopen p | wclose p | mark p | halt p =>
    simp [exec, execWait, execSignal, execLoop, execEndl, execSetp, execBrp, execTrick, execAdg, execWopen, execWclose, execMark,
      execHalt]
  | nop p => exact execNop_fuses p s
  | mload p | mmul p | mdrain p | mburn p | vop p | vred p | vcvt p | fexp p | flog p | frsq p | fact p | dcopy p | dfill p | dgather p
    | lput p | lfetch p | lsig p | radd p | ranchor p | rcvt p | spmm p | sample p | slogp p =>
    simp [exec, execMload, execMmul, execMdrain, execMburn, execVop, execVred, execVcvt, execFexp, execFlog, execFrsq, execFact,
      execDcopy, execDfill, execDgather, execLput, execLfetch, execLsig, execRadd, execRanchor, execRcvt, execSpmm, execSample,
      execSlogp]
  | engineStart p e | instructionComplete p e | flagTimeout p e | streamPageFetch p page | requestPromote p receive waited =>
    simp [exec, execEngineStart, execInstructionComplete, execFlagTimeout, execStreamPageFetch, execRequestPromote]
  | abortTrick p | memberArrive p | deal pick need extra | memberResume p | dummyLoadStep p | checkDue | groupResume g =>
    simp [exec, execAbortTrick, execMemberArrive, execDeal, execMemberResume, execDummyLoadStep, execCheckDue, execGroupResume]
  | jokerSwap p => exact execJokerSwap_fuses p s
  | flitTimeSend port | flitReceive port levels ago | ackTimeout port | overrunReceive port last | redealReq port
    | linkSignalLoss port lane | peerTrainingSeen port | trainingStateDone port report =>
    simp [exec, execFlitTimeSend, execFlitReceive, execAckTimeout, execOverrunReceive, execRedealReq, execLinkSignalLoss,
      execPeerTrainingSeen, execTrainingStateDone]
  | overrunBackoffExpire port => exact execOverrunBackoffExpire_fuses port s
  | trainingTimeout port => exact execTrainingTimeout_fuses port s
  | linkReceiveWrite port => exact execLinkReceiveWrite_fuses port s
  | remoteSignalApply port => exact execRemoteSignalApply_fuses port s
  | staleWaitExpire port => exact execStaleWaitExpire_fuses port s
  | flitForward port => exact execFlitForward_fuses port s
  | trickArrive port | trickRelease port | trickEnd port | trickDeal port | trickAbort port | trickAbortArrive port
    | trickAbortDone port =>
    simp [exec, execTrickArrive, execTrickRelease, execTrickEnd, execTrickDeal, execTrickAbort, execTrickAbortArrive,
      execTrickAbortDone]
  | fetchServe p => exact execFetchServe_fuses p s
  | fetchReturn port => exact execFetchReturn_fuses port s
  | partnerCompare | partnerRecord | partnerSearch =>
    simp [exec, execPartnerCompare, execPartnerRecord, execPartnerSearch]
  | beacon ppm | beaconLoss | timeStepApply | timeMark die | ppsEdge | extRefLoss | freqSwitch die stop =>
    simp [exec, execBeacon, execBeaconLoss, execTimeStepApply, execTimeMark, execPpsEdge, execExtRefLoss, execFreqSwitch]
  | timeLock => exact execTimeLock_fuses s
  | powerTick report | pacingLevelStep p | freqStep die | powerMeasure replies | thermalThrottleStep die | thermalTrip | droopDetect die
    | regionClockStop p | regionPowerGate p | diePowerGate die | dieWakeDone die | sweep =>
    simp [exec, execPowerTick, execPacingLevelStep, execFreqStep, execPowerMeasure, execThermalThrottleStep, execThermalTrip,
      execDroopDetect, execRegionClockStop, execRegionPowerGate, execDiePowerGate, execDieWakeDone, execSweep]
  | droopHoldExpire die => exact execDroopHoldExpire_fuses die s
  | requestAdmit f | completionWrite f | requestLogWrite f offset bytes =>
    simp [exec, execRequestAdmit, execCompletionWrite, execRequestLogWrite]
  | completionMsgTimer f => exact execCompletionMsgTimer_fuses f s
  | healthSample | healthDecay | healthStore | journalStore | scrubPass ddr unit word found | dealerWatchdogExpire | lockstepMismatch
    | sagDetect auxLow pwrFail | holdupSaveDone =>
    simp [exec, execHealthSample, execHealthDecay, execHealthStore, execJournalStore, execScrubPass, execDealerWatchdogExpire,
      execLockstepMismatch, execSagDetect, execHoldupSaveDone]
  | hostReadTimeout who => exact execHostReadTimeout_fuses who s
  | packageReset perst =>
    simp [exec, execPackageReset]
  | bistDone die shared failing | hbmTrainingDone die ok | ddrTrainingDone results | anchorSelftestDone die failing | linkWaitExpire =>
    simp [exec, execBistDone, execHbmTrainingDone, execDdrTrainingDone, execAnchorSelftestDone, execLinkWaitExpire]
  | fwCheckDone => exact execFwCheckDone_fuses s
  | planLoadDone => exact execPlanLoadDone_fuses s
  | nvmOperationDone ok => exact execNvmOperationDone_fuses ok s
  | lcsOperationDone ok => exact absurd rfl (h ok)
  | attResultReady => exact execAttResultReady_fuses s
  | functionLevelReset f | d3hotEntry f | vfDisable keep =>
    simp [exec, execFunctionLevelReset, execD3hotEntry, execVfDisable]
  | hotReset => exact execHotReset_fuses s
  | bar2Write f addr bytes => exact execBar2Write_fuses f addr bytes s
  | bar2Read f addr len => exact execBar2Read_fuses f addr len s
  | evtForce page value | evtEnableWrite page value | pageCtrlWrite page value =>
    simp [exec, execEvtForce, execEvtEnableWrite, execPageCtrlWrite]
  | registerWrite addr value => exact execRegisterWrite_fuses addr value s
  | latchedPairRead addr => exact execLatchedPairRead_fuses addr s
  | seqResume p | spmDbgRead p | spmDbgWrite p value | mxuInject p | seaInject p | ddrRetrain | lnkRedeal port | lnkTrain port
    | lnkBinClear port =>
    simp [exec, execSeqResume, execSpmDbgRead, execSpmDbgWrite, execMxuInject, execSeaInject, execDdrRetrain, execLnkRedeal,
      execLnkTrain, execLnkBinClear]
  | routeEntryWrite value | routeEntryRead | timStep | timRelock | xpkClear =>
    simp [exec, execRouteEntryWrite, execRouteEntryRead, execTimStep, execTimRelock, execXpkClear]
  | xpkSearch => exact execXpkSearch_fuses s
  | xpkResume => exact execXpkResume_fuses s
  | stage pair | cut pair | drop pair | cancel | wslPendingDone =>
    simp [exec, execStage, execCut, execDrop, execCancel, execWslPendingDone]
  | claim seat | release seat | load | unload =>
    simp [exec, execClaim, execRelease, execLoad, execUnload]
  | enlist seat => exact execEnlist_fuses seat s
  | withdraw seat => exact execWithdraw_fuses seat s
  | clearDrift | bidReset | pwrHoldAwakeWrite dies | resume | retire part | checkNow | hubReset =>
    simp [exec, execClearDrift, execBidReset, execPwrHoldAwakeWrite, execResume, execRetire, execCheckNow, execHubReset]
  | store sect | erase sect | submit | exitDebug | claimOwner | cert | attestationReport | certificateChain | go =>
    simp [exec, execStore, execErase, execSubmit, execExitDebug, execClaimOwner, execCert, execAttestationReport, execCertificateChain,
      execGo]
  | functionEnable f | functionDisable f | stakeBurstWrite f value =>
    simp [exec, execFunctionEnable, execFunctionDisable, execStakeBurstWrite]
  | resetRelease | pcieLinkUp speed width flitMode config | hubResetDone | regionWakeDone p | sysrefLoss | sysrefReturn =>
    simp [exec, execResetRelease, execPcieLinkUp, execHubResetDone, execRegionWakeDone, execSysrefLoss, execSysrefReturn]
  | msixUnmask f entry => exact execMsixUnmask_fuses f entry s

/-- Every instruction leaves every fuse but the life-cycle word. -/
theorem exec_wired {i : Instr} {s t : State} (h : exec i s = .next t) : t.fuses.wired = s.fuses.wired := by
  by_cases hi : ∃ ok, i = .lcsOperationDone ok
  · obtain ⟨ok, rfl⟩ := hi
    exact execLcsOperationDone_wired ok h
  · exact congrArg Fuses.wired (exec_fuses s (fun ok e => hi ⟨ok, e⟩) t h)

/-- Settles O4: a tick on an empty queue and every instruction keep every fuse, but for the end of a life-cycle operation, which may burn
the life-cycle word alone. -/
theorem stepsKeepFuses : Obligations.StepsKeepFuses := by
  intro s t h
  unfold step at h
  split at h
  · obtain rfl := Host.Outcome.next.inj h
    rw [State.idleTick_fuses]
  · have kept := exec_wired h
    exact kept

end Sys2Proof.Machine
end

-- ==== Sequencer: faults of a core ====
section
/-! PROOFS. What a fault of a core leaves (R69 steps 1 and 2, R108): its tiles poisoned, its queues discarded, its report and its record. -/

namespace Sys2Proof.Machine

/-! ## Keys of register fields -/

/-- Two fields of one register page lie apart when their places in the page differ. -/
theorem Fld.key_ne_of_place {f g : Fld} (i : Nat) (hb : f.blk = g.blk) (h : f.off * 32 + f.lsb ≠ g.off * 32 + g.lsb) :
    f.key i 0 ≠ g.key i 0 := by
  unfold Fld.key
  rw [hb]
  omega

/-! ## Tiles poisoned (R69, R204) -/

/-- The seal of a tile of any space after a seal was replaced, the poison seal where the poison seal was put. -/
theorem State.sealOf_poisonTile (s : State) (p : Nat) (a b : TileAt) (h : s.sealOf p a = poisonSeal) (q : Nat) :
    (s.poisonTile q b).sealOf p a = poisonSeal := by
  unfold State.poisonTile State.setSealOf State.sealOf at *
  cases hb : b.space with
  | host => exact h
  | spm =>
    cases ha : a.space with
    | spm =>
      simp only [ha] at h ⊢
      rw [State.core_onCore]
      split_ifs with hp
      · subst hp
        rw [Core.sealAt_setSeal, h, ite_self]
      · exact h
    | hbm | ddr | host => simp only [ha] at h ⊢; exact h
  | hbm =>
    cases ha : a.space with
    | hbm =>
      simp only [ha] at h ⊢
      rw [Tier.sealAt_setSeal, h, ite_self]
    | spm | ddr | host => simp only [ha] at h ⊢; exact h
  | ddr =>
    cases ha : a.space with
    | ddr =>
      simp only [ha] at h ⊢
      rw [Tier.sealAt_setSeal, h, ite_self]
    | spm | hbm | host => simp only [ha] at h ⊢; exact h

/-- A poisoned tile stays poisoned while tiles are poisoned, of whichever core. -/
theorem State.sealOf_poisonTiles_kept (ts : List TileAt) (q p : Nat) (a : TileAt) : ∀ s : State, s.sealOf p a = poisonSeal →
    (s.poisonTiles q ts).sealOf p a = poisonSeal := by
  induction ts with
  | nil => exact fun _ h => h
  | cons t ts ih => exact fun s h => ih _ (s.sealOf_poisonTile p a t h q)

/-- Every tile of a list is poisoned, host memory apart. -/
theorem State.sealOf_poisonTiles (p : Nat) (ts : List TileAt) : ∀ (s : State), ∀ a ∈ ts, a.space ≠ .host →
    (s.poisonTiles p ts).sealOf p a = poisonSeal := by
  induction ts with
  | nil => simp
  | cons t ts ih =>
    intro s a ha hs
    rcases List.mem_cons.1 ha with rfl | ha
    · exact State.sealOf_poisonTiles_kept ts p p a _ (s.sealOf_setSealOf p a poisonSeal hs)
    · exact ih _ a ha hs

/-- Poisoning a core's tiles leaves the other cores, and of the core itself all but its seals. -/
theorem State.core_poisonTiles (p q : Nat) (ts : List TileAt) : ∀ s : State,
    (s.poisonTiles p ts).core q = if q = p then { s.core p with seals := ((s.poisonTiles p ts).core p).seals } else s.core q := by
  induction ts with
  | nil => intro s; split_ifs with h <;> simp [State.poisonTiles, h]
  | cons t ts ih =>
    intro s
    have one : ∀ r, (s.poisonTile p t).core r = if r = p then { s.core p with seals := ((s.poisonTile p t).core p).seals } else s.core r := by
      intro r
      unfold State.poisonTile State.setSealOf
      cases t.space with
      | spm => simp only [State.core_onCore, if_true]; rfl
      | hbm | ddr | host => split_ifs with h <;> simp [h, State.core]
    have e : s.poisonTiles p (t :: ts) = (s.poisonTile p t).poisonTiles p ts := rfl
    rw [e, ih]
    generalize ((s.poisonTile p t).poisonTiles p ts).core p = c
    split_ifs with h
    · rw [one, if_pos rfl]
    · rw [one, if_neg h]

/-! ## The record of a fault (R108) -/

/-- The fields of SEQ_FAULT as a core fault writes them, where no fault has been recorded since the deal. -/
def State.faultNoted (s : State) (p code engine pc info : Nat) : State :=
  if s.rd R.SEQ_FAULT_CODE p ≠ 0 then s else
    ((((((s.wr R.SEQ_FAULT_CODE code p).wr R.SEQ_FAULT_ENGINE engine p).wr R.SEQ_FAULT_PC pc p).wr
      R.SEQ_FAULT_INFO_FLAG_VALUE (info % 65536) p).wr R.SEQ_FAULT_INFO_FLAG (info / 65536 % 512) p).wr
      R.SEQ_FAULT_INFO_AT_TRICK (info / 2 ^ 25) p)

/-- A core fault is its record, its tiles poisoned, and the core stopped. -/
theorem State.coreFault_eq (s : State) (p code engine pc info : Nat) (more : List TileAt) :
    s.coreFault p code engine pc info more =
      ((s.faultNoted p code engine pc info).poisonTiles p ((s.core p).startedTiles ++ more)).onCore p (fun k =>
        { k with st := .faulted, eng := [], report := if k.report.isSome then k.report else some ⟨code, engine, pc, info⟩ }) := rfl

theorem State.faultNoted_onlyRegs (s : State) (p code engine pc info : Nat) : s.onlyRegs (s.faultNoted p code engine pc info) := by
  unfold State.faultNoted
  split_ifs
  · exact State.onlyRegs.refl s
  · iterate 6 refine State.onlyRegs.wr ?_ _ _ _ _
    exact State.onlyRegs.refl s

/-- The first fault since the deal is recorded; a later one leaves the record. -/
theorem State.faultNoted_rd (s : State) (p code engine pc info : Nat) :
    (s.rd R.SEQ_FAULT_CODE p = 0 → (s.faultNoted p code engine pc info).rd R.SEQ_FAULT_CODE p = code % 2 ^ 16 ∧
      (s.faultNoted p code engine pc info).rd R.SEQ_FAULT_ENGINE p = engine % 16 ∧
      (s.faultNoted p code engine pc info).rd R.SEQ_FAULT_PC p = pc % 2 ^ 32) ∧
    (s.rd R.SEQ_FAULT_CODE p ≠ 0 → s.faultNoted p code engine pc info = s) := by
  unfold State.faultNoted
  refine ⟨fun h => ?_, fun h => if_pos h⟩
  rw [if_neg (not_not.2 h)]
  have past {f g : Fld} {v n : Nat} {x : State} (hb : g.blk = f.blk) (hp : g.off * 32 + g.lsb ≠ f.off * 32 + f.lsb)
      (h : x.rd g p = n) : (x.wr f v p).rd g p = n := (State.rd_wr_ne _ _ _ _ _ _ _ _ (Fld.key_ne_of_place p hb hp)).trans h
  refine ⟨?_, ?_, ?_⟩
  · iterate 5 refine past rfl (by decide) ?_
    exact State.rd_wr_same ..
  · iterate 4 refine past rfl (by decide) ?_
    exact State.rd_wr_same ..
  · iterate 3 refine past rfl (by decide) ?_
    exact State.rd_wr_same ..

/-! ## The fault of a core -/

/-- What a fault of a core leaves on it, and what it leaves of the other cores and of the memories (R69 steps 1 and 2). -/
theorem State.coreFault_faulted (s : State) (p code engine pc info : Nat) (more : List TileAt) :
    Faulted s (s.coreFault p code engine pc info more) p code engine pc ((s.core p).startedTiles ++ more) := by
  rw [State.coreFault_eq]
  obtain ⟨hr1, hr2⟩ := s.faultNoted_rd p code engine pc info
  have hu := s.faultNoted_onlyRegs p code engine pc info
  generalize s.faultNoted p code engine pc info = u at *
  have hc : ∀ q, u.core q = s.core q := fun q => by rw [hu]; rfl
  have hco : ∀ q, q ≠ p → (u.poisonTiles p ((s.core p).startedTiles ++ more)).core q = s.core q := fun q hq => by
    rw [State.core_poisonTiles, if_neg hq, hc]
  obtain ⟨x, hpo⟩ : ∃ x, (u.poisonTiles p ((s.core p).startedTiles ++ more)).core p = { s.core p with seals := x } :=
    ⟨_, by rw [State.core_poisonTiles, if_pos rfl, hc]⟩
  have hse := State.sealOf_poisonTiles p ((s.core p).startedTiles ++ more) u
  have hregs : (u.poisonTiles p ((s.core p).startedTiles ++ more)).regs = u.regs := by rw [State.poisonTiles_frame]
  obtain ⟨hh, hd⟩ := State.poisonTiles_bytes ((s.core p).startedTiles ++ more) u p
  generalize u.poisonTiles p ((s.core p).startedTiles ++ more) = v at *
  have hrd : ∀ f, v.rd f p = u.rd f p := fun f => State.rd_of_regs hregs f p 0
  unfold Faulted
  simp only [State.core_onCore_same, State.onCore_rd, State.onCore_regs, State.onCore_hbm, State.onCore_ddr, hpo, hrd]
  refine ⟨trivial, fun e => rfl, ?_, fun h => ?_, hr1, fun h => by rw [hregs, hr2 h], fun a ha hs => ?_, fun q hq => ?_, ?_, ?_,
    trivial⟩
  · cases hx : (s.core p).report <;> rfl
  · simp [h]
  · have hp := hse a ha hs
    unfold State.sealOf at hp ⊢
    cases hsp : a.space with
    | spm =>
      simp only [hsp] at hp ⊢
      rw [State.core_onCore_same]
      exact hp
    | hbm | ddr => simp only [hsp] at hp ⊢; exact hp
    | host => exact absurd hsp hs
  · have hq : q ≠ p := by simpa using hq
    rw [State.core_onCore_ne _ _ hq, hco q hq]
  · rw [hh, hu]
  · rw [hd, hu]

/-- A fault said of fewer tiles. -/
theorem Faulted.mono {s t : State} {p code engine pc : Nat} {ts us : List TileAt} (h : Faulted s t p code engine pc ts) (hs : us ⊆ ts) :
    Faulted s t p code engine pc us := by
  obtain ⟨h1, h2, h3, h4, h5, h6, h7, h8⟩ := h
  exact ⟨h1, h2, h3, h4, h5, h6, fun a ha => h7 a (hs ha), h8⟩

end Sys2Proof.Machine
end

-- ==== Sequencer: the settled statements ====
section
/-! PROOFS. What the sequencer's own instructions do and when they wait (R53, R74, R87, R92), which faults stop a core (R69, R103, R106),
and how instructions end (R76, R78). -/

namespace Sys2Proof.Machine

/-! ## Slots handled (R73, R74) -/

/-- A sequencer that does not issue handles no slot. -/
theorem State.handle_idle {s : State} {p : Nat} (o : Option Op) (run : Slot → State) (h : s.issues p = false) :
    s.handle p o run = s := by
  simp [State.handle, h]

/-- A slot of a page that is not resident is not handled. -/
theorem State.handle_absent {s : State} {p : Nat} (o : Option Op) (run : Slot → State) (h : (s.core p).slotAt (s.core p).pc = none) :
    s.handle p o run = s := by
  cases hf : (s.core p).frameAt (s.core p).pc <;> simp [State.handle, hf, h]

/-- Every instruction of the opcode map handles the next slot; where the slot holds a sequencer instruction of that row and its wait does not
hold, it has no effect. -/
theorem exec_row_handle (s : State) (p : Fin 176) (o : Op) : ∃ o' run, exec (o.row p) s = .next (s.handle p o' run) ∧
    ∀ w, (s.core p).slotAt (s.core p).pc = some w → w.op = some o →
      o' = some o ∧ (o.ofSequencer = true → (s.core p).waitHolds w = false → run w = s) := by
  have stalls (u : State) (w : Slot) (h : (s.core p).waitHolds w = false) : (if (s.core p).waitHolds w then u else s) = s := by
    rw [h]; rfl
  cases o with
  | nop =>
    show ∃ o' run, execNop p s = .next (s.handle p o' run) ∧ _
    unfold execNop
    cases hs : (s.core p).slotAt (s.core p).pc with
    | none => exact ⟨none, fun _ => s, by simp only [hs]; rw [State.handle_absent _ _ hs], fun w h => nomatch h⟩
    | some v =>
      by_cases hv : v.op = none
      · exact ⟨none, fun _ => s, by simp only [hs, hv, if_true], fun w h hw => by cases h; rw [hv] at hw; exact nomatch hw⟩
      · exact ⟨some .nop, _, by simp only [hs, hv, if_false]; rfl, fun w _ _ => ⟨rfl, fun _ h => stalls _ w h⟩⟩
  | wait | signal | loop | endl | setp | brp | trick | adg | wopen | wclose | mark | halt =>
    exact ⟨_, _, rfl, fun w _ _ => ⟨rfl, fun _ h => stalls _ w h⟩⟩
  | _ => exact ⟨_, _, rfl, fun w _ _ => ⟨rfl, fun h => nomatch h⟩⟩

/-- The row of an instruction that the sequencer meets handles its slot. -/
theorem exec_row_meets {s : State} {p : Fin 176} {o : Op} {w : Slot} (h : s.meets p o w) :
    ∃ run, exec (o.row p) s = .next (s.handle p (some o) run) ∧
      (o.ofSequencer = true → (s.core p).waitHolds w = false → run w = s) := by
  obtain ⟨_, _, hw, ho⟩ := h
  obtain ⟨o', run, he, hr⟩ := exec_row_handle s p o
  obtain ⟨rfl, hrun⟩ := hr w hw ho
  exact ⟨run, he, hrun⟩

/-- Settles O13: a slot whose wait does not hold is handled without effect, and a sequencer that does not issue handles none. -/
theorem sequencerStalls : Obligations.SequencerStalls := by
  intro s p w o
  refine ⟨fun hm hb hf ho hw => ?_, fun hi => ?_⟩
  · obtain ⟨run, he, hr⟩ := exec_row_meets hm
    rw [he, State.handle_of run hm, hb, hf]
    exact congrArg _ (hr ho hw)
  · obtain ⟨o', run, he, _⟩ := exec_row_handle s p o
    rw [he, State.handle_idle _ _ hi]

/-- Settles O7: the three rows only go on to the next slot. -/
theorem plainSequencerSlots : Obligations.PlainSequencerSlots := by
  intro s p w o ho hr
  refine ⟨(s.advance p).applySignal p w, ?_, s.onCore_signalled p w (fun c => c.goTo (c.pc + 32) s.tick)⟩
  have hs : s.seqOp p o (fun _ t => t.advance p) = (s.advance p).applySignal p w := State.seqOp_runs _ hr
  obtain ⟨⟨_, _, hw, hop⟩, _⟩ := hr
  rcases ho with rfl | rfl | rfl
  · show execNop p s = _
    unfold execNop
    simp only [hw, hop, reduceCtorEq, if_false, hs]
  · exact congrArg _ hs
  · exact congrArg _ hs

/-- Settles O12: a TRICK whose wait holds stops its core and leaves every other. -/
theorem trickStopsMember : Obligations.TrickStopsMember := by
  intro s p w st hr hst
  refine ⟨s.atTrick w p, ?_, rfl, fun q hq => State.core_onCore_ne _ _ (by simpa using hq), ?_⟩
  · show Host.Outcome.next (s.handle p (some .trick) _) = _
    rw [State.handle_runs _ hr, if_pos hr.2.2.2]
  · unfold State.atTrick
    rw [State.core_onCore_same, hst]
    simp only [Option.map_some, Option.getD_some, Core.goTo, Core.at', trickMismatch, Bool.or_eq_true, Bool.and_eq_true, beq_iff_eq,
      Bool.not_eq_true', decide_eq_true_eq, ne_eq, beq_eq_false_iff_ne]

end Sys2Proof.Machine
end

-- ==== Faults and ends of instructions ====
section
/-! PROOFS. The faults that stop a core before and inside an instruction (R69, R103, R106, R125), the record of a failed seal check (R224),
and the completion and the wait limits of instructions (R53, R76, R78). -/

namespace Sys2Proof.Machine

/-! ## Counters and page events -/

/-- A counter raised by one is counted. -/
theorem State.bump_counted (s : State) (f : Fld) (i : Nat) : Counted s (s.bump f i) f i := by
  unfold Counted State.bump State.bumpBy
  rw [State.rd_wr_same]
  have : 0 < 2 ^ f.width := Nat.two_pow_pos _
  exact Nat.mod_eq_of_lt (by omega)

/-- A field counted stays counted where it is kept before and after. -/
theorem Counted.of_rd {s s' t t' : State} {f : Fld} {i : Nat} (h : Counted s' t' f i) (hs : s'.rd f i = s.rd f i)
    (ht : t.rd f i = t'.rd f i) : Counted s t f i := by
  unfold Counted at *
  rw [ht, h, hs]

/-- Bit `k` of a value in which it was set. -/
theorem bitOf_or_pow (v k n : Nat) (h : k < n) : bitOf ((v ||| 2 ^ k) % 2 ^ n) k = true := by
  have ht : ((v ||| 2 ^ k) % 2 ^ n).testBit k = true := by simp [Nat.testBit_mod_two_pow, Nat.testBit_or, h]
  simpa [bitOf, bitsOf, Nat.testBit_eq_decide_div_mod_eq, Nat.shiftRight_eq_div_pow] using ht

/-- Whether a register page is that of the host interface is a matter of its block. -/
theorem Fld.key_ne_hif {f : Fld} {p : Nat} (hb : f.blk = .sea) (ho : f.off + f.lsb < 4096 - 32) (hs : f.stride = 0) :
    f.key p 0 ≠ R.HIF_CNT_BAD_VECTOR.key 0 0 := by
  unfold Fld.key
  rw [hb, hs]
  simp only [Block.page, R.HIF_CNT_BAD_VECTOR]
  omega

/-- Raising events of a page sets them in its EVT_STATUS, which is not the counter of bad vectors. -/
theorem State.setEvents_status (s : State) (b : Block) (i mask code : Nat)
    (h : (R.EVT_STATUS b).key i 0 ≠ R.HIF_CNT_BAD_VECTOR.key 0 0) :
    (s.setEvents b i mask code).rd (R.EVT_STATUS b) i = (s.rd (R.EVT_STATUS b) i ||| mask) % 2 ^ 32 := by
  have hf : (R.EVT_STATUS b).key i 0 ≠ (R.EVT_FIRST_CODE b).key i 0 := Fld.key_ne_of_place i rfl (by simp [R.EVT_STATUS, R.EVT_FIRST_CODE])
  unfold State.setEvents State.pageMsg
  dsimp only
  split_ifs <;> simp only [State.msix_rd _ _ _ _ _ _ h, State.rd_wr_ne _ _ _ _ _ _ _ _ hf, State.rd_wr_same] <;> rfl

/-! ## The record of a failed seal check (R224) -/

/-- The keys of SEA_FAULT of a core. -/
def sealRecordKeys (p : Nat) : List Nat :=
  [R.SEA_FAULT_INFO_VALID, R.SEA_FAULT_INFO_ENGINE, R.SEA_FAULT_INFO_OPERAND, R.SEA_FAULT_INFO_SPACE, R.SEA_FAULT_INFO_PARTIAL,
   R.SEA_FAULT_ADDR_LO, R.SEA_FAULT_ADDR_HI, R.SEA_FAULT_SEAL_LO, R.SEA_FAULT_SEAL_HI, R.SEA_FAULT_PC, R.SEA_FAULT_EXPECT_GEN,
   R.SEA_FAULT_EXPECT_FMT, R.SEA_FAULT_EXPECT_SCALE, R.SEA_FAULT_EXPECT_EPOCH].map (fun f => f.key p 0)

/-- A record of a page touches the fields that it is made of, and none else. -/
theorem State.record1_kept {s : State} {valid : Fld} {i : Nat} {put : State → State} {ks : List Nat} (hv : valid.key i 0 ∈ ks)
    (hp : ∀ t : State, FieldsKept t (put t) ks) : FieldsKept s (s.record1 valid i put) ks := by
  unfold State.record1
  dsimp only
  split_ifs
  · exact .refl _ _
  · exact FieldsKept.trans (FieldsKept.wr (.of_regs (.refl _ _) rfl) _ hv) (hp _)

theorem sealRecordKeys_apart {f : Fld} {p : Nat} (hb : f.blk = .sea) (h : f.off * 32 + f.lsb < 0x44 * 32) :
    f.key p 0 ∉ sealRecordKeys p := by
  simp only [sealRecordKeys, List.mem_map, not_exists, not_and]
  intro g hg
  have hg' : g.blk = .sea ∧ 0x44 * 32 ≤ g.off * 32 + g.lsb := by fin_cases hg <;> decide
  exact Fld.key_ne_of_place p (hg'.1.trans hb.symm) (by omega)

theorem State.record1_cores {s : State} {valid : Fld} {i : Nat} {put : State → State} (hp : ∀ t : State, (put t).cores = t.cores) :
    (s.record1 valid i put).cores = s.cores := by
  unfold State.record1
  dsimp only
  split_ifs
  · rfl
  · exact hp _

/-- A failed check of a stream page, of its CRC or for poison (R103), is recorded, then counted, then raises its event. -/
theorem State.sealFault_eq (s : State) (p k code engine pos : Nat) (t : TileAt) (x : Seal) (part : Bool) (ex pc : Nat)
    (hk : k = 0 ∨ k = 4) : ∃ u : State, (FieldsKept s u (sealRecordKeys p) ∧ u.cores = s.cores) ∧
      s.sealFault p k code k engine pos t x part ex pc =
        (u.bump (if k = 4 then R.SEA_CNT_POISON else R.SEA_CNT_CRC) p).raiseEvt .sea p k code := by
  have recorded (put : State → State) (hp : ∀ u : State, FieldsKept u (put u) (sealRecordKeys p) ∧ (put u).cores = u.cores) :
      FieldsKept s (s.record1 R.SEA_FAULT_INFO_VALID p put) (sealRecordKeys p) ∧
        (s.record1 R.SEA_FAULT_INFO_VALID p put).cores = s.cores :=
    ⟨State.record1_kept (by simp [sealRecordKeys]) fun u => (hp u).1, State.record1_cores fun u => (hp u).2⟩
  unfold State.sealFault
  rcases hk with rfl | rfl
  · rw [if_neg (by decide)]
    refine ⟨_, recorded _ ?_, rfl⟩
    refine fun u => ⟨?_, by simp only [State.wrPair, State.wr_cores]⟩
    simp only [State.wrPair]
    iterate 13 refine FieldsKept.wr ?_ _ (List.mem_map_of_mem (by simp))
    exact .refl _ _
  · rw [if_pos rfl]
    refine ⟨_, recorded _ ?_, rfl⟩
    refine fun u => ⟨?_, by simp only [State.wrPair, State.wr_cores]⟩
    simp only [State.wrPair]
    iterate 13 refine FieldsKept.wr ?_ _ (List.mem_map_of_mem (by simp))
    exact .refl _ _

/-- A failed check of a stream page is counted, and its event stands. -/
theorem State.sealFault_counted (s : State) (p k code engine pos : Nat) (t : TileAt) (x : Seal) (part : Bool) (ex pc : Nat)
    (hk : k = 0 ∨ k = 4) :
    Counted s (s.sealFault p k code k engine pos t x part ex pc) (if k = 4 then R.SEA_CNT_POISON else R.SEA_CNT_CRC) p ∧
    bitOf ((s.sealFault p k code k engine pos t x part ex pc).rd (R.EVT_STATUS .sea) p) k = true := by
  obtain ⟨u, ⟨hu, _⟩, e⟩ := s.sealFault_eq p k code engine pos t x part ex pc hk
  have hf : ∀ f ∈ [R.SEA_CNT_POISON, R.SEA_CNT_CRC], f.blk = .sea ∧ f.off + f.lsb < 4096 - 32 ∧ f.off * 32 + f.lsb < 0x44 * 32 ∧
      0x20 * 32 ≤ f.off * 32 + f.lsb ∧ f.stride = 0 := by decide
  generalize hg : (if k = 4 then R.SEA_CNT_POISON else R.SEA_CNT_CRC) = f at e ⊢
  obtain ⟨hb, ho, h1, h2, hs⟩ := hf f (by rw [← hg]; split_ifs <;> simp)
  rw [e]
  refine ⟨(u.bump_counted f p).of_rd (hu _ _ _ (sealRecordKeys_apart hb h1)) ?_, ?_⟩
  · refine State.setEvents_rd _ _ _ _ _ _ _ _ (Fld.key_ne_hif hb ho hs) (Fld.key_ne_of_place p hb ?_) (Fld.key_ne_of_place p hb ?_)
    all_goals simp only [R.EVT_STATUS, R.EVT_FIRST_CODE]; omega
  · unfold State.raiseEvt
    rw [State.setEvents_status _ _ _ _ _ (Fld.key_ne_hif rfl (by decide) rfl)]
    exact bitOf_or_pow _ k 32 (by omega)

/-! ## Faults -/

/-- The keys of SEQ_FAULT of a core. -/
def seqFaultKeys (p : Nat) : List Nat :=
  [R.SEQ_FAULT_CODE, R.SEQ_FAULT_ENGINE, R.SEQ_FAULT_PC, R.SEQ_FAULT_INFO_FLAG_VALUE, R.SEQ_FAULT_INFO_FLAG,
   R.SEQ_FAULT_INFO_AT_TRICK].map (fun f => f.key p 0)

/-- A fault of a core touches no register field but those of its SEQ_FAULT. -/
theorem State.coreFault_kept (s : State) (p code engine pc info : Nat) (more : List TileAt) :
    FieldsKept s (s.coreFault p code engine pc info more) (seqFaultKeys p) := by
  rw [State.coreFault_eq]
  refine FieldsKept.of_regs (t := s.faultNoted p code engine pc info) ?_ (by rw [State.onCore_regs, State.poisonTiles_frame])
  unfold State.faultNoted
  split_ifs
  · exact .refl _ _
  · iterate 6 refine FieldsKept.wr ?_ _ (List.mem_map_of_mem (by simp))
    exact .refl _ _

/-- SEQ_FAULT lies on another page than the fields of the seal checks. -/
theorem seqFaultKeys_sea {f : Fld} {p : Nat} (hb : f.blk = .sea) (ho : f.off + f.lsb < 4096 - 32) (hs : f.stride = 0) :
    f.key p 0 ∉ seqFaultKeys p := by
  simp only [seqFaultKeys, List.mem_map, not_exists, not_and]
  intro g hg
  obtain ⟨hb', ho', hs'⟩ : g.blk = .seq ∧ g.off + g.lsb < 4096 - 32 ∧ g.stride = 0 := by fin_cases hg <;> decide
  unfold Fld.key
  rw [hb, hb', hs, hs']
  simp only [Block.page]
  omega

/-- A stream page that failed its seal check faults its core, is counted, and its event stands (R103, R216). -/
theorem State.pageFault_stops (s : State) (p pc : Nat) (b : PageFault) :
    let k := if b.code = 0x0105 then 4 else 0
    Faulted (s.sealFault p k b.code k 0 0 ⟨.hbm, b.addr⟩ b.sl false 0 pc) (s.pageFault p pc b) p b.code 0 pc (s.core p).startedTiles ∧
    Counted s (s.pageFault p pc b) (if b.code = 0x0105 then R.SEA_CNT_POISON else R.SEA_CNT_CRC) p ∧
    bitOf ((s.pageFault p pc b).rd (R.EVT_STATUS .sea) p) k = true := by
  intro k
  have hk : k = 0 ∨ k = 4 := by
    by_cases h : b.code = 0x0105
    · exact .inr (if_pos h)
    · exact .inl (if_neg h)
  have hf : (if b.code = 0x0105 then R.SEA_CNT_POISON else R.SEA_CNT_CRC) = if k = 4 then R.SEA_CNT_POISON else R.SEA_CNT_CRC := by
    by_cases h : b.code = 0x0105 <;> simp [k, h]
  have e : s.pageFault p pc b = (s.sealFault p k b.code k 0 0 ⟨.hbm, b.addr⟩ b.sl false 0 pc).coreFault p b.code 0 pc 0 [] := by
    unfold State.pageFault
    simp only [beq_iff_eq]
    rfl
  obtain ⟨hc, hv⟩ := s.sealFault_counted p k b.code 0 0 ⟨.hbm, b.addr⟩ b.sl false 0 pc hk
  have hco : (s.sealFault p k b.code k 0 0 ⟨.hbm, b.addr⟩ b.sl false 0 pc).core p = s.core p := by
    obtain ⟨u, ⟨_, hu⟩, e⟩ := s.sealFault_eq p k b.code 0 0 ⟨.hbm, b.addr⟩ b.sl false 0 pc hk
    rw [e, State.raiseEvt_frame]
    exact congrArg (SMap.get Core.reset · p) hu
  have hkept := (s.sealFault p k b.code k 0 0 ⟨.hbm, b.addr⟩ b.sl false 0 pc).coreFault_kept p b.code 0 pc 0 []
  have hfault := (s.sealFault p k b.code k 0 0 ⟨.hbm, b.addr⟩ b.sl false 0 pc).coreFault_faulted p b.code 0 pc 0 []
  rw [hco, List.append_nil] at hfault
  rw [e, hf]
  refine ⟨hfault, hc.of_rd rfl (hkept _ _ _ ?_), ?_⟩
  · split_ifs <;> exact seqFaultKeys_sea rfl (by decide) rfl
  · rw [hkept _ _ _ (seqFaultKeys_sea rfl (by decide) rfl)]
    exact hv

/-- What an engine has written when it faults, without repetitions. -/
theorem ECtx.mem_tiles (r : ECtx) (a : TileAt) : a ∈ r.tiles ↔ a ∈ r.wrote.map (·.at_) := List.mem_eraseDups

/-- A fault of a started engine instruction. -/
theorem ECtx.coreFault_faulted (r : ECtx) (p code engine pc info : Nat) :
    Faulted r.s (r.s.coreFault p code engine pc info r.tiles) p code engine pc ((r.s.core p).startedTiles ++ r.wrote.map (·.at_)) :=
  (r.s.coreFault_faulted p code engine pc info r.tiles).mono
    (List.append_subset.2 ⟨List.subset_append_left _ _, fun a h => List.mem_append_right _ ((r.mem_tiles a).2 h)⟩)

/-- The head of a queue that may start runs its body. -/
theorem State.startHead_runs {s : State} {p e : Nat} {q : QEntry} {rest : List QEntry} (hq : ((s.core p).engine e).queue = q :: rest)
    (hm : s.mayStart p q) : s.startHead p e = match bodyOf q.word (s.startCtx p e q rest) with
      | .ok _ r => if r.hostBad then r.s.coreFault p 0x0105 q.word.engine q.pc 0 r.tiles else s.started p e q r (s.core p)
      | .error f r => r.s.coreFault p f.code f.engine f.pc f.info r.tiles := by
  obtain ⟨h1, h2, h3⟩ := hm
  unfold State.startHead
  simp only [hq, h1, h2, h3]
  rfl

/-- Settles O16: the faults before an instruction are those of `handle`, the faults inside one those of its body. -/
theorem faultsStopCores : Obligations.FaultsStopCores := by
  refine ⟨fun s p w o hm => ⟨fun code engine hb hf => ?_, fun b hb => ?_⟩, fun s p e q rest r hq hm => ⟨fun f hr => ?_, fun hr hh => ?_⟩⟩
  · obtain ⟨run, he, _⟩ := exec_row_meets hm
    rw [State.handle_of run hm, hb, hf] at he
    have h := s.coreFault_faulted p code engine (s.core p).pc 0 []
    rw [List.append_nil] at h
    exact ⟨_, he, h⟩
  · obtain ⟨run, he, _⟩ := exec_row_meets hm
    rw [State.handle_of run hm, hb] at he
    exact ⟨_, he, s.pageFault_stops p (s.core p).pc b⟩
  · refine ⟨_, rfl, ?_⟩
    rw [State.startHead_runs hq hm, hr]
    exact r.coreFault_faulted ..
  · refine ⟨_, rfl, ?_⟩
    rw [State.startHead_runs hq hm, hr]
    simp only [hh, if_true]
    exact r.coreFault_faulted ..

/-! ## Ends -/

/-- A wait limit that passes leaves the cores and the register fields; the clock stands at the limit or later (R53, log entry 24). -/
theorem State.timeout_faulted (s : State) (p engine pc info n : Nat) :
    Faulted (s.waitUntil n) ((s.waitUntil n).coreFault p 0x0301 engine pc info []) p 0x0301 engine pc (s.core p).startedTiles ∧
    ((s.waitUntil n).coreFault p 0x0301 engine pc info []).tick = max s.tick n := by
  have hc : (s.waitUntil n).core p = s.core p := by rw [State.waitUntil_frame]; rfl
  have h := (s.waitUntil n).coreFault_faulted p 0x0301 engine pc info []
  rw [hc, List.append_nil] at h
  exact ⟨h, by rw [State.coreFault_frame, State.waitUntil_tick]⟩

/-- Outside search mode a completion is not recorded for the partner. -/
theorem State.record_idle {s : State} (h : s.partner.search = false) (p e : Nat) (x : ExecEntry) : s.record p e x = s := by
  unfold State.record
  cases (s.core p).member <;> simp [h]

/-- The oldest started instruction of an engine, once it has finished, leaves the engine's list, and its signal is applied unless it was
given early (R76, R78). -/
theorem State.complete_runs {s : State} {p e : Nat} {x : ExecEntry} {xs : List ExecEntry} (hx : ((s.core p).engine e).exec = x :: xs)
    (hp : s.pkg = .running ∨ s.pkg = .down) (hf : (s.core p).st ≠ .faulted) (hd : x.finished = true) :
    s.complete p e =
      if x.signaled then (s.setCore p ((s.core p).setEngine e { (s.core p).engine e with exec := xs })).record p e x
      else ((s.setCore p ((s.core p).setEngine e { (s.core p).engine e with exec := xs })).record p e x).applySignal p x.word := by
  have hi : ((s.pkg != .running && s.pkg != .down) || (s.core p).st == .faulted || !x.finished) = false := by
    rcases hp with h | h <;> simp [h, hf, hd]
  unfold State.complete
  simp only [hx]
  rw [hi]
  rfl

section
variable {s : State} {p : Nat} (hu : s.up = true) (hm : (s.core p).member.isSome = true) (hf : (s.core p).st ≠ .faulted)
  (ha : (s.core p).trick ≠ .aborting) (hb : (s.core p).trick ≠ .abortDone)
include hu hm hf ha hb

/-- A timer of a member that no fault or abort has stopped is looked at. -/
theorem State.timed_member : (!s.up || (s.core p).member.isNone || (s.core p).st == .faulted || (s.core p).trick == .aborting ||
    (s.core p).trick == .abortDone) = false := by
  simp [hu, hm, hf, ha, hb]

/-- The wait of the sequencer's slot times out. -/
theorem State.flagTimeout_slot {w : Slot} (hs : (s.core p).st = .running) (hh : (s.core p).halted = false)
    (hw : (s.core p).slotAt (s.core p).pc = some w) (h0 : w.engine = 0) (hn : (s.core p).waitHolds w = false) :
    s.flagTimeout p 0 = (s.waitUntil ((s.core p).stallAt + (s.hdrOf (s.core p)).limit)).coreFault p 0x0301 0 (s.core p).pc
      (faultInfo ((s.core p).flag w.wflag) w.wflag false) [] := by
  unfold State.flagTimeout
  dsimp only
  rw [State.timed_member hu hm hf ha hb]
  simp [hs, hh, hw, h0, hn]

/-- The wait of a member at its trick times out. -/
theorem State.flagTimeout_trick (hs : (s.core p).st = .atTrick) (hr : (s.core p).resumeAt = none) :
    s.flagTimeout p 0 = (s.waitUntil ((s.core p).stallAt + (s.hdrOf (s.core p)).limit)).coreFault p 0x0301 0 ((s.core p).pc - 32)
      (faultInfo ((s.core p).tricks - 1) 0 true) [] := by
  unfold State.flagTimeout
  dsimp only
  rw [State.timed_member hu hm hf ha hb]
  simp [hs, hr]

/-- The wait of the head of an issue queue times out. -/
theorem State.flagTimeout_queue {e : Nat} (he : e ≠ 0) {q : QEntry} {rest : List QEntry}
    (hq : ((s.core p).engine e).queue = q :: rest) (hn : (s.core p).waitHolds q.word = false) :
    s.flagTimeout p e = (s.waitUntil (((s.core p).engine e).headSince + (s.hdrOf (s.core p)).limit)).coreFault p 0x0301 e q.pc
      (faultInfo ((s.core p).flag q.word.wflag) q.word.wflag false) [] := by
  unfold State.flagTimeout
  dsimp only
  rw [State.timed_member hu hm hf ha hb]
  simp [he, hq, hn]

end

/-- Settles O17: completion takes the oldest entry, and each of the three waits times out by a fault at its limit. -/
theorem instructionsEnd : Obligations.InstructionsEnd := by
  refine ⟨fun s p e x xs hx hp hf => ⟨fun hd => ?_, fun hd => ?_⟩, fun s p e hu hm hf ha hb =>
    ⟨fun w he hs hh hw h0 hn => ?_, fun he hs hr => ?_, fun q rest he hq hn => ?_⟩⟩
  · refine congrArg _ (State.complete_idle s p e fun y ys hy => ?_)
    rw [hx] at hy
    cases hy
    simp [hd]
  · intro s1
    refine ⟨_, congrArg Host.Outcome.next (State.complete_runs hx hp hf hd), fun h => ?_, fun h => if_pos h, fun h =>
      State.record_idle (s := s.setCore _ _) h ..⟩
    rw [if_neg (by simp [h])]
    exact State.signalled_of rfl fun q => by split_ifs with h <;> [rw [h]; rfl]
  · subst he
    exact ⟨_, _, congrArg Host.Outcome.next (State.flagTimeout_slot hu hm hf ha hb hs hh hw h0 hn), rfl, s.timeout_faulted ..⟩
  · subst he
    exact ⟨_, _, congrArg Host.Outcome.next (State.flagTimeout_trick hu hm hf ha hb hs hr), rfl, s.timeout_faulted ..⟩
  · have he' : (e : Nat) ≠ 0 := fun h => he (Fin.ext h)
    exact ⟨_, _, congrArg Host.Outcome.next (State.flagTimeout_queue hu hm hf ha hb he' hq hn), rfl, s.timeout_faulted ..⟩

end Sys2Proof.Machine
end

-- ==== Arrivals of members ====
section
/-! PROOFS. Members arrive at their tricks and at abort tricks (R49, R69, R92). -/

namespace Sys2Proof.Machine

/-- Closing all windows of a core leaves none open (R93). -/
theorem Core.closeAll_closes (c : Core) (i : Nat) (hi : i < 64) : (c.closeAll.window i).isOpen = false := by
  unfold Core.closeAll
  rw [(Core.wclose_all (List.range 64) c).1, if_pos (List.mem_range.2 hi)]

/-- A core that an arrival has left: its place at the trick, its windows closed and its arrival noted. -/
def State.arrived (s : State) (p : Nat) (x : TrickSt) : State :=
  (s.activity.2.onCore p (fun k => { k.closeAll with trick := x })).setRamp p s.activity.1

/-- What an arrival leaves (R49, R92, R324). -/
theorem State.arrived_core (s : State) (p : Nat) (x : TrickSt) :
    ((s.arrived p x).core p).trick = x ∧ (∀ i < 64, (((s.arrived p x).core p).window i).isOpen = false) ∧
    CoresKept s (s.arrived p x) [p] ∧ (s.arrived p x).ports = s.ports ∧
    ((s.arrived p x).core p).arrivedAt = some (s.dieTime (p / 11) : Int) := by
  have away : CoresKept s (s.arrived p x) [p] := fun q hq => by
    have hq : q ≠ p := by simpa using hq
    exact (State.core_onCore_ne _ _ hq).trans (State.core_onCore_ne _ _ hq)
  have time : (s.activity.2.onCore p (fun k => { k.closeAll with trick := x })).dieTime (p / 11) = s.dieTime (p / 11) := rfl
  refine ⟨?_, fun i hi => ?_, away, rfl, ?_⟩
  all_goals
    unfold State.arrived State.setRamp
    dsimp only
    rw [State.core_onCore_same]
  · rw [State.core_onCore_same]
  · have h := (s.activity.2.core p).closeAll_closes i hi
    rw [State.core_onCore_same]
    generalize (s.activity.2.core p).closeAll = c at h ⊢
    exact h
  · rw [time]

/-- Settles O23: the three cases of `arrive` for a member of a hand of the image. -/
theorem membersArrive : Obligations.MembersArrive := by
  intro s p m hm hd hh
  have he : exec (.memberArrive p) s = .next (s.arrive p) := rfl
  refine ⟨fun ht hs hq => ?_, fun ht hq => ?_, fun ht => ?_⟩
  · obtain ⟨h1, h2, h3, h4, h5⟩ := s.arrived_core p .arrived
    refine ⟨(s.arrived p .arrived).onGroup m.group (fun x => { x with
      dealing := x.dealing.map (fun d => { d with locAt := (s.arrived p .arrived).dieTime (p / 11) }) }), ?_, h1, h2, h3, h4, h5⟩
    rw [he]
    unfold State.arrive
    simp only [hm, hd, hh, ht, hs, hq]
    rfl
  · rw [he]
    unfold State.arrive
    simp only [hm, hd, hh, ht, hq]
    rfl
  · obtain ⟨h1, h2, h3, h4, _⟩ := s.arrived_core p .abortDone
    refine ⟨s.arrived p .abortDone, ?_, h1, h2, h3, h4⟩
    rw [he]
    unfold State.arrive
    simp only [hm, hd, hh, ht]
    rfl

end Sys2Proof.Machine
end

-- ==== Bookkeeping of the dealer ====
section
/-! PROOFS. What the dealer's bookkeeping leaves: requests, completions, stakes, weight slots, seats, wheels, energy counts and word errors
change no core, group, port, completion count or map (`State.books`); the journal, scores and marks change records of faults and the
MRAM queue besides (`State.ledger`). Either leaves every register field but the counters and event fields listed in `bookKey`. -/

namespace Sys2Proof.Machine

/-! ## The two frames -/

/-- The register fields of the hub that bookkeeping counts in and raises events in. -/
def bookFields : List Fld :=
  [R.HIF_CNT_BAD_VECTOR, R.SRV_CNT_CANCEL, R.SRV_CNT_LATE_CANCEL, R.SRV_CNT_CPL_DROP, R.SRV_CNT_PAUSE, R.WSL_CNT_CUT, R.WSL_CNT_STAGE,
   R.WSL_CNT_CONVERT, R.DPL_CNT_FREED, R.EVT_STATUS .flt, R.EVT_FIRST_CODE .flt, R.FLT_JRN_COUNT, R.FLT_CNT_FAULT, R.FLT_CNT_SWAP,
   R.FLT_CNT_RETURN]

/-- The register fields of a stack that a read of it with word errors changes (R232, R250). -/
def eccFields : List Fld :=
  [R.HBM_CNT_CORR, R.HBM_CNT_UNCORR_READ, R.HBM_ECC_INFO_VALID, R.HBM_ECC_INFO_UNIT, R.HBM_ECC_INFO_SCRUB, R.HBM_ECC_ADDR_LO,
   R.HBM_ECC_ADDR_HI, R.EVT_STATUS .hbm, R.EVT_FIRST_CODE .hbm]

/-- The keys of the register fields that bookkeeping may change. -/
def bookKey (n : Nat) : Prop := (∃ f ∈ bookFields, n = f.key 0 0) ∨ ∃ f ∈ eccFields, ∃ i, n = f.key i 0

theorem bookKey_hub {f : Fld} (h : f ∈ bookFields) : bookKey (f.key 0 0) := .inl ⟨f, h, rfl⟩

theorem bookKey_ecc {f : Fld} (h : f ∈ eccFields) (i : Nat) : bookKey (f.key i 0) := .inr ⟨f, h, i, rfl⟩

/-- Every register field that bookkeeping may not change is as it was. -/
def State.sameFields (s t : State) : Prop := ∀ (f : Fld) (i k : Nat), ¬ bookKey (f.key i k) → t.rd f i k = s.rd f i k

/-- `t` is `s` after bookkeeping that concerns neither the journal nor a map, mark or score. -/
def State.books (s t : State) : Prop :=
  t = { s with regs := t.regs, recs := t.recs, msixPend := t.msixPend, outbox := t.outbox, free := t.free, hbm := t.hbm,
               wheels := t.wheels, events := t.events, funcs := t.funcs, reqs := t.reqs, kvUsed := t.kvUsed, wslots := t.wslots,
               seats := t.seats, power := t.power } ∧ s.sameFields t

/-- `t` is `s` after bookkeeping. -/
def State.ledger (s t : State) : Prop :=
  t = { s with regs := t.regs, recs := t.recs, msixPend := t.msixPend, outbox := t.outbox, free := t.free, hbm := t.hbm,
               wheels := t.wheels, events := t.events, funcs := t.funcs, reqs := t.reqs, kvUsed := t.kvUsed, wslots := t.wslots,
               seats := t.seats, power := t.power, flt := t.flt, life := t.life } ∧ s.sameFields t

theorem State.sameFields.trans {s t u : State} (h : s.sameFields t) (h' : t.sameFields u) : s.sameFields u :=
  fun f i k hk => (h' f i k hk).trans (h f i k hk)

theorem State.sameFields.of_kept {s t : State} {ks : List Nat} (h : FieldsKept s t ks) (hk : ∀ n ∈ ks, bookKey n) : s.sameFields t :=
  fun f i k hf => h f i k (fun hm => hf (hk _ hm))

namespace State.books

variable {s t u : State}

theorem refl (s : State) : s.books s := ⟨rfl, fun _ _ _ _ => rfl⟩

theorem trans (h : s.books t) (h' : t.books u) : s.books u := by
  obtain ⟨h1, h2⟩ := h
  obtain ⟨h1', h2'⟩ := h'
  exact ⟨h1'.trans (by rw [h1]), h2.trans h2'⟩

/-- A counter or field that bookkeeping may write. -/
theorem wr (h : s.books t) {f : Fld} (v : Nat) {i : Nat} (hf : bookKey (f.key i 0)) : s.books (t.wr f v i) :=
  h.trans ⟨rfl, fun _ _ _ hk => State.rd_wr_ne _ _ _ _ _ _ _ _ (fun e => hk (e ▸ hf))⟩

theorem bump (h : s.books t) {f : Fld} (hf : f ∈ bookFields) : s.books (t.bump f) := h.wr _ (bookKey_hub hf)

/-- A choice between two ways of bookkeeping. -/
theorem ite {c : Prop} [Decidable c] (h : s.books t) (h' : s.books u) : s.books (if c then t else u) := by
  split_ifs
  · exact h
  · exact h'

/-- A loop of bookkeeping. -/
theorem foldl {α : Type} {f : State → α → State} (h : ∀ (s : State) (x : α), s.books (f s x)) (l : List α) : ∀ s : State, s.books (l.foldl f s) := by
  induction l with
  | nil => exact refl
  | cons x xs ih => exact fun s => (h s x).trans (ih _)

theorem cores (h : s.books t) : t.cores = s.cores := by rw [h.1]
theorem groups (h : s.books t) : t.groups = s.groups := by rw [h.1]
theorem ports (h : s.books t) : t.ports = s.ports := by rw [h.1]
theorem flt (h : s.books t) : t.flt = s.flt := by rw [h.1]
theorem image (h : s.books t) : t.image = s.image := by rw [h.1]
theorem done (h : s.books t) : t.done = s.done := by rw [h.1]

theorem ledger (h : s.books t) : s.ledger t := by
  obtain ⟨h1, h2⟩ := h
  refine ⟨h1.trans ?_, h2⟩
  rw [h1]

end State.books

namespace State.ledger

variable {s t u : State}

theorem refl (s : State) : s.ledger s := ⟨rfl, fun _ _ _ _ => rfl⟩

theorem trans (h : s.ledger t) (h' : t.ledger u) : s.ledger u := by
  obtain ⟨h1, h2⟩ := h
  obtain ⟨h1', h2'⟩ := h'
  exact ⟨h1'.trans (by rw [h1]), h2.trans h2'⟩

theorem bump (h : s.ledger t) {f : Fld} (hf : f ∈ bookFields) : s.ledger (t.bump f) := h.trans ((State.books.refl t).bump hf).ledger

theorem ite {c : Prop} [Decidable c] (h : s.ledger t) (h' : s.ledger u) : s.ledger (if c then t else u) := by
  split_ifs
  · exact h
  · exact h'

theorem foldl {α : Type} {f : State → α → State} (h : ∀ (s : State) (x : α), s.ledger (f s x)) (l : List α) : ∀ s : State, s.ledger (l.foldl f s) := by
  induction l with
  | nil => exact refl
  | cons x xs ih => exact fun s => (h s x).trans (ih _)

theorem cores (h : s.ledger t) : t.cores = s.cores := by rw [h.1]
theorem groups (h : s.ledger t) : t.groups = s.groups := by rw [h.1]
theorem ports (h : s.ledger t) : t.ports = s.ports := by rw [h.1]
theorem image (h : s.ledger t) : t.image = s.image := by rw [h.1]
theorem done (h : s.ledger t) : t.done = s.done := by rw [h.1]

end State.ledger

/-! ## Messages, the journal and MRAM -/

theorem State.msix_books (s : State) (fn n : Nat) : s.books (s.msix fn n) := by
  refine ⟨?_, .of_kept (s.msix_kept fn n) (by simp only [List.mem_singleton, forall_eq]; exact bookKey_hub (by decide))⟩
  rw [State.msix_frame]

/-- Events of the fault page, and of the pages of the stacks. -/
theorem State.raiseEvt_books (s : State) (b : Block) (i bit code : Nat) (h1 : bookKey ((R.EVT_STATUS b).key i 0))
    (h2 : bookKey ((R.EVT_FIRST_CODE b).key i 0)) : s.books (s.raiseEvt b i bit code) := by
  refine ⟨?_, fun f j k hk => s.setEvents_rd b i _ _ f j k ?_ ?_ ?_⟩
  · rw [State.raiseEvt_frame]
  · exact fun e => hk (e ▸ bookKey_hub (by decide))
  · exact fun e => hk (e ▸ h1)
  · exact fun e => hk (e ▸ h2)

theorem State.raiseEvt_flt_books (s : State) (bit code : Nat) : s.books (s.raiseEvt .flt 0 bit code) :=
  s.raiseEvt_books .flt 0 bit code (bookKey_hub (by decide)) (bookKey_hub (by decide))

theorem State.jrnPut_ledger (s : State) (e : JrnEntry) : s.ledger (s.jrnPut e) := by
  refine ⟨?_, .of_kept (s.jrnPut_kept e) ?_⟩
  · rw [State.jrnPut_frame]
  · simp only [List.mem_cons, List.not_mem_nil, or_false, forall_eq_or_imp, forall_eq]
    exact ⟨bookKey_hub (by decide), bookKey_hub (by decide)⟩

theorem State.journal_ledger (s : State) (e : JrnEntry) : s.ledger (s.journal e) := by
  unfold State.journal
  exact .ite ((s.jrnPut_ledger e).trans (State.msix_books _ _ _).ledger) (s.jrnPut_ledger e)

theorem State.nvmAsk_ledger (s : State) (o : NvmOp) : s.ledger (s.nvmAsk o) := by
  rw [State.nvmAsk_frame]
  exact ⟨rfl, fun _ _ _ _ => rfl⟩

theorem State.nvmStore_ledger (s : State) (n : Nat) : s.ledger (s.nvmStore n) := s.nvmAsk_ledger _

/-! ## Maps, marks and scores -/

/-- A change of the records of faults alone. -/
theorem State.withFlt_ledger (s : State) (x : FaultSt) : s.ledger { s with flt := x } := ⟨rfl, fun _ _ _ _ => rfl⟩

theorem State.onMap_ledger (s : State) (d : Nat) (f : JokerMap → JokerMap) : s.ledger (s.onMap d f) := s.withFlt_ledger _

theorem State.setScore_ledger (s : State) (p v : Nat) : s.ledger (s.setScore p v) := s.withFlt_ledger _

theorem State.noJoker_ledger (s : State) (d : Nat) : s.ledger (s.noJoker d) := by
  unfold State.noJoker
  exact .ite (.refl s) (((s.onMap_ledger d _).trans (State.raiseEvt_flt_books _ _ _).ledger).trans (State.journal_ledger _ _))

theorem State.lastJoker_ledger (s : State) (d : Nat) : s.ledger (s.lastJoker d) := by
  unfold State.lastJoker
  exact .ite (s.noJoker_ledger d) (.refl s)

theorem State.retireJoker_ledger (s : State) (p code : Nat) : s.ledger (s.retireJoker p code) := by
  unfold State.retireJoker
  refine .trans (.trans (.bump (.trans (.trans (s.onMap_ledger _ _) (State.setScore_ledger _ _ _)) (State.journal_ledger _ _)) (by decide))
    (State.nvmStore_ledger _ _)) (State.lastJoker_ledger _ _)

theorem State.markCore_ledger (s : State) (p code : Nat) : s.ledger (s.markCore p code) := by
  unfold State.markCore
  exact .ite (.refl s) (.ite (s.retireJoker_ledger p code) (.ite (.trans (s.withFlt_ledger _) (State.noJoker_ledger _ _)) (s.withFlt_ledger _)))

theorem State.markWorn_ledger (s : State) : s.ledger s.markWorn :=
  .foldl (fun t p => .ite (t.markCore_ledger p _) (.refl t)) _ s

theorem State.rescore_ledger (s : State) : s.ledger s.rescore := by
  unfold State.rescore
  exact .ite s.markWorn_ledger (.refl s)

theorem State.addScore_ledger (s : State) (p w : Nat) : s.ledger (s.addScore p w) := by
  unfold State.addScore
  have scored : s.ledger (s.setScore p (min (s.score p + w) 0xFFFFFFFF)) := s.setScore_ledger _ _
  have warned : ∀ e, s.ledger (((s.setScore p (min (s.score p + w) 0xFFFFFFFF)).raiseEvt .flt 0 1 0x0C02).journal e) := fun e =>
    (scored.trans (State.raiseEvt_flt_books _ _ _).ledger).trans (State.journal_ledger _ _)
  exact .ite (.refl s) (.ite scored (.ite (.trans (.ite (warned _) scored) (State.markCore_ledger _ _ _)) (.ite (warned _) scored)))

/-! ## Word errors and reads of device memory (R232) -/

theorem State.tally_books (s : State) (u i n : Nat) : s.books (s.tally u i n) := ⟨rfl, fun _ _ _ _ => rfl⟩

theorem State.tallyHub_books (s : State) (a n : Nat) : s.books (s.tallyHub a n) := (s.tally_books _ _ _).trans (State.tally_books _ _ _ _)

/-- A change of the stacks alone. -/
theorem State.withHbm_books (s : State) (x : Tier) : s.books { s with hbm := x } := ⟨rfl, fun _ _ _ _ => rfl⟩

theorem State.record1_books {s : State} {valid : Fld} {i : Nat} {put : State → State} (hv : bookKey (valid.key i 0))
    (hp : ∀ t : State, t.books (put t)) : s.books (s.record1 valid i put) := by
  unfold State.record1
  have marked : ∀ x : SMap Bool, s.books { s with recs := x } := fun _ => ⟨rfl, fun _ _ _ _ => rfl⟩
  exact .ite (.refl s) (.trans ((marked _).wr _ hv) (hp _))

theorem State.eccRecord_books (s : State) (i word tile : Nat) (scrub : Bool) : s.books (s.eccRecord .hbm i word tile scrub) := by
  unfold State.eccRecord
  rw [if_pos rfl]
  refine State.record1_books (bookKey_ecc (by decide) i) fun t => ?_
  exact (((((State.books.refl t).wr _ (bookKey_ecc (by decide) i)).wr _ (bookKey_ecc (by decide) i)).wr _ (bookKey_ecc (by decide) i)).wr _
    (bookKey_ecc (by decide) i))

theorem State.wordErrors_books (s : State) (lo hi : Nat) (es : SMap MemErr) : s.books (s.wordErrors .hbm lo hi es).1 := by
  unfold State.wordErrors
  simp only [if_true]
  generalize stackOf (lo * 32) = i
  have counted (x : Tier) (n : Nat) : s.books (State.bumpBy { s with hbm := x } R.HBM_CNT_CORR n i) :=
    (s.withHbm_books x).wr _ (bookKey_ecc (by decide) i)
  split
  · exact counted _ _
  · refine .trans ?_ (.foldl (fun t _ => t.withHbm_books _) _ _)
    refine .trans ?_ (State.raiseEvt_books _ _ _ _ _ (bookKey_ecc (by decide) i) (bookKey_ecc (by decide) i))
    refine .trans ?_ (State.eccRecord_books _ _ _ _ _)
    exact (counted _ _).wr _ (bookKey_ecc (by decide) i)

theorem State.dealerRead_books (s : State) (a n : Nat) : s.books (s.dealerRead a n).2 :=
  .trans (s.wordErrors_books _ _ _) (State.tallyHub_books _ _ _)

/-! ## Weight slots and seats (R361 to R374) -/

theorem State.settle_books (s : State) : s.books s.settle := ⟨rfl, fun _ _ _ _ => rfl⟩

theorem State.setWslot_books (s : State) (i : Nat) (w : WSlot) : s.books (s.setWslot i w) := ⟨rfl, fun _ _ _ _ => rfl⟩

theorem State.doStage_books (s : State) (m e : Nat) : s.books (s.doStage m e) := (s.setWslot_books _ _).bump (by decide)

theorem State.doCut_books (s : State) (m : Nat) : s.books (s.doCut m) :=
  (((s.setWslot_books _ _).trans (State.setWslot_books _ _ _)).bump (by decide)).trans (State.settle_books _)

theorem State.autoStage_books (s : State) : s.books s.autoStage := .foldl (fun t m => .ite (t.doStage_books m _) (.refl t)) _ s

theorem State.autoStep_books (s : State) : s.books s.autoStep :=
  (s.settle_books.trans (.foldl (fun t m => .ite (t.doCut_books m) (.refl t)) _ _)).trans (State.autoStage_books _)

theorem State.convertWaiting_books (s : State) : s.books s.convertWaiting := by
  obtain ⟨h, hk⟩ := s.convertWaiting_frame
  refine ⟨?_, .of_kept hk (by simp only [List.mem_singleton, forall_eq]; exact bookKey_hub (by decide))⟩
  rw [h]

theorem State.autos_books (s : State) : s.books s.autos := .ite (s.convertWaiting_books.trans (State.autoStep_books _)) s.settle_books

theorem State.settleSeats_books (s : State) : s.books s.settleSeats :=
  .foldl (fun t _ => .ite (.bump (t := t.setSeat _ _) ⟨rfl, fun _ _ _ _ => rfl⟩ (by decide)) (.refl t)) _ s

theorem State.freeSlots_books (s : State) (g : Nat) : s.books (s.freeSlots g) := ⟨rfl, fun _ _ _ _ => rfl⟩

theorem State.withWheels_books (s : State) (x : SMap SlotOwner) : s.books { s with wheels := x } := ⟨rfl, fun _ _ _ _ => rfl⟩

theorem State.giveSlots_books (s : State) (g serial hid : Nat) : s.books (s.giveSlots g serial hid) :=
  (s.freeSlots_books g).trans (.foldl (fun t _ => t.withWheels_books _) _ _)

/-! ## Requests and completions (R395 to R408) -/

theorem State.onFunc_books (s : State) (f : Nat) (g : Func → Func) : s.books (s.onFunc f g) := ⟨rfl, fun _ _ _ _ => rfl⟩

theorem State.onReq_books (s : State) (o : Nat) (f : Req → Req) : s.books (s.onReq o f) := ⟨rfl, fun _ _ _ _ => rfl⟩

theorem State.deviceWrite_books (s : State) (a : Nat) (bs : List Byte) : s.books (s.deviceWrite a bs) :=
  (s.tallyHub_books _ _).trans (State.withHbm_books _ _)

theorem State.emit_books (s : State) (o : Out) : s.books (s.emit o) := ⟨rfl, fun _ _ _ _ => rfl⟩

theorem State.reqWrite_books (s : State) (f space a : Nat) (bs : List Byte) : s.books (s.reqWrite f space a bs) := by
  have dropped : s.books (s.bump R.SRV_CNT_CPL_DROP) := (State.books.refl s).bump (by decide)
  unfold State.reqWrite
  exact .ite (s.deviceWrite_books a bs) (.ite (s.emit_books _) dropped)

theorem State.withReqs_books (s : State) (rs : List Req) (ks : List Nat) : s.books { s with reqs := rs, kvUsed := ks } :=
  ⟨rfl, fun _ _ _ _ => rfl⟩

theorem State.dropReq_books (s : State) (r : Req) : s.books (s.dropReq r) :=
  ((s.withReqs_books _ _).trans (State.autos_books _)).trans (State.settleSeats_books _)

theorem State.finish_books (s : State) (r : Req) (status cancel : Nat) : s.books (s.finish r status cancel) := by
  have left (t : State) (h : s.books t) : s.books ((t.pushCpl r.fn (r.cpl true status cancel)).dropReq r) :=
    (h.trans (State.onFunc_books _ _ _)).trans (State.dropReq_books _ _)
  have listed : s.books (if r.elist = [] then s else s.reqWrite r.fn r.entry.elistSpace r.entry.elistAddr (elistBytes r.elist)) :=
    .ite (.refl s) (s.reqWrite_books _ _ _ _)
  unfold State.finish
  dsimp only
  generalize (if r.elist = [] then s else _) = t at listed ⊢
  split
  · exact (left _ listed).bump (by decide)
  · exact (left _ listed).bump (by decide)
  · exact left _ listed

theorem State.setStake_books (s : State) (f v : Nat) : s.books (s.setStake f v) := s.onFunc_books _ _

theorem State.debit_books (s : State) (f c : Nat) : s.books (s.debit f c) := .ite (.refl s) (s.setStake_books _ _)

theorem State.credit_books (s : State) (f c : Nat) : s.books (s.credit f c) := .ite (.refl s) (s.setStake_books _ _)

theorem State.endCostly_books (s : State) (r : Req) : s.books (s.endCostly r) := .ite (s.finish_books _ _ _) (.refl s)

theorem State.pause_books (s : State) (r : Req) : s.books (s.pause r) := .ite (.refl s) ((s.onReq_books _ _).bump (by decide))

theorem State.afterDealing_books (s : State) (r : Req) (gained : Bool) : s.books (s.afterDealing r gained) := by
  have goesOn (t : State) (h : s.books t) : s.books (t.endCostly r) := h.trans (State.endCostly_books _ _)
  have noted : s.books (if gained && r.entry.stream then s.pushCpl r.fn (r.cpl false 0xFF 0) else s) :=
    .ite (s.onFunc_books _ _) (.refl s)
  unfold State.afterDealing
  refine .ite (s.finish_books _ _ _) ?_
  split
  · exact s.finish_books _ _ _
  · exact .ite ((goesOn _ noted).trans (State.pause_books _ _)) (goesOn _ noted)

theorem State.returnReqs_books (s : State) (bs : List BatchReq) : s.books (s.returnReqs bs) := by
  refine .foldl (fun t b => ?_) bs s
  split
  · exact .refl t
  · exact .ite (t.dropReq_books _) (((t.credit_books _ _).trans (State.onReq_books _ _ _)).trans (State.afterDealing_books _ _ _))

/-! ## A dealing's requests (R390 to R400) -/

theorem State.endAtBoundary_books (s : State) (h : HandHdr) : s.books (s.endAtBoundary h) := by
  refine .foldl (fun t r => ?_) _ s
  split
  · split
    · exact t.finish_books _ _ _
    · exact .refl t
  · exact .refl t

theorem State.pauseUnpaid_books (s : State) (h : HandHdr) : s.books (s.pauseUnpaid h) :=
  .foldl (fun t _ => .ite (t.pause_books _) (.refl t)) _ s

theorem State.pauseLeft_books (s : State) (h : HandHdr) (pick : List Nat) : s.books (s.pauseLeft h pick) :=
  .foldl (fun t _ => t.pause_books _) _ s

theorem State.sealedWrite_books (s : State) (a : Nat) (bs : List Byte) : s.books (s.sealedWrite a bs) :=
  (s.tallyHub_books _ _).trans (State.withHbm_books _ _)

theorem State.writeBatch_books (s : State) (g n hid : Nat) (rs : List (Req × List Byte)) (bs : List BatchReq) :
    s.books (s.writeBatch g n hid rs bs) := by
  unfold State.writeBatch
  iterate 6 refine .trans ?_ (State.sealedWrite_books _ _ _)
  exact s.sealedWrite_books _ _

theorem State.enter_books (s : State) (bs : List BatchReq) : s.books (s.enter bs) := by
  refine .foldl (fun t b => ?_) bs s
  split
  · exact (t.debit_books _ _).trans (State.onReq_books _ _ _)
  · exact .refl t

theorem State.writeRecord_books (s : State) (g : Nat) (h : HandHdr) (es : List Nat) : s.books (s.writeRecord g h es) :=
  .ite (.refl s) (s.sealedWrite_books _ _)

/-! ## Phases (R430) -/

theorem State.useBid_books (s : State) (hid trick : Nat) : s.books (s.useBid hid trick) := by
  unfold State.useBid
  split
  · exact ⟨rfl, fun _ _ _ _ => rfl⟩
  · exact .refl s

/-! ## Fields that bookkeeping leaves -/

/-- Bookkeeping fields lie on the pages of the host interface, serving, weight slots, the delta pool and faults, or on that of a stack, and
begin at bits 0, 6 or 7 of their words. -/
theorem bookKey_place {n : Nat} (h : bookKey n) : n / 32 % 0x800000 / 0x1000 ∈ [1, 3, 7, 8, 9, 0xB] ∧ n % 32 ∈ [0, 6, 7] := by
  rcases h with ⟨f, hf, rfl⟩ | ⟨f, hf, i, rfl⟩
  · revert f
    decide
  · obtain ⟨hb, ho, hs, hl, hlt⟩ : f.blk = .hbm ∧ f.off < 0x1000 ∧ f.stride = 0 ∧ f.lsb ∈ [0, 6, 7] ∧ f.lsb < 32 := by
      revert f
      decide
    have hk : f.key i 0 = (i * 0x800000 + 0x1000 + f.off) * 32 + f.lsb := by
      unfold Fld.key
      rw [hb, hs]
      simp only [Block.page]
      omega
    rw [hk]
    constructor
    · rw [show ((i * 0x800000 + 0x1000 + f.off) * 32 + f.lsb) / 32 % 0x800000 / 0x1000 = 1 by omega]
      decide
    · rwa [show ((i * 0x800000 + 0x1000 + f.off) * 32 + f.lsb) % 32 = f.lsb by omega]

/-- A field of a page that bookkeeping does not touch. -/
theorem not_bookKey_of_page {f : Fld} {i k : Nat} (h : f.key i k / 32 % 0x800000 / 0x1000 ∉ [1, 3, 7, 8, 9, 0xB]) : ¬ bookKey (f.key i k) :=
  fun hb => h (bookKey_place hb).1

/-- The parent bit, margin and children of a group's tree (R316) begin at other bits of their words. -/
theorem not_bookKey_tree (g : Nat) : ¬ bookKey (R.TRK_TREE_PARENT_VALID.key 0 g) ∧ ¬ bookKey (R.TRK_TREE_MARGIN.key 0 g) ∧
    ¬ bookKey (R.TRK_TREE_CHILDREN.key 0 g) := by
  have bit (f : Fld) (hl : f.lsb < 32) (hf : f.lsb ∉ [0, 6, 7]) : ¬ bookKey (f.key 0 g) := fun hb => hf (by
    have h := (bookKey_place hb).2
    rwa [show f.key 0 g % 32 = f.lsb by unfold Fld.key; omega] at h)
  exact ⟨bit _ (by decide) (by decide), bit _ (by decide) (by decide), bit _ (by decide) (by decide)⟩

/-- The pages of a core lie apart from those of bookkeeping. -/
theorem not_bookKey_core {f : Fld} {p : Nat} (hb : f.blk = .seq ∨ f.blk = .spm) (ho : f.off < 0x1000) (hl : f.lsb < 32) (hs : f.stride = 0) :
    ¬ bookKey (f.key p 0) := by
  refine not_bookKey_of_page ?_
  have hp : 0x100 ≤ f.key p 0 / 32 % 0x800000 / 0x1000 := by
    unfold Fld.key
    rw [hs]
    rcases hb with hb | hb <;> rw [hb] <;> simp only [Block.page] <;> omega
  simp only [List.mem_cons, List.not_mem_nil, or_false]
  omega

end Sys2Proof.Machine
end

-- ==== Groups resumed and jokers swapped ====
section
/-! PROOFS. Groups that may deal again (R449), the check period (R453), and a marked core replaced by a joker (R71, R463, R464). -/

namespace Sys2Proof.Machine

/-! ## What the journal leaves, exactly -/

/-- The register fields that a journal entry with its message may change. -/
def journalKeys : List Nat := [R.FLT_JRN_COUNT.key 0 0, R.FLT_CNT_FAULT.key 0 0, R.HIF_CNT_BAD_VECTOR.key 0 0]

theorem State.journal_kept (s : State) (e : JrnEntry) : FieldsKept s (s.journal e) journalKeys := by
  have put : FieldsKept s (s.jrnPut e) journalKeys := (s.jrnPut_kept e).mono (by simp [journalKeys])
  unfold State.journal
  dsimp only
  split_ifs
  · exact put.trans ((State.msix_kept _ _ _).mono (by simp [journalKeys]))
  · exact put

/-- The journal changes of the records of faults the ring alone. -/
theorem State.journal_flt (s : State) (e : JrnEntry) :
    (s.journal e).flt = { s.flt with jrn := (s.journal e).flt.jrn, dirtyAt := (s.journal e).flt.dirtyAt } := by
  have h : (s.journal e).flt = (s.jrnPut e).flt := by
    unfold State.journal
    dsimp only
    split_ifs
    · exact (State.msix_books _ _ _).flt
    · rfl
  rw [h, State.jrnPut_flt]

/-- NO_JOKER counts no swap. -/
theorem State.lastJoker_swaps (s : State) (d : Nat) : (s.lastJoker d).rd R.FLT_CNT_SWAP = s.rd R.FLT_CNT_SWAP := by
  unfold State.lastJoker State.noJoker
  dsimp only
  split_ifs
  · rfl
  · rw [State.journal_kept _ _ R.FLT_CNT_SWAP 0 0 (by decide)]
    exact State.setEvents_rd _ _ _ _ _ _ _ _ (by decide) (by decide) (by decide)
  · rfl

/-- Raising the event and writing the journal leave the joker maps. -/
theorem State.noJoker_maps {s : State} {d : Nat} (h : (s.jmap d).waits = false) :
    (s.noJoker d).flt.maps = (s.onMap d (fun m => { m with waits := true })).flt.maps := by
  unfold State.noJoker
  rw [h]
  simp only [Bool.false_eq_true, if_false]
  rw [State.journal_flt, (State.raiseEvt_flt_books _ _ _).flt]

/-- The joker map of a die that exists, after a change of it. -/
theorem State.jmap_onMap_same (s : State) {d : Nat} (h : d < s.flt.maps.length) (f : JokerMap → JokerMap) :
    (s.onMap d f).jmap d = f (s.jmap d) := by
  obtain e | ⟨-, e⟩ := s.jmap_onMap d d f
  · simp [State.jmap, State.onMap, List.getD, h]
  · exact e

/-- When a die's last joker has gone and a marked core of it waits, the map shows that it waits, and nothing else of it changes (R464). -/
theorem State.lastJoker_jmap (s : State) {d : Nat} (h : d < s.flt.maps.length) :
    (s.lastJoker d).jmap d =
      { s.jmap d with waits := (s.jmap d).waits || ((s.jmap d).jokers == 0 && s.markedWait d) } := by
  unfold State.lastJoker
  cases hj : ((s.jmap d).jokers == 0 && s.markedWait d) with
  | false => simp
  | true =>
    rw [if_pos rfl]
    cases hw : (s.jmap d).waits with
    | true =>
      have e : s.noJoker d = s := by simp [State.noJoker, hw]
      rw [e, Bool.true_or, ← hw]
    | false =>
      have e : (s.noJoker d).jmap d = (s.onMap d (fun m => { m with waits := true })).jmap d := by
        unfold State.jmap
        rw [State.noJoker_maps hw]
      rw [e, s.jmap_onMap_same h]
      rfl

/-! ## Flits that break tiles (log entry 101) -/

/-- Of a port, the flits for a logical core that have been checked are those of broken tiles. -/
def State.brokenAt (s : State) (l q : Nat) : Prop :=
  ∀ x ∈ (s.port q).elastic, x.checked = true → (s.route x.flit.route).core = l → x.broken = true

/-- The step of `breakTiles` at one port. -/
def State.breakAt (s : State) (l port : Nat) : State :=
  s.onPort port (fun p => { p with
    elastic := p.elastic.map (fun x => if x.checked && (s.route x.flit.route).core == l then { x with broken := true } else x)
    tiles := p.tiles.map (fun t => if t.core == l then { t with refused := true } else t) })

theorem State.breakTiles_eq (s : State) (l : Nat) : s.breakTiles l = (List.range 16).foldl (fun s port => s.breakAt l port) s := rfl

/-- Breaking at one port breaks there, and keeps what is broken elsewhere. -/
theorem State.breakAt_breaks (s : State) (l port q : Nat) (h : q = port ∨ s.brokenAt l q) : (s.breakAt l port).brokenAt l q := by
  intro x hx hc hr
  change (s.route x.flit.route).core = l at hr
  unfold State.breakAt at hx
  rw [State.port_onPort] at hx
  split_ifs at hx with hq
  · obtain ⟨y, -, rfl⟩ := List.mem_map.1 hx
    split_ifs at hc hr ⊢ with hy
    · rfl
    · exact absurd (by simp [hc, hr]) hy
  · exact h.resolve_left hq x hx hc hr

/-- Breaking at every port of a list. -/
theorem State.breakMany_breaks (l q : Nat) (ports : List Nat) : ∀ s : State, q ∈ ports ∨ s.brokenAt l q →
    (ports.foldl (fun s port => s.breakAt l port) s).brokenAt l q := by
  induction ports with
  | nil => exact fun s h => h.resolve_left (List.not_mem_nil)
  | cons port ports ih =>
    intro s h
    refine ih _ ?_
    by_cases hq : q ∈ ports
    · exact .inl hq
    · exact .inr (s.breakAt_breaks l port q (h.imp (fun hm => (List.mem_cons.1 hm).resolve_right hq) id))

/-- Breaking tiles changes the ports alone. -/
theorem State.breakTiles_frame (s : State) (l : Nat) : s.breakTiles l = { s with ports := (s.breakTiles l).ports } := by
  rw [State.breakTiles_eq]
  generalize List.range 16 = ports
  induction ports generalizing s with
  | nil => rfl
  | cons port ports ih => exact ih (s.breakAt l port)

/-! ## A region power-gated (R129, R130) -/

theorem State.core_wr (s : State) (f : Fld) (v i k p : Nat) : (s.wr f v i k).core p = s.core p := rfl

/-- Gating a region changes its core and the two fields of its scratchpad that tell of its power. -/
theorem State.gateRegion_frame (s : State) (p : Nat) :
    s.gateRegion p = { s with cores := (s.gateRegion p).cores, regs := (s.gateRegion p).regs } ∧ CoresKept s (s.gateRegion p) [p] ∧
    ((s.gateRegion p).core p).region = .gated ∧
    FieldsKept s (s.gateRegion p) [R.SPM_STATUS_POWERED.key p 0, R.SPM_STATUS_LOST.key p 0] := by
  have away (g : Core → Core) : CoresKept s (s.onCore p g) [p] := fun q hq => State.core_onCore_ne _ _ (by simpa using hq)
  unfold State.gateRegion
  dsimp only
  split_ifs
  · exact ⟨rfl, away _, by rw [State.core_onCore_same], fun _ _ _ _ => rfl⟩
  · refine ⟨rfl, fun q hq => ?_, ?_, ?_⟩
    · rw [State.core_wr, State.core_wr]
      exact away _ q hq
    · rw [State.core_wr, State.core_wr, State.core_onCore_same]
    · exact ((FieldsKept.of_regs (.refl s _) rfl).wr _ (by simp)).wr _ (by simp)

/-- A region that is gated anew loses its contents unless it retains them or its last hand did not end at a checkpoint trick; one that is gated
stays as it is. -/
theorem State.gateRegion_lost (s : State) (p : Nat) :
    ((s.core p).gatedNow = false → ((s.gateRegion p).rd R.SPM_STATUS_LOST p = 1 ↔
      s.on R.SPM_CTRL_RETAIN p = false ∧ (s.core p).ckptEnd = true)) ∧
    ((s.core p).gatedNow = true → (s.gateRegion p).rd R.SPM_STATUS_LOST p = s.rd R.SPM_STATUS_LOST p) := by
  unfold State.gateRegion
  refine ⟨fun h => ?_, fun h => by rw [if_pos h]; rfl⟩
  rw [if_neg (by simp [h])]
  dsimp only
  rw [State.rd_wr_same]
  cases s.on R.SPM_CTRL_RETAIN p <;> cases (s.core p).ckptEnd <;> simp [ofBool, R.SPM_STATUS_LOST]

/-! ## A joker in the place of a marked core (R463) -/

/-- The joker `c` of the die of part `p` woken, its seals poisoned (R71). -/
def State.jokerWoken (s : State) (p c : Nat) : State :=
  (s.wakeDie (p / 11)).onCore (11 * (p / 11) + c) (fun k => { k.woken s.tick with seals := [], tag := (s.core p).tag })

/-- The joker map of the die with joker `c` in the place of part `p` as core `l` (R463). -/
def State.mapMoved (s : State) (p c l : Nat) : State :=
  s.onMap (p / 11) (fun m => { m with phys := m.phys.set (l % 10) c, retired := m.retired ++ [p % 11], jokers := m.jokers - 1 })

/-- The marked core `p` replaced by the joker `c` of its die as core `l`: the joker woken, the map changed, the old core gated and its mark
taken. -/
def State.moved (s : State) (p c l : Nat) : State :=
  let s3 := (((s.jokerWoken p c).mapMoved p c l).gateRegion p).setScore p 0xFFFFFFFF
  { s3 with flt := { s3.flt with marked := SMap.set 0 s3.flt.marked p 0 } }

/-- The swap stored, journaled and counted (R463, R464). -/
def State.swapNoted (s : State) (p c l code : Nat) : State :=
  ((s.nvmStore 1).journal { JrnEntry.atPart s code 4 p with core := l, info := 11 * (p / 11) + c }).bump R.FLT_CNT_SWAP

/-- The return counts of the groups of a core taken back (R463). -/
def State.returnsForgiven (s : State) (l : Nat) : State :=
  (List.range 64).foldl (fun s g =>
    if (s.groupHands g).any (fun h => (s.handAt h).any (fun x => bitOf x.hdr.coreSet l)) then s.onGroup g (fun x => { x with returns := 0 })
    else s) s

theorem State.swapCore_eq (s : State) (p c l : Nat) : s.swapCore p c l =
    ((((s.moved p c l).swapNoted p c l (SMap.get 0 s.flt.marked p - 1)).lastJoker (p / 11)).breakTiles l).returnsForgiven l := rfl

/-- Forgiving returns changes the groups alone. -/
theorem State.returnsForgiven_frame (s : State) (l : Nat) : s.returnsForgiven l = { s with groups := (s.returnsForgiven l).groups } := by
  unfold State.returnsForgiven
  generalize List.range 64 = gs
  induction gs generalizing s with
  | nil => rfl
  | cons g gs ih =>
    rw [List.foldl_cons, ih]
    split_ifs <;> rfl

/-- A woken region keeps the rest of its core. -/
theorem Core.woken_frame (c : Core) (tick : Nat) :
    c.woken tick = { c with region := (c.woken tick).region, regionAt := (c.woken tick).regionAt } := by
  unfold Core.woken
  split <;> rfl

theorem State.core_mapMoved (s : State) (p c l q : Nat) : (s.mapMoved p c l).core q = s.core q := rfl

/-- Waking the joker changes its own core and its die's power. -/
theorem State.core_jokerWoken (s : State) (p c q : Nat) : (s.jokerWoken p c).core q =
    if q = 11 * (p / 11) + c then { (s.core q).woken s.tick with seals := [], tag := (s.core p).tag } else s.core q := by
  unfold State.jokerWoken
  rw [State.core_onCore]
  split_ifs with h
  · rw [h]; rfl
  · rfl

/-- Taking a mark and setting a score concern neither cores nor register fields. -/
theorem State.unmarked_frame (s : State) (p v q : Nat) :
    ({ s.setScore p v with flt := { (s.setScore p v).flt with marked := SMap.set 0 (s.setScore p v).flt.marked p 0 } } : State).core q =
      s.core q ∧
    ({ s.setScore p v with flt := { (s.setScore p v).flt with marked := SMap.set 0 (s.setScore p v).flt.marked p 0 } } : State).regs =
      s.regs := ⟨rfl, rfl⟩

/-- The cores and register fields after a swap are those after the gating of the old core. -/
theorem State.moved_gated (s : State) (p c l : Nat) :
    (∀ q, (s.moved p c l).core q = (((s.jokerWoken p c).mapMoved p c l).gateRegion p).core q) ∧
    (s.moved p c l).regs = (((s.jokerWoken p c).mapMoved p c l).gateRegion p).regs := by
  unfold State.moved
  generalize ((s.jokerWoken p c).mapMoved p c l).gateRegion p = u
  exact ⟨fun q => (u.unmarked_frame p _ q).1, (u.unmarked_frame p _ 0).2⟩

/-- What a swap leaves of the cores: the joker with its seals poisoned, the old core gated. -/
theorem State.moved_cores {s : State} {p c l : Nat} (hq : 11 * (p / 11) + c ≠ p) :
    CoresKept s (s.moved p c l) [p, 11 * (p / 11) + c] ∧ ((s.moved p c l).core p).region = .gated ∧
    ((s.moved p c l).core (11 * (p / 11) + c)).seals = [] ∧
    ((s.moved p c l).core (11 * (p / 11) + c)).spm = (s.core (11 * (p / 11) + c)).spm := by
  have woken := s.core_jokerWoken p c
  have gated := (s.moved_gated p c l).1
  obtain ⟨-, hg, hr, -⟩ := ((s.jokerWoken p c).mapMoved p c l).gateRegion_frame p
  have hjoker := hg (11 * (p / 11) + c) (by simpa using hq)
  rw [State.core_mapMoved, woken, if_pos rfl, Core.woken_frame] at hjoker
  refine ⟨fun r hr => ?_, by rw [gated]; exact hr, ?_, ?_⟩
  · simp only [List.mem_cons, List.not_mem_nil, or_false, not_or] at hr
    rw [gated, hg r (by simpa using hr.1), State.core_mapMoved, woken, if_neg hr.2]
  · rw [gated, hjoker]
  · rw [gated, hjoker]

/-- What a swap leaves of the register fields: only those of the old core's scratchpad. -/
theorem State.moved_fields {s : State} {p c l : Nat} (hq : 11 * (p / 11) + c ≠ p) :
    FieldsKept s (s.moved p c l) [R.SPM_STATUS_POWERED.key p 0, R.SPM_STATUS_LOST.key p 0] ∧
    ((s.core p).gatedNow = false → ((s.moved p c l).rd R.SPM_STATUS_LOST p = 1 ↔
      s.on R.SPM_CTRL_RETAIN p = false ∧ (s.core p).ckptEnd = true)) ∧
    ((s.core p).gatedNow = true → (s.moved p c l).rd R.SPM_STATUS_LOST p = s.rd R.SPM_STATUS_LOST p) := by
  have hcore : ((s.jokerWoken p c).mapMoved p c l).core p = s.core p := by
    rw [State.core_mapMoved, State.core_jokerWoken, if_neg (Ne.symm hq)]
  have hregs : ((s.jokerWoken p c).mapMoved p c l).regs = s.regs := rfl
  have hend := (s.moved_gated p c l).2
  generalize (s.jokerWoken p c).mapMoved p c l = u at *
  have hretain : u.on R.SPM_CTRL_RETAIN p = s.on R.SPM_CTRL_RETAIN p := congrArg (· == 1) (State.rd_of_regs hregs R.SPM_CTRL_RETAIN p 0)
  obtain ⟨-, -, -, hk⟩ := u.gateRegion_frame p
  obtain ⟨h1, h2⟩ := u.gateRegion_lost p
  rw [hcore, hretain, ← State.rd_of_regs hend] at h1
  rw [hcore, State.rd_of_regs hregs, ← State.rd_of_regs hend] at h2
  exact ⟨((FieldsKept.of_regs (.refl s _) hregs).trans hk).of_regs hend, h1, h2⟩

/-- What a swap leaves of the records of faults: the map with the joker in the core's place, the score at all ones, the mark taken (R463). -/
theorem State.moved_flt (s : State) (p c l : Nat) : (s.moved p c l).flt = { s.flt with
    maps := s.flt.maps.set (p / 11) { s.jmap (p / 11) with
      phys := (s.jmap (p / 11)).phys.set (l % 10) c, retired := (s.jmap (p / 11)).retired ++ [p % 11], jokers := (s.jmap (p / 11)).jokers - 1 }
    health := SMap.set 0 s.flt.health p 0xFFFFFFFF
    marked := SMap.set 0 s.flt.marked p 0 } := by
  have h : (((s.jokerWoken p c).mapMoved p c l).gateRegion p).flt = ((s.jokerWoken p c).mapMoved p c l).flt := by
    rw [(State.gateRegion_frame _ _).1]
  unfold State.moved State.setScore
  dsimp only
  rw [h]
  rfl

theorem State.moved_ports (s : State) (p c l : Nat) : (s.moved p c l).ports = s.ports ∧ (s.moved p c l).routes = s.routes := by
  have h := (((s.jokerWoken p c).mapMoved p c l).gateRegion_frame p).1
  unfold State.moved State.setScore
  dsimp only
  rw [h]
  exact ⟨rfl, rfl⟩

/-- Noting a swap leaves maps, scores and marks, and counts it once. -/
theorem State.swapNoted_frame (s : State) (p c l code : Nat) : s.ledger (s.swapNoted p c l code) ∧
    (s.swapNoted p c l code).flt.maps = s.flt.maps ∧ (s.swapNoted p c l code).flt.health = s.flt.health ∧
    (s.swapNoted p c l code).flt.marked = s.flt.marked ∧ Counted s (s.swapNoted p c l code) R.FLT_CNT_SWAP 0 := by
  have hstore : (s.nvmStore 1).flt = s.flt ∧ (s.nvmStore 1).regs = s.regs := by
    unfold State.nvmStore
    rw [State.nvmAsk_frame]
    exact ⟨rfl, rfl⟩
  have hl := s.nvmStore_ledger 1
  unfold State.swapNoted
  generalize s.nvmStore 1 = u at *
  generalize ({ JrnEntry.atPart s code 4 p with core := l, info := 11 * (p / 11) + c } : JrnEntry) = e
  have hf := u.journal_flt e
  have hk := u.journal_kept e R.FLT_CNT_SWAP 0 0 (by decide)
  have hj := hl.trans (u.journal_ledger e)
  generalize u.journal e = v at *
  rw [State.bump_flt, hf, hstore.1]
  exact ⟨hj.bump (by decide), rfl, rfl, rfl, (v.bump_counted _ _).of_rd (hk.trans (State.rd_of_regs hstore.2 _ _ _)) rfl⟩

/-- What breaking tiles and forgiving returns leave. -/
theorem State.swapEnd_frame (s : State) (l : Nat) : (s.breakTiles l).returnsForgiven l =
    { s with ports := (s.breakTiles l).ports, groups := ((s.breakTiles l).returnsForgiven l).groups } := by
  have h1 := s.breakTiles_frame l
  have h2 := (s.breakTiles l).returnsForgiven_frame l
  generalize (s.breakTiles l).returnsForgiven l = t at *
  rw [h2, h1]

/-- The marked cores that wait on a die, with a mark taken, by maps that place the cores alike. -/
theorem State.markedWait_eq {s t u : State} {d p : Nat} (hm : t.flt.marked = SMap.set 0 s.flt.marked p 0)
    (hp : (t.jmap d).phys = (u.jmap d).phys) :
    t.markedWait d = (List.range 11).any (fun k => decide (11 * d + k ≠ p) && SMap.get 0 s.flt.marked (11 * d + k) != 0 &&
      (u.logicalOf (11 * d + k)).isSome) := by
  unfold State.markedWait
  rw [Bool.eq_iff_iff]
  simp only [List.any_eq_true, List.mem_range]
  refine exists_congr fun k => and_congr_right fun hk => ?_
  have hl : t.logicalOf (11 * d + k) = u.logicalOf (11 * d + k) := by
    unfold State.logicalOf
    rw [show (11 * d + k) / 11 = d by omega, hp]
  rw [hl, hm, SMap.get_set]
  by_cases h : 11 * d + k = p <;> simp [h]

/-- A part that holds a logical core has a map. -/
theorem State.hasMap_of_logicalOf {s : State} {p l : Nat} (h : s.logicalOf p = some l) : p / 11 < s.flt.maps.length := by
  by_contra hn
  simp [State.logicalOf, State.jmap, List.getD, List.getElem?_eq_none (not_lt.1 hn)] at h

/-- A joker is another part of the die than any that holds a logical core. -/
theorem State.joker_ne {s : State} {d c p l : Nat} (hj : s.jokerOf d = some c) (hl : s.logicalOf p = some l) : 11 * d + c ≠ p := by
  intro e
  have h := List.find?_some hj
  rw [e, hl] at h
  simp at h

/-- The end of a check period (R453). -/
theorem State.dueCheck_frame (s : State) : s.dueCheck = { s with flt := { s.flt with due := s.flt.due || s.on R.FLT_CFG_CHECK_EN } } := by
  unfold State.dueCheck
  cases h : s.on R.FLT_CFG_CHECK_EN <;> simp

/-- The joker maps stand among the records of faults. -/
theorem State.maps_of_flt {s t : State} (h : t.flt = s.flt) (d p : Nat) : t.jmap d = s.jmap d ∧ t.logicalOf p = s.logicalOf p := by
  unfold State.logicalOf State.jmap
  rw [h]
  exact ⟨rfl, rfl⟩

/-- The joker map and the records of faults after a swap (R463, R464). -/
theorem State.swapCore_maps {s : State} {p l : Nat} (c : Nat) (hl : s.logicalOf p = some l) : (s.swapCore p c l).jmap (p / 11) = { s.jmap (p / 11) with
      phys := (s.jmap (p / 11)).phys.set (l % 10) c
      retired := (s.jmap (p / 11)).retired ++ [p % 11]
      jokers := (s.jmap (p / 11)).jokers - 1
      waits := (s.jmap (p / 11)).waits || (decide ((s.jmap (p / 11)).jokers ≤ 1) && (List.range 11).any (fun k =>
        decide (11 * (p / 11) + k ≠ p) && SMap.get 0 s.flt.marked (11 * (p / 11) + k) != 0 &&
        ((s.swapCore p c l).logicalOf (11 * (p / 11) + k)).isSome)) } ∧
    SMap.get 0 (s.swapCore p c l).flt.health p = 0xFFFFFFFF ∧ SMap.get 0 (s.swapCore p c l).flt.marked p = 0 := by
  have hflt := s.moved_flt p c l
  obtain ⟨-, hmaps, hhealth, hmarked, -⟩ := (s.moved p c l).swapNoted_frame p c l (SMap.get 0 s.flt.marked p - 1)
  have hlen := State.hasMap_of_logicalOf hl
  rw [State.swapCore_eq]
  generalize (s.moved p c l).swapNoted p c l (SMap.get 0 s.flt.marked p - 1) = n at *
  rw [hflt] at hmaps hhealth hmarked
  have hnlen : p / 11 < n.flt.maps.length := by rw [hmaps, List.length_set]; exact hlen
  have hnmap : n.jmap (p / 11) = { s.jmap (p / 11) with
      phys := (s.jmap (p / 11)).phys.set (l % 10) c, retired := (s.jmap (p / 11)).retired ++ [p % 11],
      jokers := (s.jmap (p / 11)).jokers - 1 } := by
    conv_lhs => unfold State.jmap
    rw [hmaps]
    simp [List.getD, hlen]
  have hend := n.lastJoker_jmap hnlen
  have hwait := State.markedWait_eq (t := n) (u := n.lastJoker (p / 11)) hmarked (by rw [hend])
  have hlast : (((n.lastJoker (p / 11)).breakTiles l).returnsForgiven l).flt = (n.lastJoker (p / 11)).flt := by
    rw [State.swapEnd_frame]
  obtain ⟨-, -, hm, hh⟩ := (n.lastJoker_spares (p / 11) (p + 1)).2 p (by omega)
  refine ⟨?_, ?_, ?_⟩
  · have hjok : ((s.jmap (p / 11)).jokers - 1 == 0) = decide ((s.jmap (p / 11)).jokers ≤ 1) := by
      rw [Bool.eq_iff_iff, beq_iff_eq, decide_eq_true_eq]
      omega
    simp only [fun k => (State.maps_of_flt hlast (p / 11) (11 * (p / 11) + k)).2]
    rw [(State.maps_of_flt hlast (p / 11) 0).1, hend, hwait, hnmap]
    dsimp only
    rw [hjok]
  · rw [hlast]
    exact hh.trans ((congrArg (SMap.get 0 · p) hhealth).trans (SMap.get_set_same _ _ _ _))
  · rw [hlast]
    exact hm.trans ((congrArg (SMap.get 0 · p) hmarked).trans (SMap.get_set_same _ _ _ _))

theorem State.route_of_routes {s t : State} (h : t.routes = s.routes) (i : Nat) : t.route i = s.route i := by
  unfold State.route
  rw [h]

/-- The cores, ports and register fields after a swap are those after the move and its noting. -/
theorem State.swapCore_frame (s : State) (p c l : Nat) : (s.swapCore p c l).cores = (s.moved p c l).cores ∧
    (s.moved p c l).sameFields (s.swapCore p c l) ∧ Counted (s.moved p c l) (s.swapCore p c l) R.FLT_CNT_SWAP 0 ∧
    ∀ q < 16, ∀ x ∈ ((s.swapCore p c l).port q).elastic, x.checked = true → (s.route x.flit.route).core = l → x.broken = true := by
  obtain ⟨hn, -, -, -, hc⟩ := (s.moved p c l).swapNoted_frame p c l (SMap.get 0 s.flt.marked p - 1)
  have hroutes := (s.moved_ports p c l).2
  rw [State.swapCore_eq]
  generalize (s.moved p c l).swapNoted p c l (SMap.get 0 s.flt.marked p - 1) = n at *
  have hlast := n.lastJoker_ledger (p / 11)
  have hswaps := n.lastJoker_swaps (p / 11)
  have hxroutes : (n.lastJoker (p / 11)).routes = s.routes := by rw [(hn.trans hlast).1, ← hroutes]
  generalize n.lastJoker (p / 11) = x at *
  have hend := x.swapEnd_frame l
  have hbroken : ∀ q < 16, (x.breakTiles l).brokenAt l q := fun q hq =>
    x.breakTiles_eq l ▸ State.breakMany_breaks l q (List.range 16) x (.inl (List.mem_range.2 hq))
  generalize (x.breakTiles l).returnsForgiven l = t at *
  have hregs : t.regs = x.regs := by rw [hend]
  refine ⟨?_, ?_, ?_, ?_⟩
  · rw [hend]
    exact (hn.trans hlast).cores
  · exact (hn.trans hlast).2.trans fun f i k _ => State.rd_of_regs hregs f i k
  · exact hc.of_rd rfl ((State.rd_of_regs hregs _ _ _).trans hswaps)
  · intro q hq y hy hck hr
    have hport : t.port q = (x.breakTiles l).port q := by
      conv_lhs => unfold State.port
      rw [hend]
      rfl
    rw [hport] at hy
    have hbr : (x.breakTiles l).routes = s.routes := by rw [x.breakTiles_frame, ← hxroutes]
    refine hbroken q hq y hy hck ?_
    rw [State.route_of_routes hbr]
    exact hr

/-- Settles O29: the guards of the three commands hold, and a swap is followed from the move of the core to its end. -/
theorem groupsResumeAndJokersSwap : Obligations.GroupsResumeAndJokersSwap := by
  refine ⟨fun s hd => ⟨fun g ha hq => ?_, ?_⟩, fun s p c l hd hj hl hs hb => ?_⟩
  · refine congrArg Host.Outcome.next (if_pos ?_)
    simp only [hd, ha, Option.isNone_none, Bool.true_and, List.all_eq_true, Bool.and_eq_true, Bool.not_eq_true']
    exact hq
  · have hw := s.waitUntil_frame (s.marks.checkAt + s.checkPeriod)
    have ht := s.waitUntil_tick (s.marks.checkAt + s.checkPeriod)
    refine ⟨_, congrArg Host.Outcome.next (if_pos hd), ?_⟩
    generalize s.waitUntil (s.marks.checkAt + s.checkPeriod) = u at *
    have hon : u.on R.FLT_CFG_CHECK_EN = s.on R.FLT_CFG_CHECK_EN := by rw [hw]; rfl
    have hdue : u.flt.due = s.flt.due := by rw [hw]
    dsimp only
    rw [State.dueCheck_frame]
    refine ⟨ht, rfl, ?_, ?_, ?_, rfl⟩
    · show (u.flt.due || u.on R.FLT_CFG_CHECK_EN) = _
      rw [hdue, hon]
    · rw [hw]
    · rw [hw]
  · have hne := State.joker_ne hj hl
    obtain ⟨hmap, hhealth, hmarked⟩ := State.swapCore_maps c hl
    obtain ⟨hcores, hfields, hcount, hbroken⟩ := s.swapCore_frame p c l
    obtain ⟨hkept, hgated, hseals, hspm⟩ := State.moved_cores (l := l) hne
    obtain ⟨hregs, hlost, hstays⟩ := State.moved_fields (l := l) hne
    have hcore : ∀ q, (s.swapCore p c l).core q = (s.moved p c l).core q := fun q => by unfold State.core; rw [hcores]
    have hrd : (s.swapCore p c l).rd R.SPM_STATUS_LOST p = (s.moved p c l).rd R.SPM_STATUS_LOST p :=
      hfields _ _ _ (not_bookKey_core (.inr rfl) (by decide) (by decide) rfl)
    have hrun : exec (.jokerSwap p) s = .next (s.swapCore p c l) := by
      show Host.Outcome.next _ = _
      rw [hj, hl]
      simp [hd, hs, hb]
    refine ⟨_, hrun, hmap, fun a => ?_, ?_, ?_, fun h => ?_, fun h => ?_, hbroken, hhealth, hmarked, ?_, fun q hq => ?_⟩
    · rw [hcore]
      unfold Core.sealAt
      rw [hseals]
      rfl
    · rw [hcore, hspm]
    · rw [hcore, hgated]
    · rw [hrd, hlost h]
    · rw [hrd, hstays h]
    · refine hcount.of_rd (hregs _ _ _ fun h => ?_) rfl
      have book : bookKey (R.FLT_CNT_SWAP.key 0 0) := bookKey_hub (by decide)
      simp only [List.mem_cons, List.not_mem_nil, or_false] at h
      rcases h with h | h <;> exact not_bookKey_core (.inr rfl) (by decide) (by decide) rfl (h ▸ book)
    · rw [hcore, hkept q hq]

end Sys2Proof.Machine
end

-- ==== Abort tricks begun ====
section
/-! PROOFS. TRICK flits sent on tree ports, members stopped (R69 step 3), and the abort tricks that a report or an ABORT begins (R323). -/

namespace Sys2Proof.Machine

/-! ## Flits sent (R316) -/

theorem nodup_eraseDups (n : Nat) : ∀ l : List Nat, l.length ≤ n → l.eraseDups.Nodup := by
  induction n with
  | zero => exact fun l h => by simp [List.length_eq_zero_iff.1 (Nat.le_zero.1 h)]
  | succ n ih =>
    intro l h
    cases l with
    | nil => simp
    | cons a as =>
      rw [List.eraseDups_cons, List.nodup_cons]
      refine ⟨by simp [List.mem_eraseDups], ih _ ?_⟩
      exact (List.length_filter_le _ _).trans (Nat.le_of_succ_le_succ h)

/-- No port stands twice among the tree ports of a group. -/
theorem State.treePorts_nodup (s : State) (g : Nat) : (s.treePorts g).Nodup := nodup_eraseDups _ _ le_rfl

theorem State.childPorts_nodup (s : State) (g : Nat) : (s.childPorts g).Nodup := List.nodup_range.filter _

/-- Sending flits changes the ports alone. -/
theorem State.sendOn_frame (ports : List Nat) (t : TrickFlit) : ∀ s : State, s.sendOn ports t = { s with ports := (s.sendOn ports t).ports } := by
  induction ports with
  | nil => exact fun s => rfl
  | cons p ports ih => exact fun s => ih (s.sendTrick p t.flit)

/-- A flit sent on several ports waits last on each of them. -/
theorem State.tricks_sendOn (c : Nat) (t : TrickFlit) (ports : List Nat) : ∀ s : State, ports.Nodup →
    ((s.sendOn ports t).port c).tricks = if c ∈ ports then (s.port c).tricks ++ [t.flit] else (s.port c).tricks := by
  induction ports with
  | nil => simp [State.sendOn]
  | cons p ports ih =>
    intro s hn
    obtain ⟨hp, hn⟩ := List.nodup_cons.1 hn
    have e : s.sendOn (p :: ports) t = (s.sendTrick p t.flit).sendOn ports t := rfl
    have one : ((s.sendTrick p t.flit).port c).tricks = if c = p then (s.port c).tricks ++ [t.flit] else (s.port c).tricks := by
      unfold State.sendTrick
      rw [State.port_onPort]
      split_ifs with h
      · rw [h]
      · rfl
    rw [e, ih _ hn, one]
    by_cases h : c = p
    · subst h
      simp [hp]
    · simp [h]

/-- Holding ABORTs change the ports alone (R557). -/
theorem State.sendHolding_frame (s : State) (code origin : Nat) (except : Option Nat) :
    s.sendHolding code origin except = { s with ports := (s.sendHolding code origin except).ports } := by
  unfold State.sendHolding
  generalize List.range 64 = gs
  induction gs generalizing s with
  | nil => rfl
  | cons g gs ih =>
    rw [List.foldl_cons, ih]
    split_ifs
    · rw [State.sendOn_frame]
    · rfl

/-! ## Members stopped (R69 step 3) -/

/-- Core `p` stands at an abort trick: issue stopped, queues discarded. -/
def State.stopped (s : State) (p : Nat) : Prop :=
  (s.core p).trick = .aborting ∧ (s.core p).eng = [] ∧ (s.core p).st ≠ .running ∧ (s.core p).resumeAt = none

/-- A change of a core that leaves its seals leaves the seals of every tile. -/
theorem State.sealOf_onCore (s : State) (p q : Nat) (g : Core → Core) (hg : ∀ c, (g c).seals = c.seals) (a : TileAt) :
    (s.onCore q g).sealOf p a = s.sealOf p a := by
  unfold State.sealOf
  cases a.space with
  | spm =>
    dsimp only
    rw [State.core_onCore]
    split_ifs with h
    · subst h
      unfold Core.sealAt
      rw [hg]
    · rfl
  | hbm | ddr | host => rfl

/-- A member stopped: what it leaves of the others, and of poisoned tiles. -/
theorem State.stopMember_stops (s : State) (p : Nat) :
    s.stopMember p = { s with cores := (s.stopMember p).cores, hbm := (s.stopMember p).hbm, ddr := (s.stopMember p).ddr } ∧
    CoresKept s (s.stopMember p) [p] ∧ (s.stopMember p).stopped p ∧
    (∀ q a, s.sealOf q a = poisonSeal → (s.stopMember p).sealOf q a = poisonSeal) ∧
    ∀ a ∈ (s.core p).startedTiles, a.space ≠ .host → (s.stopMember p).sealOf p a = poisonSeal := by
  have hf := State.poisonTiles_frame (s.core p).startedTiles s p
  have hco := fun q => State.core_poisonTiles p q (s.core p).startedTiles s
  have hse := fun q a h => State.sealOf_poisonTiles_kept (s.core p).startedTiles p q a s h
  have hpo := State.sealOf_poisonTiles p (s.core p).startedTiles s
  unfold State.stopMember
  dsimp only
  generalize s.poisonTiles p (s.core p).startedTiles = u at *
  refine ⟨?_, fun q hq => ?_, ?_, fun q a h => ?_, fun a ha hs => ?_⟩
  · generalize hv : u.onCore p _ = v
    have e : v = { u with cores := v.cores } := by rw [← hv]; rfl
    rw [e, hf]
  · have hq : q ≠ p := by simpa using hq
    rw [State.core_onCore_ne _ _ hq, hco, if_neg hq]
  · unfold State.stopped
    rw [State.core_onCore_same]
    refine ⟨rfl, rfl, ?_, rfl⟩
    dsimp only
    split_ifs <;> decide
  · rw [State.sealOf_onCore]
    · exact hse q a h
    · exact fun _ => rfl
  · rw [State.sealOf_onCore]
    · exact hpo a ha hs
    · exact fun _ => rfl

/-- Several members stopped. -/
theorem State.stopMembers_stops (ps : List Nat) : ∀ s : State,
    let t := ps.foldl (fun s p => s.stopMember p) s
    t = { s with cores := t.cores, hbm := t.hbm, ddr := t.ddr } ∧ CoresKept s t ps ∧
    (∀ p, p ∈ ps ∨ s.stopped p → t.stopped p) ∧
    (∀ q a, s.sealOf q a = poisonSeal → t.sealOf q a = poisonSeal) ∧
    ∀ p ∈ ps, ∀ a ∈ (s.core p).startedTiles, a.space ≠ .host → t.sealOf p a = poisonSeal := by
  induction ps with
  | nil => exact fun s => ⟨rfl, fun _ _ => rfl, fun p h => h.resolve_left (List.not_mem_nil), fun _ _ h => h, fun p h => absurd h (List.not_mem_nil)⟩
  | cons q ps ih =>
    intro s t
    obtain ⟨hf, hk, hst, hse, hpo⟩ := s.stopMember_stops q
    obtain ⟨hf', hk', hst', hse', hpo'⟩ := ih (s.stopMember q)
    have ht : t = ps.foldl (fun s p => s.stopMember p) (s.stopMember q) := rfl
    rw [← ht] at hf' hk' hst' hse' hpo'
    clear_value t
    refine ⟨hf'.trans (by rw [hf]), fun p hp => ?_, fun p hp => ?_, fun p a h => hse' p a (hse p a h), fun p hp a ha hs => ?_⟩
    · rw [List.mem_cons, not_or] at hp
      rw [hk' p hp.2, hk p (by simpa using hp.1)]
    · refine hst' p ?_
      by_cases hq : p = q
      · exact .inr (hq ▸ hst)
      · refine hp.imp (fun h => (List.mem_cons.1 h).resolve_left hq) (fun h => ?_)
        unfold State.stopped
        rw [hk p (by simpa using hq)]
        exact h
    · by_cases hq : p = q
      · subst hq
        exact hse' p a (hpo a ha hs)
      · refine hpo' p ((List.mem_cons.1 hp).resolve_left hq) a ?_ hs
        rw [hk p (by simpa using hq)]
        exact ha

/-! ## Abort tricks begun (R323 steps 1 and 2) -/

/-- A group whose abort `a` has begun. -/
def Group.withAbort (x : Group) (a : AbortInfo) : Group :=
  { x with st := .aborting, abort := some a, kids := [], sentUp := false, serial := a.serial }

/-- The ABORT of an abort trick (R317). -/
def AbortInfo.flit (a : AbortInfo) (g : Nat) : TrickFlit := { TrickFlit.plain 4 g a.serial with code := a.code, origin := a.origin }

/-- The deal times of a group that a step of TABLE_TIME holds back are dropped (R310). -/
def State.dropHeld (s : State) (g : Nat) : State :=
  { s with timing := { s.timing with held := s.timing.held.filter (fun e => e.1 != g) } }

/-- Held deal times concern no core, group, port or seal. -/
theorem State.dropHeld_keeps (s : State) (g : Nat) : (s.dropHeld g).core = s.core ∧ (s.dropHeld g).group = s.group ∧
    (s.dropHeld g).port = s.port ∧ (s.dropHeld g).sealOf = s.sealOf := ⟨rfl, rfl, rfl, rfl⟩

theorem State.startAbort_eq {s : State} {g : Nat} {d : Dealing} (a : AbortInfo) (ports : List Nat) (hd : (s.group g).dealing = some d) :
    s.startAbort g a ports =
      ((d.parts.foldl (fun s p => s.stopMember p) (s.sendOn ports (a.flit g))).onGroup g (fun y => y.withAbort a)).dropHeld g := by
  unfold State.startAbort
  simp only [hd, Option.map_some, Option.getD_some]
  rfl

/-- An abort begun on a group with a dealing. -/
theorem State.startAbort_begun {s : State} {g : Nat} {d : Dealing} (a : AbortInfo) {ports : List Nat} (hd : (s.group g).dealing = some d)
    (hn : ports.Nodup) : AbortBegun s (s.startAbort g a ports) g d a ports := by
  have hsend := State.sendOn_frame ports (a.flit g) s
  have htricks := fun c => State.tricks_sendOn c (a.flit g) ports s hn
  rw [State.startAbort_eq a ports hd]
  generalize s.sendOn ports (a.flit g) = u at *
  obtain ⟨hf, hk, hst, -, hpo⟩ := State.stopMembers_stops d.parts u
  generalize d.parts.foldl (fun s p => s.stopMember p) u = v at *
  have hgroup : v.group g = s.group g := by
    unfold State.group
    rw [hf, hsend]
  have hport : ∀ c, v.port c = u.port c := fun c => by
    unfold State.port
    rw [hf]
  have hcore : ∀ q, u.core q = s.core q := fun q => by
    unfold State.core
    rw [hsend]
  obtain ⟨ec, eg, ep, es⟩ := (v.onGroup g (fun y => y.withAbort a)).dropHeld_keeps g
  unfold AbortBegun CoresKept
  rw [ec, eg, ep, es, State.group_onGroup_same, hgroup]
  refine ⟨rfl, rfl, hd, rfl, fun c hc => ?_, fun p hp => ?_, fun q hq => (hk q hq).trans (hcore q)⟩
  · exact (congrArg Port.tricks (hport c)).trans ((htricks c).trans (if_pos hc))
  · obtain ⟨h1, h2, h3, h4⟩ := hst p (.inl hp)
    refine ⟨h1, h2, h3, h4, fun x hx => ?_⟩
    rw [← hcore] at hx
    exact hpo p hp x hx

/-- An abort just begun goes no further while a member has not arrived. -/
theorem State.abortCheck_begun {s t : State} {g : Nat} {d : Dealing} {a : AbortInfo} {ports : List Nat} (h : AbortBegun s t g d a ports)
    (hp : d.parts ≠ []) (n : Nat) : t.abortCheck n g = t := by
  obtain ⟨-, ha, hd, -, -, hst, -⟩ := h
  obtain ⟨p, hp⟩ := List.exists_mem_of_ne_nil _ hp
  obtain ⟨ht, -⟩ := hst p hp
  have hall : d.parts.all (fun p => (t.core p).trick == .abortDone) = false := by
    rw [List.all_eq_false]
    exact ⟨p, hp, by rw [ht]; decide⟩
  cases n with
  | zero => rfl
  | succ n =>
    unfold State.abortCheck
    simp only [ha, hd, Option.map_some, Option.getD_some, hall]
    rfl

/-- The abort trick of a group with members. -/
theorem State.abortGroup_begun {s : State} {g : Nat} {d : Dealing} (a : AbortInfo) {ports : List Nat} (hd : (s.group g).dealing = some d)
    (hp : d.parts ≠ []) (hn : ports.Nodup) : AbortBegun s (s.abortGroup g a ports) g d a ports := by
  have h := State.startAbort_begun a hd hn
  unfold State.abortGroup
  rwa [State.abortCheck_begun h hp]

/-- An abort trick begun on a state that differs in what the abort does not look at. -/
theorem AbortBegun.of_like {s u t : State} {g : Nat} {d : Dealing} {a : AbortInfo} {ports : List Nat} (h : AbortBegun u t g d a ports)
    (hp : u.ports = s.ports) (hc : CoresKept s u d.parts) (hs : ∀ q, (u.core q).startedTiles = (s.core q).startedTiles) :
    AbortBegun s t g d a ports := by
  obtain ⟨h1, h2, h3, h4, h5, h6, h7⟩ := h
  have hport : ∀ c, u.port c = s.port c := fun c => by unfold State.port; rw [hp]
  refine ⟨h1, h2, h3, h4, fun c hc => by rw [h5 c hc, hport], fun p hp => ?_, fun q hq => (h7 q hq).trans (hc q hq)⟩
  obtain ⟨g1, g2, g3, g4, g5⟩ := h6 p hp
  exact ⟨g1, g2, g3, g4, fun x hx => g5 x (by rw [hs]; exact hx)⟩

/-! ## TRICK flits taken (R317) -/

/-- The oldest TRICK flit of a port is handled by the row of its kind. -/
theorem State.takeTrick_takes {s : State} {port kind : Nat} {f : TrickFlit} (act : TrickFlit → State → State) (hd : s.dealerUp = true)
    (hf : s.trickAt port = some f) (hk : f.kind = kind) : s.takeTrick port kind act = act f (s.trickTaken port f) := by
  obtain ⟨⟨q, f⟩, he, rfl⟩ := Option.map_eq_some_iff.1 hf
  have hq : q = port := by simpa using List.find?_some he
  subst hq
  unfold State.takeTrick State.trickTaken
  simp only [hd, he, Bool.not_true, Bool.false_eq_true, if_false]
  exact if_pos hk

/-! ## Holding ABORTs (R450, R557) -/

theorem State.sendHolding_keeps (s : State) (code origin : Nat) (except : Option Nat) :
    (s.sendHolding code origin except).cores = s.cores ∧ (s.sendHolding code origin except).groups = s.groups := by
  rw [State.sendHolding_frame]
  exact ⟨rfl, rfl⟩

/-- An ABORT with CODE ROUND_LIMIT stops the plan; another one holds the image. -/
theorem State.onHolding_holds (s : State) (port : Nat) (f : TrickFlit) :
    (s.onHolding port f).cores = s.cores ∧ (s.onHolding port f).groups = s.groups ∧
    (f.code = 0x0C05 → (s.onHolding port f).rd R.FLT_STATUS_PLAN_STOPPED = 1) ∧
    (f.code ≠ 0x0C05 → (s.onHolding port f).partner.held = true) := by
  obtain ⟨hc, hg⟩ := s.sendHolding_keeps f.code f.origin (some port)
  have noted := fun e => (s.sendHolding f.code f.origin (some port)).journal_ledger e
  unfold State.onHolding
  dsimp only
  generalize s.sendHolding f.code f.origin (some port) = u at *
  split_ifs with h1 h2 h2
  · exact ⟨rfl, rfl, fun _ => by simpa [State.on] using h2, fun h => absurd h1 h⟩
  · exact ⟨(noted _).cores.trans hc, (noted _).groups.trans hg, fun _ => State.rd_wr_same .., fun h => absurd h1 h⟩
  · exact ⟨rfl, rfl, fun h => absurd h h1, fun _ => h2⟩
  · exact ⟨(noted _).cores.trans hc, (noted _).groups.trans hg, fun h => absurd h h1, fun _ => rfl⟩

/-! ## Reports and ABORTs (R69 step 3, R323) -/

section
variable {s : State}

/-- The report of a faulted core begins an abort trick of its group. -/
theorem State.abortTrick_begins {p : Nat} {r : FaultRep} {m : Member} {d : Dealing} (hd : s.dealerUp = true)
    (hr : (s.core p).report = some r) (hm : (s.core p).member = some m) (hh : m.hand ≠ checkHand)
    (hg : (s.group m.group).dealing = some d) (hp : p ∈ d.parts) (ha : (s.group m.group).abort = none) :
    AbortBegun s (s.abortTrick p) m.group d ⟨m.serial, r.code, s.chipId, true, some p, r.engine, r.pc, false⟩ (s.treePorts m.group) := by
  have e : s.abortTrick p = (s.onCore p (fun c => { c with report := none })).abortGroup m.group
      ⟨m.serial, r.code, s.chipId, true, some p, r.engine, r.pc, false⟩ (s.treePorts m.group) := by
    unfold State.abortTrick
    simp only [hr, hm, hd, Bool.not_true, Bool.false_eq_true, if_false, if_neg hh]
    have hn : ¬ (s.group m.group).abort.isSome = true := by simp [ha]
    exact if_neg hn
  rw [e]
  refine AbortBegun.of_like (State.abortGroup_begun _ hg (List.ne_nil_of_mem hp) (s.treePorts_nodup _)) rfl (fun q hq => ?_) (fun q => ?_)
  · exact State.core_onCore_ne _ _ (fun h => hq (h ▸ hp))
  · rw [State.core_onCore]
    split_ifs with h
    · rw [h]
      rfl
    · rfl

/-- A report of a group already aborting is taken alone. -/
theorem State.abortTrick_aborting {p : Nat} {r : FaultRep} {m : Member} (hd : s.dealerUp = true) (hr : (s.core p).report = some r)
    (hm : (s.core p).member = some m) (hh : m.hand ≠ checkHand) (ha : (s.group m.group).abort ≠ none) :
    s.abortTrick p = s.onCore p (fun c => { c with report := none }) := by
  unfold State.abortTrick
  simp only [hr, hm, hd, Bool.not_true, Bool.false_eq_true, if_false, if_neg hh]
  exact if_pos (Option.isSome_iff_ne_none.2 ha)

variable {port : Nat} {f : TrickFlit}

/-- An ABORT for the dealing in progress begins the abort trick with the other tree ports. -/
theorem State.onAbort_begins {d : Dealing} (ht : port ∈ s.treePorts f.group) (h0 : f.serial ≠ 0) (h1 : f.code ≠ 0x0801)
    (h2 : f.code ≠ 0x0C05) (hs : f.serial = (s.group f.group).serial) (ha : (s.group f.group).abort = none)
    (hd : (s.group f.group).dealing = some d) (hh : d.hand ≠ checkHand) (hp : d.parts ≠ []) :
    AbortBegun s (s.onAbort port f) f.group d ⟨f.serial, f.code, f.origin, false, none, 0, 0xFFFFFFFF, false⟩
      ((s.treePorts f.group).filter (fun q => q != port)) := by
  have hb : (s.group f.group).busy = true := by
    unfold Group.busy
    simp [hd, hh]
  have e : s.onAbort port f = s.abortGroup f.group ⟨f.serial, f.code, f.origin, false, none, 0, 0xFFFFFFFF, false⟩
      ((s.treePorts f.group).filter (fun q => q != port)) := by
    unfold State.onAbort
    simp [ht, h0, h1, h2, ha, hb, ← hs]
  rw [e]
  exact State.abortGroup_begun _ hd hp ((s.treePorts_nodup _).filter _)

/-- An ABORT that holds the plan or the image (R450, R557). -/
theorem State.onAbort_holds (ht : port ∈ s.treePorts f.group) (h0 : f.serial ≠ 0)
    (h : f.code = 0x0C05 ∨ f.code = 0x0801 ∧ ((s.group f.group).busy = false ∨ s.dealtAt port f.group = false)) :
    s.onAbort port f = s.onHolding port f := by
  unfold State.onAbort
  rcases h with h | ⟨h, hb⟩
  · simp [ht, h0, h]
  · have hn : ¬ ((s.group f.group).serial = f.serial ∧ (s.group f.group).busy = true ∧ (s.group f.group).abort = none ∧
        s.dealtAt port f.group = true) := fun ⟨_, h1, _, h2⟩ => by
      rcases hb with hb | hb
      · rw [hb] at h1
        cases h1
      · rw [hb] at h2
        cases h2
    simp [ht, h0, h, hn]

end

end Sys2Proof.Machine
end

-- ==== Abort tricks done ====
section
/-! PROOFS. A group returned to its last checkpoint trick (R69 step 5, R448) and the end of an abort trick (R323 step 5). -/

namespace Sys2Proof.Machine

/-! ## Groups returned -/

/-- The journal entry of an abort is bookkeeping. -/
theorem State.abortJournal_ledger (s : State) (g : Nat) (a : AbortInfo) : s.ledger (s.abortJournal g a) := by
  unfold State.abortJournal
  exact .ite (.refl s) (.ite ((s.journal_ledger _).trans (State.addScore_ledger _ _ _)) (s.journal_ledger _))

/-- ROUND_LIMIT stops the plan and touches no core or group. -/
theorem State.roundLimit_frame (s : State) (g : Nat) : (s.roundLimit g).cores = s.cores ∧ (s.roundLimit g).groups = s.groups ∧
    (s.roundLimit g).done = s.done ∧ (s.roundLimit g).rd R.TRK_CNT_ABORT = s.rd R.TRK_CNT_ABORT := by
  have h := (s.raiseEvt_flt_books 4 0x0C05).ledger.trans
    ((s.raiseEvt .flt 0 4 0x0C05).journal_ledger { JrnEntry.blank s 0x0C05 5 with group := g, info := (s.group g).returns })
  unfold State.roundLimit
  generalize (s.raiseEvt .flt 0 4 0x0C05).journal { JrnEntry.blank s 0x0C05 5 with group := g, info := (s.group g).returns } = u at *
  have hr := (State.rd_wr_ne u R.FLT_STATUS_PLAN_STOPPED R.TRK_CNT_ABORT 1 0 0 0 0 (by decide)).trans
    (h.2 _ _ _ (not_bookKey_of_page (by decide)))
  have hw : ∀ w : State, (w.sendHolding 0x0C05 u.chipId none).cores = w.cores ∧ (w.sendHolding 0x0C05 u.chipId none).groups = w.groups ∧
      (w.sendHolding 0x0C05 u.chipId none).done = w.done ∧
      (w.sendHolding 0x0C05 u.chipId none).rd R.TRK_CNT_ABORT = w.rd R.TRK_CNT_ABORT := fun w => by
    rw [State.sendHolding_frame]
    generalize (w.sendHolding 0x0C05 u.chipId none).ports = x
    exact ⟨rfl, rfl, rfl, rfl⟩
  obtain ⟨h1, h2, h3, h4⟩ := hw (u.wr R.FLT_STATUS_PLAN_STOPPED 1)
  exact ⟨h1.trans h.cores, h2.trans h.groups, h3.trans h.done, h4.trans hr⟩

/-- The returns of a group that count toward RETRY, after a return for a code (R448). -/
def Group.returned (x : Group) (code : Nat) : Nat := if countsReturn code then x.returns + 1 else x.returns

theorem Group.returned_eq (x : Group) (code : Nat) :
    x.returned code = x.returns + (if code = 0x0701 ∨ code = 0x0B01 then 0 else 1) := by
  unfold Group.returned countsReturn
  by_cases h1 : code = 0x0701 <;> by_cases h2 : code = 0x0B01 <;> simp [h1, h2]

/-- A group back at its last checkpoint trick. -/
def Group.back (x : Group) (code : Nat) : Group :=
  { x with st := .idle, dealing := none, kids := [], sentUp := false, abort := none, round := [], returns := x.returned code, asked := none,
           owed := true, need := x.kidsNeed }

/-- A return of a group: its hands' counts are those of the checkpoint, and no core changes. -/
theorem State.returnGroup_returns (s : State) (g code : Nat) : (s.returnGroup g code).cores = s.cores ∧
    (s.returnGroup g code).group g = (s.group g).back code ∧
    (s.returnGroup g code).done = (s.groupHands g).foldl (fun m h => SMap.set 0 m h (SMap.get 0 (s.group g).ckpt h)) s.done ∧
    (s.returnGroup g code).rd R.TRK_CNT_ABORT = s.rd R.TRK_CNT_ABORT := by
  unfold State.returnGroup
  dsimp only
  generalize hu : State.onGroup _ g _ = u
  have hc : u.cores = s.cores := by rw [← hu]; rfl
  have hg : u.group g = (s.group g).back code := by rw [← hu, State.group_onGroup_same]; rfl
  have hd : u.done = (s.groupHands g).foldl (fun m h => SMap.set 0 m h (SMap.get 0 (s.group g).ckpt h)) s.done := by rw [← hu]; rfl
  have hr : u.rd R.TRK_CNT_ABORT = s.rd R.TRK_CNT_ABORT := by rw [← hu]; rfl
  clear hu
  have hb := (((u.returnReqs_books (((s.group g).dealing.map (·.reqs)).getD [])).bump (f := R.FLT_CNT_RETURN) (by decide)).trans
    (State.freeSlots_books _ g)).trans ((State.autos_books _).trans (State.settleSeats_books _))
  generalize State.settleSeats _ = v at *
  have hvg : ∀ w : State, w.groups = v.groups → w.group g = (s.group g).back code := fun w hw => by
    rw [← hg]
    unfold State.group
    rw [hw, hb.groups]
  have hv := hb.2 R.TRK_CNT_ABORT 0 0 (not_bookKey_of_page (by decide))
  obtain ⟨h1, h2, h3, h4⟩ := v.roundLimit_frame g
  generalize (if countsReturn code then (s.group g).returns + 1 else (s.group g).returns) = n
  split_ifs
  · exact ⟨h1.trans (hb.cores.trans hc), hvg _ h2, h3.trans (hb.done.trans hd), h4.trans (hv.trans hr)⟩
  · exact ⟨hb.cores.trans hc, hvg _ rfl, hb.done.trans hd, hv.trans hr⟩

/-- A map with several keys written by a function of them. -/
theorem SMap.get_setMany {α : Type} [DecidableEq α] (d : α) (v : Nat → α) (k : Nat) (ks : List Nat) : ∀ m : SMap α,
    SMap.get d (ks.foldl (fun m h => SMap.set d m h (v h)) m) k = if k ∈ ks then v k else SMap.get d m k := by
  induction ks with
  | nil => exact fun m => rfl
  | cons a ks ih =>
    intro m
    rw [List.foldl_cons, ih, SMap.get_set]
    by_cases h : k ∈ ks
    · simp [h]
    · by_cases h' : k = a
      · simp [h']
      · simp [h, h']

/-! ## The groups drawn in (R69 step 5) -/

/-- No group is drawn in when none of the others has dealt since its checkpoint. -/
theorem State.drawn_alone {s : State} {g : Nat} (h : ∀ o, o ≠ g → (s.group o).sinceCkpt = []) (n : Nat) : s.drawn n [g] = [g] := by
  cases n with
  | zero => rfl
  | succ n =>
    unfold State.drawn
    refine if_pos (List.filter_eq_nil_iff.2 (fun o _ => ?_))
    by_cases ho : o = g
    · simp [ho]
    · simp [h o ho]

/-- A group that returns alone waits for no other. -/
theorem State.returnAll_alone {s : State} {g : Nat} (h : ∀ o, o ≠ g → (s.group o).sinceCkpt = []) (again : Nat → State → State) (a : AbortInfo) :
    s.returnAll again g a = (s.returnGroup g a.code).onGroup g (fun y => { y with pull := y.pull ++ [] }) := by
  unfold State.returnAll
  rw [State.drawn_alone h]
  have hn : [g].filter (fun o => o != g && (s.group o).abort.isNone) = [] := by simp
  dsimp only
  rw [hn]
  rfl

/-! ## Members freed -/

/-- Members freed: the cores alone change. -/
theorem State.freeMembers_frame (ckpt : Bool) (ps : List Nat) : ∀ s : State,
    ps.foldl (fun s p => s.onCore p (fun c => c.freed s.tick ckpt)) s =
      { s with cores := (ps.foldl (fun s p => s.onCore p (fun c => c.freed s.tick ckpt)) s).cores } := by
  induction ps with
  | nil => exact fun s => rfl
  | cons p ps ih => exact fun s => ih (s.onCore p (fun c => c.freed s.tick ckpt))

/-- Members freed hold no dealing and are idle; the others stay. -/
theorem State.freeMembers_cores (ckpt : Bool) (q : Nat) (ps : List Nat) : ∀ s : State,
    let t := ps.foldl (fun s p => s.onCore p (fun c => c.freed s.tick ckpt)) s
    ((q ∈ ps ∨ (s.core q).member = none ∧ (s.core q).st = .idle) → (t.core q).member = none ∧ (t.core q).st = .idle) ∧
    (q ∉ ps → t.core q = s.core q) := by
  induction ps with
  | nil => exact fun s => ⟨fun h => h.resolve_left List.not_mem_nil, fun _ => rfl⟩
  | cons p ps ih =>
    intro s
    obtain ⟨h1, h2⟩ := ih (s.onCore p (fun c => c.freed s.tick ckpt))
    refine ⟨fun h => h1 ?_, fun h => ?_⟩
    · by_cases hq : q = p
      · subst hq
        rw [State.core_onCore_same]
        exact .inr ⟨rfl, rfl⟩
      · rw [State.core_onCore_ne _ _ hq]
        exact h.imp (fun h => (List.mem_cons.1 h).resolve_left hq) id
    · rw [List.mem_cons, not_or] at h
      exact (h2 h.2).trans (State.core_onCore_ne _ _ h.1)

/-! ## The end of an abort trick (R69 steps 4 and 5) -/

section
variable {s : State} {g : Nat} {d : Dealing}

/-- An abort trick ends on a package whose image is loaded, and the group returns alone. -/
theorem State.abortComplete_returns (again : Nat → State → State) (a : AbortInfo) (hi : s.rd R.PLN_IMAGE_STATE = 1)
    (hd : (s.group g).dealing = some d) (ho : ∀ o, o ≠ g → (s.group o).sinceCkpt = []) :
    (s.abortComplete again g a).group g = { (s.group g).back a.code with pull := (s.group g).pull ++ [] } ∧
    (s.abortComplete again g a).done = (s.groupHands g).foldl (fun m h => SMap.set 0 m h (SMap.get 0 (s.group g).ckpt h)) s.done ∧
    (∀ p ∈ d.parts, ((s.abortComplete again g a).core p).member = none ∧ ((s.abortComplete again g a).core p).st = .idle) ∧
    CoresKept s (s.abortComplete again g a) d.parts ∧ Counted s (s.abortComplete again g a) R.TRK_CNT_ABORT 0 := by
  have hj := (s.bump R.TRK_CNT_ABORT).abortJournal_ledger g a
  unfold State.abortComplete
  simp only [hd, Option.map_some, Option.getD_some]
  generalize (s.bump R.TRK_CNT_ABORT).abortJournal g a = u at *
  have hf := State.freeMembers_frame false d.parts u
  have hc := fun q => State.freeMembers_cores false q d.parts u
  generalize d.parts.foldl (fun s p => s.onCore p (fun c => c.freed s.tick false)) u = v at *
  have hv : v.rd R.PLN_IMAGE_STATE = 1 := by
    rw [hf]
    refine (hj.2 _ _ _ (not_bookKey_of_page (by decide))).trans (Eq.trans ?_ hi)
    exact State.rd_wr_ne _ _ _ _ _ _ _ _ (by decide)
  rw [if_neg (not_not.2 hv)]
  have hgr : v.groups = s.groups := by
    rw [hf]
    exact hj.groups
  have hgroup : ∀ o, v.group o = s.group o := fun o => by
    unfold State.group
    rw [hgr]
  have hcore : ∀ q, u.core q = s.core q := fun q => by
    unfold State.core
    rw [hj.cores]
    rfl
  have hhands : v.groupHands g = s.groupHands g := by
    unfold State.groupHands State.handAt State.hands
    rw [hf]
    dsimp only
    rw [hj.image]
    rfl
  have hdone : v.done = s.done := by
    rw [hf]
    exact hj.done
  rw [State.returnAll_alone (fun o h => by rw [hgroup]; exact ho o h)]
  obtain ⟨h1, h2, h3, h4⟩ := v.returnGroup_returns g a.code
  generalize v.returnGroup g a.code = w at *
  have hw : ∀ q, (w.onGroup g (fun y => { y with pull := y.pull ++ [] })).core q = v.core q := fun q => by
    unfold State.core
    rw [← h1]
    rfl
  refine ⟨?_, ?_, fun p hp => ?_, fun q hq => ?_, ?_⟩
  · rw [State.group_onGroup_same, h2, hgroup]
    rfl
  · refine h3.trans ?_
    rw [hhands, hgroup, hdone]
  · rw [hw]
    exact (hc p).1 (.inl hp)
  · rw [hw, (hc q).2 hq, hcore]
  · refine (s.bump_counted R.TRK_CNT_ABORT 0).of_rd rfl (h4.trans ?_)
    rw [hf]
    exact hj.2 _ _ _ (not_bookKey_of_page (by decide))

/-- ABORT_ARRIVE of a child is noted (R323 step 3). -/
theorem State.onAbortArrive_notes {port : Nat} {f : TrickFlit} {a : AbortInfo} (ha : (s.group f.group).abort = some a)
    (hc : port ∈ s.childPorts f.group) (hs : a.serial = f.serial) (ht : f.trick = 0) :
    s.onAbortArrive port f = (s.onGroup f.group (fun x => x.arrivedFrom port f.need)).abortCheck 64 f.group := by
  unfold State.onAbortArrive
  exact if_pos ⟨by simpa using hc, ht, by simp [ha, hs]⟩

/-- ABORT_DONE of the parent ends the abort (R323 step 5). -/
theorem State.onAbortDone_ends {port : Nat} {f : TrickFlit} {a : AbortInfo} (ha : (s.group f.group).abort = some a)
    (hp : s.parentPort f.group = some port) (hs : a.serial = f.serial) (ht : f.trick = 0) (hu : (s.group f.group).sentUp = true) :
    s.onAbortDone port f = (s.sendOn (s.childPorts f.group) (TrickFlit.plain 6 f.group f.serial)).abortComplete
      (fun o u => u.abortCheck 64 o) f.group a := by
  unfold State.onAbortDone
  simp only [ha]
  exact if_pos ⟨hp, hs, ht, hu⟩

end

/-- Settles O27: what abortTrick, onAbort, onAbortArrive and onAbortDone do. -/
theorem abortsStopAndReturn : Obligations.AbortsStopAndReturn := by
  unfold Obligations.AbortsStopAndReturn
  refine ⟨fun s hd => ⟨fun p r m d hr hm hh hg hp => ⟨fun ha => ?_, fun ha => ?_⟩, fun port f hf hk ht h0 =>
    ⟨fun d h1 h2 hs ha hg hh hp => ?_, fun hc => ?_, fun hc hb => ?_⟩⟩, fun s port f a hd hf h0 ha hs =>
    ⟨fun hk hc => ?_, fun d hk hp hu hi hg hh ho => ?_⟩⟩
  · exact ⟨_, rfl, State.abortTrick_begins hd hr hm hh hg hp ha⟩
  · exact congrArg Host.Outcome.next (State.abortTrick_aborting hd hr hm hh ha)
  · refine ⟨_, congrArg Host.Outcome.next (State.takeTrick_takes _ hd hf hk), ?_⟩
    exact State.onAbort_begins (s := s.trickTaken port f) ht h0 h1 h2 hs ha hg hh hp
  · refine ⟨_, congrArg Host.Outcome.next (State.takeTrick_takes _ hd hf hk), ?_⟩
    rw [State.onAbort_holds (s := s.trickTaken port f) ht h0 (.inl hc)]
    obtain ⟨h1, h2, h3, -⟩ := (s.trickTaken port f).onHolding_holds port f
    exact ⟨h3 hc, h1, h2⟩
  · refine ⟨_, congrArg Host.Outcome.next (State.takeTrick_takes _ hd hf hk), ?_⟩
    rw [State.onAbort_holds (s := s.trickTaken port f) ht h0 (.inr ⟨hc, hb⟩)]
    obtain ⟨h1, h2, -, h4⟩ := (s.trickTaken port f).onHolding_holds port f
    exact ⟨h4 (by rw [hc]; decide), h1, h2⟩
  · refine ⟨_, congrArg Host.Outcome.next ((State.takeTrick_takes _ hd hf hk).trans ?_), rfl⟩
    exact State.onAbortArrive_notes (s := s.trickTaken port f) ha hc hs h0
  · have hend := State.onAbortDone_ends (s := s.trickTaken port f) ha hp hs h0 hu
    have hframe := (s.trickTaken port f).sendOn_frame ((s.trickTaken port f).childPorts f.group) (TrickFlit.plain 6 f.group f.serial)
    generalize (s.trickTaken port f).sendOn ((s.trickTaken port f).childPorts f.group) (TrickFlit.plain 6 f.group f.serial) = u at *
    have hgroup : ∀ o, u.group o = s.group o := fun o => by rw [hframe]; rfl
    have hcore : ∀ q, u.core q = s.core q := fun q => by rw [hframe]; rfl
    have hrd : ∀ k i j, u.rd k i j = s.rd k i j := fun k i j => by rw [hframe]; rfl
    have hhands : u.groupHands f.group = s.groupHands f.group := by rw [hframe]; rfl
    have hdone : u.done = s.done := by rw [hframe]; rfl
    obtain ⟨h1, h2, h3, h4, h5⟩ := State.abortComplete_returns (fun o u => u.abortCheck 64 o) a ((hrd _ _ _).trans hi)
      ((congrArg Group.dealing (hgroup _)).trans hg) (fun o h => by rw [hgroup]; exact ho o h)
    rw [hgroup] at h1
    rw [hhands, hgroup, hdone] at h2
    refine ⟨_, congrArg Host.Outcome.next ((State.takeTrick_takes _ hd hf hk).trans hend), ?_⟩
    generalize u.abortComplete _ f.group a = t at *
    have hcount : ∀ h, t.count h = if h ∈ s.groupHands f.group then SMap.get 0 (s.group f.group).ckpt h else s.count h := fun h => by
      unfold State.count
      rw [h2, SMap.get_setMany]
    refine ⟨by rw [h1]; rfl, by rw [h1]; rfl, by rw [h1]; rfl, by rw [h1]; rfl, ?_, fun h hh => (hcount h).trans (if_pos hh),
      fun h hh => (hcount h).trans (if_neg hh), h3, fun q hq => (h4 q hq).trans (hcore q), h5.of_rd (hrd _ _ _) rfl⟩
    rw [h1]
    exact Group.returned_eq _ _

end Sys2Proof.Machine
end

-- ==== Plans loaded and unloaded ====
section
/-! PROOFS. The trees of the groups (R316), the status of a load (R107), reads of the image (R217), rejected and accepted images (R33, R338 to
R340, R494) and the end of an unload (R495). -/

namespace Sys2Proof.Machine

/-! ## Trees kept (R316) -/

/-- The trees of the groups are as they were. -/
def State.sameTrees (s t : State) : Prop := ∀ f ∈ [R.TRK_TREE_PARENT_VALID, R.TRK_TREE_PARENT, R.TRK_TREE_CHILDREN], ∀ g < 64, t.rd f 0 g = s.rd f 0 g

/-- The tree fields lie on the page of the trick logic. -/
theorem tree_page {f : Fld} (hf : f ∈ [R.TRK_TREE_PARENT_VALID, R.TRK_TREE_PARENT, R.TRK_TREE_CHILDREN]) {g : Nat} (hg : g < 64) :
    f.key 0 g / 32 % 0x800000 / 0x1000 = 0xD := by
  obtain ⟨hb, ho, hs, hl⟩ : f.blk = .trk ∧ f.off = 0x100 ∧ f.stride = 4 ∧ f.lsb < 32 := by
    revert f
    decide
  unfold Fld.key
  rw [hb, hs, ho]
  simp only [Block.page]
  omega

theorem State.sameFields.trees {s t : State} (h : s.sameFields t) : s.sameTrees t :=
  fun f hf g hg => h f 0 g (not_bookKey_of_page (by rw [tree_page hf hg]; decide))

/-- Fields of other pages are not those of the trees. -/
theorem FieldsKept.trees {s t : State} {ks : List Nat} (h : FieldsKept s t ks) (hk : ∀ k ∈ ks, k / 32 % 0x800000 / 0x1000 ≠ 0xD) :
    s.sameTrees t := fun _ hf g hg => h _ 0 g (fun hm => hk _ hm (tree_page hf hg))

namespace State.sameTrees

variable {s t : State}

theorem childPorts (h : s.sameTrees t) {g : Nat} (hg : g < 64) : t.childPorts g = s.childPorts g := by
  unfold State.childPorts
  rw [h _ (by simp) g hg]

theorem parentPort (h : s.sameTrees t) {g : Nat} (hg : g < 64) : t.parentPort g = s.parentPort g := by
  unfold State.parentPort State.on
  rw [h _ (by simp) g hg, h _ (by simp) g hg]

theorem treePorts (h : s.sameTrees t) {g : Nat} (hg : g < 64) : t.treePorts g = s.treePorts g := by
  unfold State.treePorts
  rw [h.parentPort hg, h.childPorts hg]

theorem multi (h : s.sameTrees t) {g : Nat} (hg : g < 64) : t.multi g = s.multi g := by
  unfold State.multi State.on
  rw [h _ (by simp) g hg, h _ (by simp) g hg]

theorem allTreePorts (h : s.sameTrees t) : t.allTreePorts = s.allTreePorts := by
  unfold State.allTreePorts
  rw [List.flatMap_congr (fun g hg => h.treePorts (List.mem_range.1 hg))]

theorem portGroup (h : s.sameTrees t) (p : Nat) : t.portGroup p = s.portGroup p := by
  unfold State.portGroup
  have e : (List.range 64).find? (fun g => (t.treePorts g).contains p) = (List.range 64).find? (fun g => (s.treePorts g).contains p) :=
    List.find?_congr (fun g hg => by rw [h.treePorts (List.mem_range.1 hg)])
  rw [e]

end State.sameTrees

/-! ## Withdrawals sent (R339) -/

/-- The ABORT of a withdrawal on a port. -/
def State.withdrawFlit (s : State) (code origin p : Nat) : TrickFlit :=
  { TrickFlit.plain 4 (s.portGroup p) 0 with code := code, origin := origin }

theorem State.sendWithdraw_eq (s : State) (code origin : Nat) :
    s.sendWithdraw code origin none = s.allTreePorts.foldl (fun s p => s.sendOn [p] (s.withdrawFlit code origin p)) s := by
  have all : s.allTreePorts.filter (fun p => some p != none) = s.allTreePorts := List.filter_eq_self.2 (fun _ _ => rfl)
  unfold State.sendWithdraw
  rw [all]
  rfl

/-- Withdrawals change the ports alone. -/
theorem State.withdrawals_frame (code origin : Nat) (ports : List Nat) : ∀ s : State,
    ports.foldl (fun s p => s.sendOn [p] (s.withdrawFlit code origin p)) s =
      { s with ports := (ports.foldl (fun s p => s.sendOn [p] (s.withdrawFlit code origin p)) s).ports } := by
  induction ports with
  | nil => exact fun s => rfl
  | cons p ports ih => exact fun s => ih (s.sendOn [p] (s.withdrawFlit code origin p))

/-- One ABORT waits last on each port. -/
theorem State.withdrawals_tricks (code origin q : Nat) (ports : List Nat) : ∀ s : State, ports.Nodup →
    ((ports.foldl (fun s p => s.sendOn [p] (s.withdrawFlit code origin p)) s).port q).tricks =
      (s.port q).tricks ++ if q ∈ ports then [(s.withdrawFlit code origin q).flit] else [] := by
  induction ports with
  | nil => exact fun s _ => by simp
  | cons p ports ih =>
    intro s hn
    obtain ⟨hp, hn⟩ := List.nodup_cons.1 hn
    have hf : (s.sendOn [p] (s.withdrawFlit code origin p)).withdrawFlit code origin q = s.withdrawFlit code origin q := rfl
    rw [List.foldl_cons, ih _ hn, hf, State.tricks_sendOn _ _ _ _ (List.nodup_singleton p)]
    by_cases h : q = p
    · subst h
      simp [hp]
    · simp [h]

/-! ## The status of a load (R107) -/

/-- The fields of PLN_LOAD_STATUS, OFFSET and WHERE. -/
def loadKeys : List Nat :=
  [R.PLN_LOAD_STATUS_STATE.key 0 0, R.PLN_LOAD_STATUS_REASON.key 0 0, R.PLN_LOAD_STATUS_CODE.key 0 0, R.PLN_LOAD_OFFSET_LO.key 0 0,
   R.PLN_LOAD_OFFSET_HI.key 0 0, R.PLN_LOAD_WHERE_HAND.key 0 0, R.PLN_LOAD_WHERE_CORE.key 0 0]

theorem State.loadStatus_kept (s : State) (st : Nat) (r : Reject) : s.onlyRegs (s.loadStatus st r) ∧ FieldsKept s (s.loadStatus st r) loadKeys := by
  unfold State.loadStatus State.wrPair
  constructor
  · iterate 7 refine State.onlyRegs.wr ?_ _ _ _ _
    exact State.onlyRegs.refl s
  · iterate 7 refine FieldsKept.wr ?_ _ (by decide)
    exact FieldsKept.refl s _

theorem State.loadStatus_holds (s : State) (st : Nat) (r : Reject) :
    (s.loadStatus st r).rd R.PLN_LOAD_STATUS_STATE = st % 4 ∧ (s.loadStatus st r).holds R.PLN_LOAD_STATUS_REASON r.reason ∧
    (s.loadStatus st r).holds R.PLN_LOAD_WHERE_HAND r.hand ∧ (s.loadStatus st r).holds R.PLN_LOAD_WHERE_CORE r.core ∧
    (s.loadStatus st r).holdsPair R.PLN_LOAD_OFFSET_LO R.PLN_LOAD_OFFSET_HI r.offset := by
  unfold State.loadStatus State.wrPair State.holds State.holdsPair
  refine ⟨?_, ?_, ?_, ?_, ?_, ?_⟩ <;> simp (disch := decide) only [State.rd_wr_ne, State.rd_wr_same]
  · rfl
  · exact Nat.mod_mod _ _
  · rfl

/-! ## Reads of the image (R217, R218, R232) -/

/-- The image read where its stack is trained. -/
def State.imageRead (s : State) (a : Nat) : State := if s.on R.HBM_STATUS_TRAINED (stackOf a) then s.readImage a else s

theorem State.imageRead_books (s : State) (a : Nat) : s.books (s.imageRead a) := .ite (s.dealerRead_books _ _) (.refl s)

/-- Tiles poisoned keep their bytes. -/
theorem State.hbmPoisoned_bytes (ts : List Nat) (s : State) :
    (ts.foldl (fun s t => { s with hbm := s.hbm.setSeal t (sealSetPoison (s.hbm.sealAt t)) }) s).hbm.bytes = s.hbm.bytes :=
  foldl_kept (fun s : State => s.hbm.bytes) (by intros; rfl) ts s

theorem State.eccRecord_hbm (s : State) (i word tile : Nat) (scrub : Bool) : (s.eccRecord .hbm i word tile scrub).hbm = s.hbm := by
  unfold State.eccRecord State.record1
  rw [if_pos rfl]
  dsimp only
  split_ifs
  · rfl
  · rfl

theorem State.raiseEvt_hbm (s : State) (b : Block) (i bit code : Nat) : (s.raiseEvt b i bit code).hbm = s.hbm := by
  rw [State.raiseEvt_frame]

theorem State.wordErrors_bytes (s : State) (lo hi : Nat) (es : SMap MemErr) : (s.wordErrors .hbm lo hi es).1.hbm.bytes = s.hbm.bytes := by
  unfold State.wordErrors
  simp only [if_true]
  split
  · rfl
  · rw [State.hbmPoisoned_bytes, State.raiseEvt_hbm, State.eccRecord_hbm]
    rfl

/-- A read that meets no word error counts none. -/
theorem State.wordErrors_clean {s : State} (h : s.hbm.err = []) (lo hi : Nat) :
    (s.wordErrors .hbm lo hi []).1 = s.bumpBy R.HBM_CNT_CORR 0 (stackOf (lo * 32)) := by
  have e : ∀ p, ({ s.hbm with err := s.hbm.err.filter p } : Tier) = s.hbm := fun p => by
    rw [h, List.filter_nil, ← h]
  unfold State.wordErrors
  simp only [if_true, e]
  rfl

theorem State.imageRead_bytes (s : State) (a : Nat) : (s.imageRead a).hbm.bytes = s.hbm.bytes := by
  unfold State.imageRead
  split_ifs
  · exact s.wordErrors_bytes _ _ _
  · rfl

/-- A read that meets no word error changes counters alone. -/
theorem State.imageRead_clean {s : State} (h : s.hbm.err = []) (a : Nat) :
    s.imageRead a = { s with regs := (s.imageRead a).regs, events := (s.imageRead a).events } := by
  unfold State.imageRead
  split_ifs
  · unfold State.readImage State.dealerRead State.tierErrors State.lineErrors State.tierErrs
    simp only [if_true, h, State.wordErrors_clean h]
    rfl
  · rfl

end Sys2Proof.Machine
end

-- ==== Images rejected, accepted and unloaded ====
section
/-! PROOFS. A rejected image (R33, R107, R339), an accepted one (R103, R533) and an image unloaded (R495). -/

namespace Sys2Proof.Machine

/-! ## Rejected images (R33, R339) -/

section
variable {s : State}

theorem State.loadStatus_trees (s : State) (st : Nat) (r : Reject) : s.sameTrees (s.loadStatus st r) := (s.loadStatus_kept st r).2.trees (by decide)

/-- With no tree a rejected image leaves its status alone. -/
theorem State.rejectImage_stays (r : Reject) (h : s.allTreePorts = []) : s.rejectImage r = s.loadStatus 3 r := by
  unfold State.rejectImage
  exact if_pos ((s.loadStatus_trees 3 r).allTreePorts.trans h)

/-- The withdrawn state, with no image loaded. -/
theorem State.withdraw_notes {code origin : Nat} (hi : s.rd R.PLN_IMAGE_STATE ≠ 1) : s.onlyRegs (s.withdraw code origin) ∧
    FieldsKept s (s.withdraw code origin) [R.XPK_LOAD_STATE.key 0 0, R.XPK_LOAD_ORIGIN.key 0 0, R.XPK_LOAD_CODE.key 0 0] ∧
    (s.withdraw code origin).rd R.XPK_LOAD_STATE = 3 := by
  have h : FieldsKept s (((s.wr R.XPK_LOAD_STATE 3).wr R.XPK_LOAD_ORIGIN origin).wr R.XPK_LOAD_CODE code)
      [R.XPK_LOAD_STATE.key 0 0, R.XPK_LOAD_ORIGIN.key 0 0, R.XPK_LOAD_CODE.key 0 0] :=
    (((FieldsKept.refl s _).wr _ (by decide)).wr _ (by decide)).wr _ (by decide)
  have e : s.withdraw code origin = ((s.wr R.XPK_LOAD_STATE 3).wr R.XPK_LOAD_ORIGIN origin).wr R.XPK_LOAD_CODE code := by
    unfold State.withdraw
    exact if_neg (fun hh => hi ((h _ _ _ (by decide)).symm.trans hh))
  rw [e]
  refine ⟨(((State.onlyRegs.refl s).wr _ _ _ _).wr _ _ _ _).wr _ _ _ _, h, ?_⟩
  simp (disch := decide) only [State.rd_wr_ne, State.rd_wr_same]
  rfl

/-- With trees a rejected image withdraws the package (R339). -/
theorem State.rejectImage_withdraws (r : Reject) (ht : s.allTreePorts ≠ []) (hi : s.rd R.PLN_IMAGE_STATE = 0) (hx : s.rd R.XPK_LOAD_STATE ≠ 3) :
    s.rejectImage r = { s with regs := (s.rejectImage r).regs, ports := (s.rejectImage r).ports } ∧
    (s.rejectImage r).rd R.PLN_LOAD_STATUS_STATE = 3 ∧ (s.rejectImage r).holds R.PLN_LOAD_STATUS_REASON r.reason ∧
    (s.rejectImage r).rd R.XPK_LOAD_STATE = 3 ∧ ∀ q, ((s.rejectImage r).port q).tricks = (s.port q).tricks ++
      (if q ∈ s.allTreePorts then [(s.withdrawFlit ((s.rejectImage r).rd R.PLN_LOAD_STATUS_CODE) s.chipId q).flit] else []) := by
  obtain ⟨hr, hk⟩ := s.loadStatus_kept 3 r
  obtain ⟨hst, hre, -⟩ := s.loadStatus_holds 3 r
  have htrees := s.loadStatus_trees 3 r
  unfold State.rejectImage
  generalize s.loadStatus 3 r = u at *
  rw [if_neg (fun h => ht (htrees.allTreePorts.symm.trans h)), if_neg hx]
  have hchip : u.chipId = s.chipId := hk _ _ _ (by decide)
  have hf := State.withdrawals_frame (u.rd R.PLN_LOAD_STATUS_CODE) u.chipId u.allTreePorts u
  have htr := fun q => State.withdrawals_tricks (u.rd R.PLN_LOAD_STATUS_CODE) u.chipId q u.allTreePorts u (nodup_eraseDups _ _ le_rfl)
  rw [← State.sendWithdraw_eq] at hf htr
  generalize u.sendWithdraw (u.rd R.PLN_LOAD_STATUS_CODE) u.chipId none = v at *
  have hv : ∀ f i k, v.rd f i k = u.rd f i k := fun f i k => by rw [hf]; rfl
  have hiv : v.rd R.PLN_IMAGE_STATE ≠ 1 := by
    rw [hv, hk _ _ _ (by decide), hi]
    decide
  obtain ⟨gr, gk, gx⟩ := State.withdraw_notes (code := u.rd R.PLN_LOAD_STATUS_CODE) (origin := u.chipId) hiv
  generalize v.withdraw (u.rd R.PLN_LOAD_STATUS_CODE) u.chipId = w at *
  have hw : ∀ f i k, f.key i k ∉ [R.XPK_LOAD_STATE.key 0 0, R.XPK_LOAD_ORIGIN.key 0 0, R.XPK_LOAD_CODE.key 0 0] → w.rd f i k = u.rd f i k :=
    fun f i k h => (gk f i k h).trans (hv f i k)
  refine ⟨?_, (hw _ _ _ (by decide)).trans hst, (hw _ _ _ (by decide)).trans hre, gx, fun q => ?_⟩
  · unfold State.onlyRegs at gr hr
    rw [gr, hf, hr]
  · rw [hw _ _ _ (by decide)]
    unfold State.onlyRegs at gr hr
    have hq := htr q
    have hp : w.port q = v.port q := by rw [gr]; rfl
    have hup : u.port q = s.port q := by rw [hr]; rfl
    rw [hp, hq, hup, htrees.allTreePorts, hchip]
    unfold State.withdrawFlit
    rw [htrees.portGroup]

end

/-! ## Accepted images (R103, R533) -/

/-- The seal of one tile of an image. -/
def State.sealTile (s : State) (a : Nat) : State :=
  if errsIn s.hbm.err (a / 32) (a / 32 + 128) .uncorr ≠ [] then s else { s with hbm := s.hbm.setSeal a (hostSeal (s.hbm.read a 4096)) }

theorem State.sealImage_eq (s : State) (im : Image) :
    s.sealImage im = (List.range ((im.size + 4095) / 4096)).foldl (fun s i => s.sealTile (im.addr + 4096 * i)) s := rfl

/-- A seal of a tile changes the seals of the stacks alone. -/
theorem State.sealTile_frame (s : State) (a : Nat) : (∀ x, ({ s.sealTile a with hbm := x } : State) = { s with hbm := x }) ∧
    (s.sealTile a).hbm.bytes = s.hbm.bytes ∧ (s.sealTile a).hbm.err = s.hbm.err := by
  unfold State.sealTile
  split_ifs
  · exact ⟨fun _ => rfl, rfl, rfl⟩
  · exact ⟨fun _ => rfl, rfl, rfl⟩

/-- Tiles sealed: the seals of the stacks alone change. -/
theorem State.sealTiles_frame (a : Nat) (is : List Nat) (s : State) :
    is.foldl (fun s i => s.sealTile (a + 4096 * i)) s = { s with hbm := (is.foldl (fun s i => s.sealTile (a + 4096 * i)) s).hbm } ∧
    (is.foldl (fun s i => s.sealTile (a + 4096 * i)) s).hbm.bytes = s.hbm.bytes :=
  ⟨foldl_kept (f := fun u i => u.sealTile (a + 4096 * i))
      (fun u : State => ({ u with hbm := (is.foldl (fun s i => s.sealTile (a + 4096 * i)) s).hbm } : State))
      (fun u i => (u.sealTile_frame (a + 4096 * i)).1 _) is s,
    foldl_kept (fun u : State => u.hbm.bytes) (fun u i => (u.sealTile_frame (a + 4096 * i)).2.1) is s⟩

/-- Tiles without stored errors get their host seals. -/
theorem State.sealTiles_seals (a j : Nat) (is : List Nat) : ∀ s : State, s.hbm.err = [] →
    (j ∈ is ∨ s.hbm.sealAt (a + 4096 * j) = hostSeal (s.hbm.read (a + 4096 * j) 4096)) →
    (is.foldl (fun s i => s.sealTile (a + 4096 * i)) s).hbm.sealAt (a + 4096 * j) = hostSeal (s.hbm.read (a + 4096 * j) 4096) := by
  induction is with
  | nil => exact fun s _ h => h.resolve_left List.not_mem_nil
  | cons i is ih =>
    intro s he h
    obtain ⟨-, hb, he'⟩ := s.sealTile_frame (a + 4096 * i)
    have hread : (s.sealTile (a + 4096 * i)).hbm.read (a + 4096 * j) 4096 = s.hbm.read (a + 4096 * j) 4096 := by
      unfold Tier.read
      rw [hb]
    have hs : (s.sealTile (a + 4096 * i)).hbm.sealAt (a + 4096 * j) =
        if j = i then hostSeal (s.hbm.read (a + 4096 * j) 4096) else s.hbm.sealAt (a + 4096 * j) := by
      unfold State.sealTile
      rw [he, if_neg (by simp [errsIn])]
      rw [Tier.sealAt_setSeal]
      by_cases hj : j = i
      · simp [hj]
      · have : (a + 4096 * j) / 4096 ≠ (a + 4096 * i) / 4096 := by omega
        simp [hj, this]
    rw [← hread]
    refine ih _ (he'.trans he) ?_
    rw [hs, hread]
    by_cases hj : j = i
    · exact .inr (if_pos hj)
    · rw [if_neg hj]
      exact h.imp (fun h => (List.mem_cons.1 h).resolve_left hj) id

/-- The image taken: its counts at 0 and no bid used. -/
def State.imageTaken (s : State) (im : Image) : State :=
  { s with image := some im, done := [], dealt := [], digests := [], power := { s.power with bids := [], bidUse := 0 } }

/-- The image held, with no vote to wait for. -/
def State.imageHeld (s : State) (im : Image) : State := ((s.imageTaken im).wr R.PLN_IMAGE_STATE 1).wr R.XPK_LOAD_STATE 2

section
variable {s : State} {im : Image}

/-- On a package without trees and with no ABORT held an image is held at once. -/
theorem State.acceptImage_eq (hx : s.rd R.XPK_LOAD_ABORT_HELD = 0) (hm : ∀ g < 64, s.multi g = false) :
    s.acceptImage im = (((s.loadStatus 2 (.image 0 0)).measureImage im).sealImage im).imageHeld im := by
  have htrees := s.loadStatus_trees 2 (.image 0 0)
  unfold State.acceptImage
  generalize s.loadStatus 2 (.image 0 0) = u at *
  have hregs : ((u.measureImage im).sealImage im).regs = u.regs := by
    rw [State.sealImage_eq, (State.sealTiles_frame _ _ _).1]
    rfl
  generalize (u.measureImage im).sealImage im = v at *
  have trees : s.sameTrees (v.imageTaken im) := fun f hf g hg => (State.rd_of_regs hregs f 0 g).trans (htrees f hf g hg)
  have multi : (List.range 64).filter (v.imageTaken im).multi = [] := List.filter_eq_nil_iff.2 (fun g hg => by
    rw [trees.multi (List.mem_range.1 hg), hm g (List.mem_range.1 hg)]
    decide)
  have held : ¬ s.on R.XPK_LOAD_ABORT_HELD = true := by
    unfold State.on
    rw [hx]
    decide
  rw [if_neg held]
  change ((List.range 64).filter (v.imageTaken im).multi).foldl State.loadCheck (((v.imageTaken im).wr R.PLN_IMAGE_STATE 1).wr
    R.XPK_LOAD_STATE (if (List.range 64).filter (v.imageTaken im).multi = [] then 2 else 1)) = _
  rw [multi, if_pos rfl]
  rfl

/-- An image accepted on a package without trees and with no ABORT held. -/
theorem State.acceptImage_holds (hx : s.rd R.XPK_LOAD_ABORT_HELD = 0) (hm : ∀ g < 64, s.multi g = false) :
    (s.acceptImage im).image = some im ∧ (s.acceptImage im).loading = s.loading ∧ (s.acceptImage im).rd R.PLN_IMAGE_STATE = 1 ∧
    (s.acceptImage im).rd R.PLN_LOAD_STATUS_STATE = 2 ∧ (s.acceptImage im).rd R.XPK_LOAD_STATE = 2 ∧ (s.acceptImage im).done = [] ∧
    (s.acceptImage im).life.plans = s.life.plans + 1 ∧ (s.acceptImage im).hbm.bytes = s.hbm.bytes ∧ (s.acceptImage im).cores = s.cores ∧
    (s.hbm.err = [] → ∀ i, 4096 * i < im.size →
      (s.acceptImage im).hbm.sealAt (im.addr + 4096 * i) = hostSeal (s.hbm.read (im.addr + 4096 * i) 4096)) := by
  obtain ⟨hr, -⟩ := s.loadStatus_kept 2 (.image 0 0)
  obtain ⟨hst, -⟩ := s.loadStatus_holds 2 (.image 0 0)
  rw [State.acceptImage_eq hx hm]
  generalize s.loadStatus 2 (.image 0 0) = u at *
  obtain ⟨hf, hb⟩ := State.sealTiles_frame im.addr (List.range ((im.size + 4095) / 4096)) (u.measureImage im)
  have hse := fun j => State.sealTiles_seals im.addr j (List.range ((im.size + 4095) / 4096)) (u.measureImage im)
  rw [← State.sealImage_eq] at hf hb
  simp only [← State.sealImage_eq] at hse
  generalize (u.measureImage im).sealImage im = v at *
  have hregs : v.regs = u.regs := by rw [hf]; rfl
  obtain ⟨ul, ulife, uc, uh⟩ : u.loading = s.loading ∧ u.life = s.life ∧ u.cores = s.cores ∧ u.hbm = s.hbm := by
    unfold State.onlyRegs at hr
    rw [hr]
    exact ⟨rfl, rfl, rfl, rfl⟩
  have hloading : v.loading = s.loading := by rw [hf]; exact ul
  have hlife : v.life.plans = s.life.plans + 1 := by rw [hf, ← ulife]; rfl
  have hcores : v.cores = s.cores := by rw [hf]; exact uc
  have hhbm : (u.measureImage im).hbm = s.hbm := uh
  rw [hhbm] at hb
  simp only [hhbm] at hse
  have status : (v.imageTaken im).rd R.PLN_LOAD_STATUS_STATE = 2 := (State.rd_of_regs hregs _ _ _).trans hst
  have regs : (v.imageHeld im).rd R.PLN_IMAGE_STATE = 1 ∧ (v.imageHeld im).rd R.PLN_LOAD_STATUS_STATE = 2 ∧
      (v.imageHeld im).rd R.XPK_LOAD_STATE = 2 := by
    unfold State.imageHeld
    generalize v.imageTaken im = w at *
    refine ⟨?_, ?_, State.rd_wr_same ..⟩ <;> simp (disch := decide) only [State.rd_wr_ne, State.rd_wr_same]
    · rfl
    · exact status
  obtain ⟨h1, h2, h3⟩ := regs
  exact ⟨rfl, hloading, h1, h2, h3, rfl, hlife, hb, hcores, fun he i hi => hse i he (.inl (List.mem_range.2 (by omega)))⟩

end

/-! ## Images unloaded (R495) -/

/-- An entry of a canonical map is what a read of its key finds. -/
theorem SMap.mem_iff_get {α : Type} [DecidableEq α] {d : α} {m : SMap α} (hw : SMap.wf d m = true) (k : Nat) (v : α) :
    (k, v) ∈ m ↔ SMap.get d m k = v ∧ v ≠ d := by
  obtain ⟨hd, hp⟩ := (SMap.wf_iff d m).1 hw
  clear hw
  induction m with
  | nil => exact ⟨fun h => absurd h List.not_mem_nil, fun ⟨h, hv⟩ => absurd h.symm hv⟩
  | cons e m ih =>
    obtain ⟨k', v'⟩ := e
    obtain ⟨hlt, hp⟩ := List.pairwise_cons.1 hp
    have ih := ih (fun e he => hd e (List.mem_cons_of_mem _ he)) hp
    have hc : (k, v) ∈ (k', v') :: m ↔ k = k' ∧ v = v' ∨ (k, v) ∈ m := by simp
    rw [hc, SMap.get]
    by_cases hk : k' = k
    · subst hk
      have hn : (k', v) ∉ m := fun h => Nat.lt_irrefl _ (hlt (k', v) h)
      rw [if_pos rfl]
      refine ⟨fun h => h.elim (fun h => ⟨h.2.symm, h.2 ▸ hd _ List.mem_cons_self⟩) (fun h => absurd h hn), fun h => .inl ⟨rfl, h.1.symm⟩⟩
    · rw [if_neg hk, ih]
      exact ⟨fun h => h.resolve_left (fun h => hk h.1.symm), .inr⟩

/-- The dealings in progress are those of the groups. -/
theorem State.mem_dealings {s : State} (hw : SMap.wf Group.reset s.groups = true) (g : Nat) (d : Dealing) :
    (g, d) ∈ s.dealings ↔ (s.group g).dealing = some d := by
  unfold State.dealings State.group
  rw [List.mem_filterMap]
  constructor
  · rintro ⟨⟨k, x⟩, hx, h⟩
    obtain ⟨d', hd, he⟩ := Option.map_eq_some_iff.1 h
    cases he
    rw [((SMap.mem_iff_get hw _ _).1 hx).1]
    exact hd
  · intro h
    refine ⟨(g, SMap.get Group.reset s.groups g), (SMap.mem_iff_get hw _ _).2 ⟨rfl, fun hr => ?_⟩, by rw [h]; rfl⟩
    rw [hr] at h
    cases h

/-- The deals that a group waits to repeat, forgotten. -/
def State.forget (s : State) (g : Nat) : State := s.onGroup g (fun x => { x with asked := none })

/-- Announced deals forgotten: the groups keep their dealings. -/
theorem State.forgets_keep (gs : List Nat) : ∀ s : State, SMap.wf Group.reset s.groups = true →
    let t := gs.foldl State.forget s
    SMap.wf Group.reset t.groups = true ∧ ∀ g, (t.group g).dealing = (s.group g).dealing := by
  induction gs with
  | nil => exact fun s hw => ⟨hw, fun _ => rfl⟩
  | cons a gs ih =>
    intro s hw
    obtain ⟨h1, h2⟩ := ih (s.forget a) (SMap.wf_set _ _ _ _ hw)
    refine ⟨h1, fun g => (h2 g).trans ?_⟩
    unfold State.forget
    rw [State.group_onGroup]
    split_ifs with h
    · rw [h]
    · rfl

theorem State.forgets_frame (gs : List Nat) : ∀ s : State, gs.foldl State.forget s = { s with groups := (gs.foldl State.forget s).groups } := by
  induction gs with
  | nil => exact fun s => rfl
  | cons a gs ih => exact fun s => ih (s.forget a)

theorem State.endAll_idle {s : State} (h : s.reqs = []) : s.endAll = s := by
  unfold State.endAll
  rw [h]
  rfl

/-- Bookkeeping of weight slots leaves the stacks. -/
theorem State.autos_hbm (s : State) : s.autos.hbm = s.hbm := by
  have settled : ∀ u : State, u.autoStep.hbm = u.hbm := fun u => by
    unfold State.autoStep State.autoStage
    refine (foldl_kept State.hbm (fun t m => ?_) _ _).trans (foldl_kept State.hbm (fun t m => ?_) _ u.settle)
    · dsimp only
      split_ifs
      · rfl
      · rfl
    · split_ifs
      · rfl
      · rfl
  unfold State.autos
  split_ifs
  · rw [settled, s.convertWaiting_frame.1]
  · rfl

theorem State.rescore_hbm (s : State) : s.rescore.hbm = s.hbm := by
  unfold State.rescore
  split_ifs
  · rw [State.markWorn_eq]
    exact (State.markMany_spares _ s).1.2.1
  · rfl

/-- Everything of the image discarded (R495). -/
def State.discardImage (s : State) : State :=
  { s with
    image := none, done := [], dealt := [], digests := [], wheels := [],
    groups := s.groups.filter (fun e => e.2.dealing.isSome),
    flt := { s.flt with midRound := s.flt.midRound.map (fun (e : Nat × Option (Nat × Nat)) => (e.1, none)) },
    partner := { s.partner with waiting := [], early := [], bad := none, search := false, mine := [], theirs := [], held := false } }

/-- The registers of an unload (R495). -/
def State.unloadStatus (s : State) : State :=
  ((((s.wr R.PLN_IMAGE_STATE 0).wr R.FLT_STATUS_PLAN_STOPPED 0).wrPair R.XPK_VOTED_LO R.XPK_VOTED_HI 0).wr R.XPK_LOAD_STATE
    (if s.rd R.XPK_LOAD_STATE = 3 then 3 else 0)).wr R.XPK_PSTATUS_STATE (ofBool (s.on R.XPK_PCFG_EN))

theorem State.unloadStatus_frame (s : State) : s.onlyRegs s.unloadStatus ∧ s.unloadStatus.rd R.PLN_IMAGE_STATE = 0 := by
  unfold State.unloadStatus State.wrPair
  constructor
  · iterate 6 refine State.onlyRegs.wr ?_ _ _ _ _
    exact State.onlyRegs.refl s
  · simp (disch := decide) only [State.rd_wr_ne, State.rd_wr_same]
    rfl

section
variable {s : State}

/-- Without dealings or requests an unload discards the image. -/
theorem State.finishUnload_eq (hi : s.rd R.PLN_IMAGE_STATE = 2) (hq : s.reqs = []) (hd : ∀ d ∈ s.dealings, d.2.hand = checkHand) :
    s.finishUnload = s.discardImage.unloadStatus.autos.rescore := by
  have hn : s.dealings.any (fun d => d.2.hand != checkHand) = false := List.any_eq_false.2 (fun d h => by simp [hd d h])
  unfold State.finishUnload
  simp only [State.endAll_idle hq, hi, hn]
  rfl

/-- While a dealing remains an unload waits. -/
theorem State.finishUnload_waits (hd : ∃ d ∈ s.dealings, d.2.hand ≠ checkHand) : s.finishUnload = s := by
  obtain ⟨d, hd, hh⟩ := hd
  have hn : s.dealings.any (fun d => d.2.hand != checkHand) = true := List.any_eq_true.2 ⟨d, hd, by simp [hh]⟩
  unfold State.finishUnload
  rw [hn, Bool.or_true, if_pos rfl]

/-- An unload ends at once when no dealing of the image remains. -/
theorem State.finishUnload_ends (hi : s.rd R.PLN_IMAGE_STATE = 2) (hq : s.reqs = []) (hd : ∀ d ∈ s.dealings, d.2.hand = checkHand) :
    s.finishUnload.image = none ∧ s.finishUnload.rd R.PLN_IMAGE_STATE = 0 ∧ s.finishUnload.done = [] ∧
    s.finishUnload.cores = s.cores ∧ s.finishUnload.hbm = s.hbm := by
  obtain ⟨hf, hs⟩ := s.discardImage.unloadStatus_frame
  rw [State.finishUnload_eq hi hq hd]
  generalize s.discardImage.unloadStatus = u at *
  have hl := u.autos_books.ledger.trans u.autos.rescore_ledger
  have hm := u.autos.rescore_hbm.trans u.autos_hbm
  unfold State.onlyRegs at hf
  obtain ⟨h1, h2, h3, h4⟩ : u.image = none ∧ u.done = [] ∧ u.cores = s.cores ∧ u.hbm = s.hbm := by
    rw [hf]
    exact ⟨rfl, rfl, rfl, rfl⟩
  exact ⟨hl.image.trans h1, (hl.2 _ _ _ (not_bookKey_of_page (by decide))).trans hs, hl.done.trans h2, hl.cores.trans h3, hm.trans h4⟩

/-- The image unloading, before its requests end (R495). -/
def State.unloading (s : State) : State := (List.range 64).foldl State.forget (s.wr R.PLN_IMAGE_STATE 2)

/-- What the beginning of an unload leaves. -/
theorem State.unloading_keeps (hw : SMap.wf Group.reset s.groups = true) :
    s.unloading = { s with regs := (s.wr R.PLN_IMAGE_STATE 2).regs, groups := s.unloading.groups } ∧
    ∀ d, d ∈ s.unloading.dealings ↔ d ∈ s.dealings := by
  obtain ⟨h1, h2⟩ := State.forgets_keep (List.range 64) (s.wr R.PLN_IMAGE_STATE 2) hw
  refine ⟨State.forgets_frame _ _, fun ⟨g, d⟩ => ?_⟩
  rw [State.mem_dealings hw]
  refine (State.mem_dealings h1 g d).trans ?_
  rw [h2]
  exact Iff.rfl

/-- An unload with no request to end. -/
theorem State.unload_idle (hw : SMap.wf Group.reset s.groups = true) (hq : s.reqs = []) : s.unload = s.unloading.finishUnload := by
  have e : s.unload = s.unloading.endAll.finishUnload := rfl
  rw [e, State.endAll_idle]
  rw [(State.unloading_keeps hw).1]
  exact hq

end

/-! ## The commands (R494, R495) -/

section
variable {s : State}

/-- The load ended, nothing of the check done yet. -/
def State.loadEnded (s : State) : State := { s with loading := none }

/-- PLAN_LOAD_DONE of an image when the package is withdrawn already (R340). -/
theorem State.planLoadDone_withdrawn {l : Loading} (hd : s.dealerUp = true) (hl : s.loading = some l) (hx : s.rd R.XPK_LOAD_STATE = 3) :
    execPlanLoadDone s = .next (s.loadEnded.rejectImage (.image 0x10 0)) := by
  unfold execPlanLoadDone
  simp only [hl, hd, Bool.not_true, Bool.false_eq_true, if_false]
  exact congrArg Host.Outcome.next (if_pos hx)

/-- PLAN_LOAD_DONE of an image checked (R33). -/
theorem State.planLoadDone_checks {l : Loading} (hd : s.dealerUp = true) (hl : s.loading = some l) (hx : s.rd R.XPK_LOAD_STATE ≠ 3) :
    execPlanLoadDone s = .next (match (s.loadEnv l.addr).check' with
      | .error r => (s.loadEnded.imageRead l.addr).rejectImage r
      | .ok im => (s.loadEnded.imageRead l.addr).acceptImage im) := by
  unfold execPlanLoadDone
  simp only [hl, hd, Bool.not_true, Bool.false_eq_true, if_false]
  exact congrArg Host.Outcome.next (if_neg hx)

/-- LOAD begins the check (R494). -/
theorem State.load_begins (hr : s.reachable .pln 0) (hi : s.rd R.PLN_IMAGE_STATE = 0) (hs : s.rd R.PLN_LOAD_STATUS_STATE ≠ 1)
    (hp : s.life.lcs.plans = true) : execLoad s = .next
      (({ s with loading := some ⟨s.rd R.PLN_IMAGE_LO * 4096 + 2 ^ 32 * s.rd R.PLN_IMAGE_HI⟩ } : State).loadStatus 1 (.image 0 0)) := by
  unfold execLoad
  rw [State.hostCmd_acts _ hr]
  simp [hi, hs, hp]

/-- LOAD while an image is held or checked is ignored. -/
theorem State.load_ignored (hr : s.reachable .pln 0) (h : s.rd R.PLN_IMAGE_STATE ≠ 0 ∨ s.rd R.PLN_LOAD_STATUS_STATE = 1) :
    execLoad s = .next s := by
  unfold execLoad
  rw [State.hostCmd_acts _ hr]
  exact congrArg Host.Outcome.next (if_pos (h.imp id .inl))

/-- UNLOAD of a loaded image (R495). -/
theorem State.unload_unloads (hr : s.reachable .pln 0) (hi : s.rd R.PLN_IMAGE_STATE = 1) : execUnload s = .next s.unload := by
  unfold execUnload
  rw [State.hostCmd_acts _ hr, if_pos hi]

/-- What the read of an image leaves of the rest. -/
theorem State.imageRead_keeps (s : State) (a : Nat) : (s.loadEnded.imageRead a).loading = none ∧
    (s.loadEnded.imageRead a).hbm.bytes = s.hbm.bytes ∧ (s.loadEnded.imageRead a).cores = s.cores ∧
    (s.loadEnded.imageRead a).ports = s.ports ∧ (s.loadEnded.imageRead a).life = s.life ∧
    s.sameTrees (s.loadEnded.imageRead a) ∧
    (∀ f, f ∈ [R.PLN_IMAGE_STATE, R.XPK_LOAD_STATE, R.XPK_LOAD_ABORT_HELD, R.XPK_CHIP] → (s.loadEnded.imageRead a).rd f = s.rd f) ∧
    (s.hbm.err = [] → s.loadEnded.imageRead a =
      { s with loading := none, regs := (s.loadEnded.imageRead a).regs, events := (s.loadEnded.imageRead a).events }) := by
  have hb := s.loadEnded.imageRead_books a
  have hy := s.loadEnded.imageRead_bytes a
  have hc := fun h => State.imageRead_clean (s := s.loadEnded) h a
  generalize s.loadEnded.imageRead a = u at *
  refine ⟨by rw [hb.1]; rfl, hy, hb.cores, hb.ports, by rw [hb.1]; rfl, hb.2.trees, fun f hf => hb.2 f 0 0 (not_bookKey_of_page ?_), hc⟩
  revert f
  decide

/-- LOAD notes the address and shows the check in progress. -/
theorem State.load_notes (hr : s.reachable .pln 0) (hi : s.rd R.PLN_IMAGE_STATE = 0) (hs : s.rd R.PLN_LOAD_STATUS_STATE ≠ 1)
    (hp : s.life.lcs.plans = true) : ∃ t, execLoad s = .next t ∧ t = { s with loading := t.loading, regs := t.regs } ∧
      t.loading = some ⟨s.rd R.PLN_IMAGE_LO * 4096 + 2 ^ 32 * s.rd R.PLN_IMAGE_HI⟩ ∧ t.rd R.PLN_LOAD_STATUS_STATE = 1 := by
  have e := State.load_begins hr hi hs hp
  generalize (⟨s.rd R.PLN_IMAGE_LO * 4096 + 2 ^ 32 * s.rd R.PLN_IMAGE_HI⟩ : Loading) = l at *
  obtain ⟨h1, -⟩ := State.loadStatus_kept { s with loading := some l } 1 (.image 0 0)
  obtain ⟨h2, -⟩ := State.loadStatus_holds { s with loading := some l } 1 (.image 0 0)
  refine ⟨_, e, ?_⟩
  generalize State.loadStatus _ 1 (.image 0 0) = t at *
  unfold State.onlyRegs at h1
  have hl : t.loading = some l := by rw [h1]
  exact ⟨h1.trans (by rw [hl]), hl, h2⟩

/-- UNLOAD with no request, by whether a dealing of the image remains (R495). -/
theorem State.unload_ends (hr : s.reachable .pln 0) (hi : s.rd R.PLN_IMAGE_STATE = 1) (hq : s.reqs = [])
    (hw : SMap.wf Group.reset s.groups = true) :
    ((∀ d ∈ s.dealings, d.2.hand = checkHand) →
      ∃ t, execUnload s = .next t ∧ t.image = none ∧ t.rd R.PLN_IMAGE_STATE = 0 ∧ t.done = [] ∧ t.cores = s.cores ∧ t.hbm = s.hbm) ∧
    ((∃ d ∈ s.dealings, d.2.hand ≠ checkHand) →
      ∃ t, execUnload s = .next t ∧ t.image = s.image ∧ t.rd R.PLN_IMAGE_STATE = 2 ∧ t.done = s.done ∧ t.cores = s.cores) := by
  have e := (State.unload_unloads hr hi).trans (congrArg Host.Outcome.next (State.unload_idle hw hq))
  obtain ⟨hf, hd⟩ := State.unloading_keeps hw
  generalize s.unloading = u at *
  have hregs : u.regs = (s.wr R.PLN_IMAGE_STATE 2).regs := by rw [hf]
  have h2 : u.rd R.PLN_IMAGE_STATE = 2 := (State.rd_of_regs hregs _ _ _).trans (State.rd_wr_same ..)
  obtain ⟨hq2, hi2, hdn, hc, hh⟩ : u.reqs = s.reqs ∧ u.image = s.image ∧ u.done = s.done ∧ u.cores = s.cores ∧ u.hbm = s.hbm := by
    rw [hf]
    exact ⟨rfl, rfl, rfl, rfl, rfl⟩
  rw [hq] at hq2
  refine ⟨fun h => ⟨_, e, ?_⟩, fun ⟨d, h, hn⟩ => ⟨_, e, ?_⟩⟩
  · obtain ⟨g1, g2, g3, g4, g5⟩ := State.finishUnload_ends h2 hq2 (fun d hm => h d ((hd d).1 hm))
    exact ⟨g1, g2, g3, g4.trans hc, g5.trans hh⟩
  · rw [State.finishUnload_waits ⟨d, (hd d).2 h, hn⟩]
    exact ⟨hi2, h2, hdn, hc⟩

/-- A rejected image of a package without trees. -/
theorem State.planLoadDone_rejects {l : Loading} (hd : s.dealerUp = true) (hl : s.loading = some l) (hx : s.rd R.XPK_LOAD_STATE ≠ 3)
    {r : Reject} (hc : (s.loadEnv l.addr).check' = .error r) (ht : s.allTreePorts = []) :
    ∃ t, execPlanLoadDone s = .next t ∧ t.loading = none ∧ t.hbm.bytes = s.hbm.bytes ∧ t.cores = s.cores ∧
      (s.hbm.err = [] → t = { s with loading := none, regs := t.regs, events := t.events }) ∧ t.rd R.PLN_LOAD_STATUS_STATE = 3 ∧
      t.holds R.PLN_LOAD_STATUS_REASON r.reason ∧ t.holds R.PLN_LOAD_WHERE_HAND r.hand ∧ t.holds R.PLN_LOAD_WHERE_CORE r.core ∧
      t.holdsPair R.PLN_LOAD_OFFSET_LO R.PLN_LOAD_OFFSET_HI r.offset := by
  have e := State.planLoadDone_checks hd hl hx
  rw [hc] at e
  obtain ⟨u1, u2, u3, -, -, ut, -, u4⟩ := s.imageRead_keeps l.addr
  refine ⟨_, e, ?_⟩
  dsimp only
  generalize s.loadEnded.imageRead l.addr = u at *
  rw [State.rejectImage_stays r (ut.allTreePorts.trans ht)]
  obtain ⟨hf, -⟩ := u.loadStatus_kept 3 r
  have hh := u.loadStatus_holds 3 r
  generalize u.loadStatus 3 r = t at *
  unfold State.onlyRegs at hf
  obtain ⟨t1, t2, t3, t4⟩ : t.loading = u.loading ∧ t.hbm = u.hbm ∧ t.cores = u.cores ∧ t.events = u.events := by
    rw [hf]
    exact ⟨rfl, rfl, rfl, rfl⟩
  refine ⟨t1.trans u1, by rw [t2, u2], t3.trans u3, fun he => ?_, hh⟩
  rw [t4]
  exact hf.trans (by rw [u4 he])

/-- A rejected image of a package with trees withdraws it. -/
theorem State.planLoadDone_withdraws {l : Loading} (hd : s.dealerUp = true) (hl : s.loading = some l) (hx : s.rd R.XPK_LOAD_STATE ≠ 3)
    {r : Reject} (hc : (s.loadEnv l.addr).check' = .error r) (ht : s.allTreePorts ≠ []) (hi : s.rd R.PLN_IMAGE_STATE = 0) :
    ∃ t, execPlanLoadDone s = .next t ∧ t.loading = none ∧ t.hbm.bytes = s.hbm.bytes ∧ t.cores = s.cores ∧
      (s.hbm.err = [] → t = { s with loading := none, regs := t.regs, events := t.events, ports := t.ports }) ∧
      t.rd R.PLN_LOAD_STATUS_STATE = 3 ∧ t.holds R.PLN_LOAD_STATUS_REASON r.reason ∧ t.rd R.XPK_LOAD_STATE = 3 ∧
      ∀ q, (t.port q).tricks = (s.port q).tricks ++
        (if q ∈ s.allTreePorts then [(s.withdrawFlit (t.rd R.PLN_LOAD_STATUS_CODE) s.chipId q).flit] else []) := by
  have e := State.planLoadDone_checks hd hl hx
  rw [hc] at e
  obtain ⟨u1, u2, u3, up, -, ut, uk, u4⟩ := s.imageRead_keeps l.addr
  refine ⟨_, e, ?_⟩
  dsimp only
  generalize s.loadEnded.imageRead l.addr = u at *
  obtain ⟨hf, h1, h2, h3, h4⟩ := State.rejectImage_withdraws (s := u) r (fun h => ht (ut.allTreePorts.symm.trans h))
    ((uk _ (by simp)).trans hi) (fun h => hx ((uk _ (by simp)).symm.trans h))
  generalize u.rejectImage r = t at *
  obtain ⟨t1, t2, t3, t4⟩ : t.loading = u.loading ∧ t.hbm = u.hbm ∧ t.cores = u.cores ∧ t.events = u.events := by
    rw [hf]
    exact ⟨rfl, rfl, rfl, rfl⟩
  refine ⟨t1.trans u1, by rw [t2, u2], t3.trans u3, fun he => ?_, h1, h2, h3, fun q => (h4 q).trans ?_⟩
  · rw [t4]
    exact hf.trans (by rw [u4 he])
  · have hp : u.port q = s.port q := by
      unfold State.port
      rw [up]
    have hchip : u.chipId = s.chipId := uk R.XPK_CHIP (by simp)
    unfold State.withdrawFlit
    rw [hp, ut.allTreePorts, ut.portGroup, hchip]

/-- An accepted image of a package without trees is held at once. -/
theorem State.planLoadDone_accepts {l : Loading} (hd : s.dealerUp = true) (hl : s.loading = some l) (hx : s.rd R.XPK_LOAD_STATE ≠ 3)
    {im : Image} (hc : (s.loadEnv l.addr).check' = .ok im) (ha : s.rd R.XPK_LOAD_ABORT_HELD = 0) (hm : ∀ g < 64, s.multi g = false) :
    ∃ t, execPlanLoadDone s = .next t ∧ t.image = some im ∧ t.loading = none ∧ t.rd R.PLN_IMAGE_STATE = 1 ∧
      t.rd R.PLN_LOAD_STATUS_STATE = 2 ∧ t.rd R.XPK_LOAD_STATE = 2 ∧ (∀ h, t.count h = 0) ∧ t.life.plans = s.life.plans + 1 ∧
      t.hbm.bytes = s.hbm.bytes ∧ t.cores = s.cores ∧
      (s.hbm.err = [] → ∀ i, 4096 * i < im.size →
        t.hbm.sealAt (im.addr + 4096 * i) = hostSeal (s.hbm.read (im.addr + 4096 * i) 4096)) := by
  have e := State.planLoadDone_checks hd hl hx
  rw [hc] at e
  obtain ⟨u1, u2, u3, -, ul, ut, uk, u4⟩ := s.imageRead_keeps l.addr
  refine ⟨_, e, ?_⟩
  dsimp only
  generalize s.loadEnded.imageRead l.addr = u at *
  obtain ⟨h1, h2, h3, h4, h5, h6, h7, h8, h9, hs⟩ := State.acceptImage_holds (s := u) (im := im) ((uk _ (by simp)).trans ha)
    (fun g hg => (ut.multi hg).trans (hm g hg))
  refine ⟨h1, h2.trans u1, h3, h4, h5, fun h => ?_, by rw [h7, ul], h8.trans u2, h9.trans u3, fun he => ?_⟩
  · unfold State.count
    rw [h6]
    rfl
  · have hh : u.hbm = s.hbm := by rw [u4 he]
    rw [hh] at hs
    exact hs he

/-- An image checked on a package that has withdrawn is rejected for that. -/
theorem State.planLoadDone_refuses {l : Loading} (hd : s.dealerUp = true) (hl : s.loading = some l) (hx : s.rd R.XPK_LOAD_STATE = 3)
    (ht : s.allTreePorts = []) : ∃ t, execPlanLoadDone s = .next t ∧ t = { s with loading := none, regs := t.regs } ∧
      t.rd R.PLN_LOAD_STATUS_STATE = 3 ∧ t.rd R.PLN_LOAD_STATUS_REASON = 0x10 := by
  refine ⟨_, State.planLoadDone_withdrawn hd hl hx, ?_⟩
  rw [State.rejectImage_stays (s := s.loadEnded) _ ht]
  obtain ⟨h1, -⟩ := s.loadEnded.loadStatus_kept 3 (.image 0x10 0)
  obtain ⟨h2, h3, -⟩ := s.loadEnded.loadStatus_holds 3 (.image 0x10 0)
  exact ⟨h1, h2, h3⟩

end

/-- Settles O53: what the load check answers and what follows it, and an unload by whether a dealing remains. -/
theorem plansLoadAndUnload : Obligations.PlansLoadAndUnload := by
  unfold Obligations.PlansLoadAndUnload
  refine fun s => ⟨fun hr => ⟨State.load_notes hr, State.load_ignored hr, fun hi => ?_, State.unload_ends hr⟩,
    fun l hd hl hx => ⟨fun r => State.planLoadDone_rejects hd hl hx, fun r => State.planLoadDone_withdraws hd hl hx,
      fun im => State.planLoadDone_accepts hd hl hx⟩, fun l => State.planLoadDone_refuses⟩
  change execUnload s = .next s
  unfold execUnload
  rw [State.hostCmd_acts _ hr, if_neg hi]

end Sys2Proof.Machine
end

-- ==== Members dealt ====
section
/-! PROOFS. Members set up (R48), deal times given (R310, R322) and a hand dealt (R47). -/

namespace Sys2Proof.Machine

/-! ## What a deal leaves -/

/-- The trick table, the ports, the image, the flits that wait and the joker maps are as they were. -/
def State.sameTable (s t : State) : Prop :=
  t.groups = s.groups ∧ t.ports = s.ports ∧ t.image = s.image ∧ t.trickIn = s.trickIn ∧ t.flt = s.flt

namespace State.sameTable

variable {s t u : State}

theorem trans (h : s.sameTable t) (h' : t.sameTable u) : s.sameTable u := by
  obtain ⟨h1, h2, h3, h4, h5⟩ := h
  obtain ⟨g1, g2, g3, g4, g5⟩ := h'
  exact ⟨g1.trans h1, g2.trans h2, g3.trans h3, g4.trans h4, g5.trans h5⟩

theorem foldl {α : Type} {f : State → α → State} (h : ∀ (s : State) (x : α), s.sameTable (f s x)) (l : List α) :
    ∀ s : State, s.sameTable (l.foldl f s) := by
  induction l with
  | nil => exact fun s => ⟨rfl, rfl, rfl, rfl, rfl⟩
  | cons x l ih => exact fun s => (h s x).trans (ih _)

theorem partOf (h : s.sameTable t) (i : Nat) : t.partOf i = s.partOf i := by
  obtain ⟨-, -, -, -, h⟩ := h
  unfold State.partOf State.jmap
  rw [h]

theorem group (h : s.sameTable t) (g : Nat) : t.group g = s.group g := by
  obtain ⟨h, -⟩ := h
  unfold State.group
  rw [h]

end State.sameTable

theorem State.books.sameTable {s t : State} (h : s.books t) : s.sameTable t := ⟨h.groups, h.ports, h.image, by rw [h.1], h.flt⟩

/-- `t` is `s` with other deal times and levels of dummy load, as far as a deal goes. -/
def State.timed (s t : State) : Prop :=
  (∀ q, t.core q = { s.core q with resumeAt := (t.core q).resumeAt, dummy := (t.core q).dummy }) ∧
  (∀ q, t.rd R.SEQ_FAULT_CODE q = s.rd R.SEQ_FAULT_CODE q) ∧ t.ports = s.ports ∧ t.image = s.image ∧ t.trickIn = s.trickIn

namespace State.timed

variable {s t u : State}

theorem refl (s : State) : s.timed s := ⟨fun _ => rfl, fun _ => rfl, rfl, rfl, rfl⟩

theorem trans (h : s.timed t) (h' : t.timed u) : s.timed u := by
  obtain ⟨h1, h2, h3, h4, h5⟩ := h
  obtain ⟨g1, g2, g3, g4, g5⟩ := h'
  exact ⟨fun q => (g1 q).trans (by rw [h1 q]), fun q => (g2 q).trans (h2 q), g3.trans h3, g4.trans h4, g5.trans h5⟩

theorem foldl {α : Type} {f : State → α → State} (h : ∀ (s : State) (x : α), s.timed (f s x)) (l : List α) :
    ∀ s : State, s.timed (l.foldl f s) := by
  induction l with
  | nil => exact fun s => .refl s
  | cons x l ih => exact fun s => (h s x).trans (ih _)

end State.timed

theorem State.books.timed {s t : State} (h : s.books t) : s.timed t := by
  refine ⟨fun q => ?_, fun q => h.2 _ _ _ (not_bookKey_core (.inl rfl) (by decide) (by decide) rfl), h.ports, h.image, by rw [h.1]⟩
  have e : t.core q = s.core q := by
    unfold State.core
    rw [h.cores]
  rw [e]

/-! ## Members set up (R48) -/

/-- A core at the start of its stream as member `m` (R48, R88). -/
def Core.fresh (c : Core) (m : Member) : Prop :=
  c.member = some m ∧ c.st = .idle ∧ c.pc = 0 ∧ c.preds = 0 ∧ c.loops = [] ∧ c.flags = [] ∧ c.windows = [] ∧ c.adg = [] ∧ c.eng = [] ∧
  c.tricks = 0

/-- A core dealt keeps its scratchpad and takes the resources of its stream. -/
theorem Core.dealt_fresh (c : Core) (m : Member) (res : ResBlock) (frames : List Frame) (tick : Nat) :
    ((c.dealt m res frames tick).woken tick).fresh m ∧ ((c.dealt m res frames tick).woken tick).spm = c.spm ∧
    ((c.dealt m res frames tick).woken tick).seals = c.seals ∧ ((c.dealt m res frames tick).woken tick).queues = res.queues ∧
    ((c.dealt m res frames tick).woken tick).bounds = res.bounds := by
  rw [Core.woken_frame]
  exact ⟨⟨rfl, rfl, rfl, rfl, rfl, rfl, rfl, rfl, rfl, rfl⟩, rfl, rfl, rfl, rfl⟩

/-- The keys of the fields that a deal clears or sets on a core's sequencer page (R108). -/
def seqDealKeys (p : Nat) : List Nat :=
  [R.SEQ_FAULT_CODE.key p 0, R.SEQ_FAULT_ENGINE.key p 0, R.SEQ_FAULT_PC.key p 0, R.SEQ_FAULT_INFO_FLAG_VALUE.key p 0,
   R.SEQ_FAULT_INFO_FLAG.key p 0, R.SEQ_FAULT_INFO_AT_TRICK.key p 0, R.SEQ_HAND.key p 0]

theorem State.seqDealt_fields (s : State) (p hid : Nat) : s.onlyRegs (s.seqDealt p hid) ∧ FieldsKept s (s.seqDealt p hid) (seqDealKeys p) ∧
    (s.seqDealt p hid).rd R.SEQ_FAULT_CODE p = 0 := by
  unfold State.seqDealt
  refine ⟨?_, ?_, ?_⟩
  · iterate 7 refine State.onlyRegs.wr ?_ _ _ _ _
    exact State.onlyRegs.refl s
  · iterate 7 refine FieldsKept.wr ?_ _ (by simp [seqDealKeys])
    exact FieldsKept.refl s _
  · iterate 6 refine (State.rd_wr_ne _ _ _ _ _ _ _ _ (Fld.key_ne_of_place p (by decide) (by decide))).trans ?_
    exact State.rd_wr_same ..

/-- The sequencer pages of two cores lie apart. -/
theorem seqDealKeys_apart {p q : Nat} (h : q ≠ p) : R.SEQ_FAULT_CODE.key q 0 ∉ seqDealKeys p := by
  have apart : ∀ f ∈ [R.SEQ_FAULT_CODE, R.SEQ_FAULT_ENGINE, R.SEQ_FAULT_PC, R.SEQ_FAULT_INFO_FLAG_VALUE, R.SEQ_FAULT_INFO_FLAG,
      R.SEQ_FAULT_INFO_AT_TRICK, R.SEQ_HAND], R.SEQ_FAULT_CODE.key q 0 ≠ f.key p 0 := fun f hf => by
    obtain ⟨hb, ho, hs, hl⟩ : f.blk = .seq ∧ f.off < 0x1000 ∧ f.stride = 0 ∧ f.lsb < 32 := by
      revert f
      decide
    unfold Fld.key
    rw [hb, hs]
    simp only [Block.page, R.SEQ_FAULT_CODE]
    omega
  intro hm
  obtain ⟨f, hf, he⟩ := List.mem_map.1 (show R.SEQ_FAULT_CODE.key q 0 ∈ [R.SEQ_FAULT_CODE, R.SEQ_FAULT_ENGINE, R.SEQ_FAULT_PC,
    R.SEQ_FAULT_INFO_FLAG_VALUE, R.SEQ_FAULT_INFO_FLAG, R.SEQ_FAULT_INFO_AT_TRICK, R.SEQ_HAND].map (fun f => f.key p 0) from hm)
  exact apart f hf he.symm

/-- A member set up, and what it leaves. -/
theorem State.setMember_sets (s : State) (p : Nat) (m : Member) (hid : Nat) (res : ResBlock) (frames : List Frame) :
    s.sameTable (s.setMember p m hid res frames) ∧
    (s.setMember p m hid res frames).core p = ((s.core p).dealt m res frames s.tick).woken s.tick ∧
    (s.setMember p m hid res frames).rd R.SEQ_FAULT_CODE p = 0 ∧
    ∀ q, q ≠ p → (s.setMember p m hid res frames).core q = s.core q ∧
      (s.setMember p m hid res frames).rd R.SEQ_FAULT_CODE q = s.rd R.SEQ_FAULT_CODE q := by
  unfold State.setMember
  generalize hu : (s.wakeDie (p / 11)).onCore p _ = u
  have ht : s.sameTable u := by rw [← hu]; exact ⟨rfl, rfl, rfl, rfl, rfl⟩
  have hcp : u.core p = ((s.core p).dealt m res frames s.tick).woken s.tick := by rw [← hu, State.core_onCore_same]; rfl
  have hcq : ∀ q, q ≠ p → u.core q = s.core q := fun q h => by rw [← hu, State.core_onCore_ne _ _ h]; rfl
  have hr : ∀ q, u.rd R.SEQ_FAULT_CODE q = s.rd R.SEQ_FAULT_CODE q := fun q => by rw [← hu]; rfl
  clear hu
  obtain ⟨h1, h2, h3⟩ := u.seqDealt_fields p hid
  generalize u.seqDealt p hid = v at *
  unfold State.onlyRegs at h1
  have hc : ∀ q, v.core q = u.core q := fun q => by rw [h1]; rfl
  refine ⟨ht.trans ?_, (hc p).trans hcp, h3, fun q hq => ⟨(hc q).trans (hcq q hq), (h2 _ _ _ (seqDealKeys_apart hq)).trans (hr q)⟩⟩
  rw [h1]
  exact ⟨rfl, rfl, rfl, rfl, rfl⟩

theorem State.pageTile_books (s : State) (a : Nat) : s.books (s.pageTile a).1 := s.wordErrors_books _ _ _

/-- Bookkeeping step by step, with a result collected beside it. -/
theorem State.books.foldl_fst {α β : Type} {f : State × β → α → State × β} (h : ∀ (x : State × β) (a : α), x.1.books (f x a).1) (l : List α) :
    ∀ x : State × β, x.1.books (l.foldl f x).1 := by
  induction l with
  | nil => exact fun x => .refl x.1
  | cons a l ih => exact fun x => (h x a).trans (ih _)

theorem State.readPage_books (s : State) (im : Image) (e : StreamEnt) (page : Nat) : s.books (s.readPage im e page).1 :=
  State.books.foldl_fst (f := fun (acc : State × Option PageFault) a => ((acc.1.pageTile a).1, acc.2 <|> (acc.1.pageTile a).2))
    (fun x a => x.1.pageTile_books a) _ (s, none)

theorem State.firstPages_books (s : State) (im : Image) (e : StreamEnt) : s.books (s.firstPages im e).1 :=
  State.books.foldl_fst (fun (x : State × List Frame) i => x.1.readPage_books im e i) _ (s, [])

/-- The member of one stream set up. -/
def State.setOne (s : State) (im : Image) (hid : Nat) (m : Member) (e : StreamEnt) : State :=
  match s.partOf e.core with
  | some p => (s.firstPages im e).1.setMember p { m with logical := e.core } hid e.res (s.firstPages im e).2
  | none => s

theorem State.setMembers_eq (s : State) (im : Image) (h : Hand) (m : Member) :
    s.setMembers im h m = h.streams.foldl (fun s e => s.setOne im h.hdr.handId m e) s := rfl

/-- Core `q` stands at the start of its stream, as member `m` up to its logical index, with its fault record clear. -/
def State.seated (s : State) (m : Member) (q : Nat) : Prop := (∃ l, (s.core q).fresh { m with logical := l }) ∧ s.rd R.SEQ_FAULT_CODE q = 0

/-- Core `q` has the resources of a stream. -/
def State.holdsRes (s : State) (q : Nat) (res : ResBlock) : Prop := (s.core q).queues = res.queues ∧ (s.core q).bounds = res.bounds

/-- One member set up: its core is seated, every core keeps its scratchpad, and the others stay. -/
theorem State.setOne_sets (s : State) (im : Image) (hid : Nat) (m : Member) (e : StreamEnt) :
    s.sameTable (s.setOne im hid m e) ∧
    (∀ q, ((s.setOne im hid m e).core q).spm = (s.core q).spm ∧ ((s.setOne im hid m e).core q).seals = (s.core q).seals) ∧
    (∀ q, s.partOf e.core = some q → (s.setOne im hid m e).seated m q ∧ (s.setOne im hid m e).holdsRes q e.res) ∧
    (∀ q, s.partOf e.core ≠ some q → (s.setOne im hid m e).core q = s.core q ∧
      (s.setOne im hid m e).rd R.SEQ_FAULT_CODE q = s.rd R.SEQ_FAULT_CODE q) := by
  unfold State.setOne
  cases hp : s.partOf e.core with
  | none => exact ⟨⟨rfl, rfl, rfl, rfl, rfl⟩, fun _ => ⟨rfl, rfl⟩, fun q h => absurd h (by simp), fun _ _ => ⟨rfl, rfl⟩⟩
  | some p =>
    have hb := s.firstPages_books im e
    dsimp only
    generalize (s.firstPages im e).1 = u at *
    generalize (s.firstPages im e).2 = fr
    have hu : ∀ q, u.core q = s.core q := fun q => by
      unfold State.core
      rw [hb.cores]
    have hr : ∀ q, u.rd R.SEQ_FAULT_CODE q = s.rd R.SEQ_FAULT_CODE q := fun q => hb.timed.2.1 q
    obtain ⟨h1, h2, h3, h4⟩ := u.setMember_sets p { m with logical := e.core } hid e.res fr
    obtain ⟨g1, g2, g3, g4, g5⟩ := Core.dealt_fresh (u.core p) { m with logical := e.core } e.res fr u.tick
    rw [← h2] at g1 g2 g3 g4 g5
    generalize u.setMember p { m with logical := e.core } hid e.res fr = v at *
    refine ⟨hb.sameTable.trans h1, fun q => ?_, fun q hq => ?_, fun q hq => ?_⟩
    · by_cases hq : q = p
      · subst hq
        rw [g2, g3, hu]
        exact ⟨rfl, rfl⟩
      · rw [(h4 q hq).1, hu]
        exact ⟨rfl, rfl⟩
    · obtain rfl := Option.some.inj hq
      exact ⟨⟨⟨e.core, g1⟩, h3⟩, g4, g5⟩
    · have hq : q ≠ p := fun h => hq (by rw [h])
      exact ⟨(h4 q hq).1.trans (hu q), (h4 q hq).2.trans (hr q)⟩

/-- Members set up: every core of a stream is seated, with the resources of its stream where that is the only one. -/
theorem State.setMany_sets (im : Image) (hid : Nat) (m : Member) (es : List StreamEnt) : ∀ s : State,
    let t := es.foldl (fun s e => s.setOne im hid m e) s
    s.sameTable t ∧ (∀ q, (t.core q).spm = (s.core q).spm ∧ (t.core q).seals = (s.core q).seals) ∧
    (∀ q, (∃ e ∈ es, s.partOf e.core = some q) ∨ s.seated m q → t.seated m q) ∧
    (∀ q e, (∀ e' ∈ es, s.partOf e'.core = some q → e' = e) → (e ∈ es ∧ s.partOf e.core = some q) ∨ s.holdsRes q e.res →
      t.holdsRes q e.res) := by
  induction es with
  | nil =>
    exact fun s => ⟨⟨rfl, rfl, rfl, rfl, rfl⟩, fun _ => ⟨rfl, rfl⟩, fun q h => h.resolve_left (fun ⟨_, h, _⟩ => List.not_mem_nil h),
      fun q e _ h => h.resolve_left (fun ⟨h, _⟩ => List.not_mem_nil h)⟩
  | cons a es ih =>
    intro s
    obtain ⟨h1, h2, h3, h4⟩ := s.setOne_sets im hid m a
    obtain ⟨g1, g2, g3, g4⟩ := ih (s.setOne im hid m a)
    have hpart := h1.partOf
    rw [List.foldl_cons]
    generalize s.setOne im hid m a = u at *
    simp only [hpart] at g3 g4
    refine ⟨h1.trans g1, fun q => ⟨(g2 q).1.trans (h2 q).1, (g2 q).2.trans (h2 q).2⟩, fun q h => g3 q ?_, fun q e hall h => g4 q e ?_ ?_⟩
    · by_cases ha : s.partOf a.core = some q
      · exact .inr (h3 q ha).1
      · refine h.imp (fun ⟨e, he, hq⟩ => ⟨e, (List.mem_cons.1 he).resolve_left (fun h => ha (h ▸ hq)), hq⟩) (fun h => ?_)
        unfold State.seated
        rw [(h4 q ha).1, (h4 q ha).2]
        exact h
    · exact fun e' he' hq => hall e' (List.mem_cons_of_mem _ he') hq
    · by_cases ha : s.partOf a.core = some q
      · rw [← hall a List.mem_cons_self ha]
        exact .inr (h3 q ha).2
      · refine h.imp (fun ⟨he, hq⟩ => ⟨(List.mem_cons.1 he).resolve_left (fun h => ha (h ▸ hq)), hq⟩) (fun h => ?_)
        unfold State.holdsRes
        rw [(h4 q ha).1]
        exact h

/-! ## Members dealt, and what changes nothing of it -/

/-- The members of a hand are dealt once set up. -/
theorem State.setMembers_dealt (s : State) (im : Image) (h : Hand) (m : Member) (hm : m.started = false) :
    s.sameTable (s.setMembers im h m) ∧ MembersDealt s (s.setMembers im h m) m.group m.hand m.number m.serial m.dealAt h := by
  rw [State.setMembers_eq]
  obtain ⟨h1, h2, h3, h4⟩ := State.setMany_sets im h.hdr.handId m h.streams s
  generalize h.streams.foldl _ s = t at *
  refine ⟨h1, fun e he p hp => ?_⟩
  obtain ⟨⟨l, f1, f2, f3, f4, f5, f6, f7, f8, f9, f10⟩, hr⟩ := h3 p (.inl ⟨e, he, hp⟩)
  exact ⟨⟨_, f1, rfl, rfl, rfl, rfl, rfl, hm⟩, f2, f3, f4, f5, f6, f7, f8, f9, f10, (h2 p).1, (h2 p).2,
    fun hall => h4 p e hall (.inl ⟨he, hp⟩), hr⟩

/-- Deal times and bookkeeping leave dealt members as they are. -/
theorem MembersDealt.timed {s t u : State} {g i n serial tm : Nat} {h : Hand} (hd : MembersDealt s t g i n serial tm h) (ht : t.timed u) :
    MembersDealt s u g i n serial tm h := by
  obtain ⟨hc, hr, -⟩ := ht
  intro e he p hp
  have hd := hd e he p hp
  rw [hc p, hr p]
  exact hd

/-- A deal told from a state with the same maps and the same scratchpads. -/
theorem MembersDealt.of_like {s s' t : State} {g i n serial tm : Nat} {h : Hand} (hd : MembersDealt s' t g i n serial tm h)
    (hf : s'.flt = s.flt) (hc : s'.cores = s.cores) : MembersDealt s t g i n serial tm h := by
  have hp : ∀ i, s'.partOf i = s.partOf i := fun i => by
    unfold State.partOf State.jmap
    rw [hf]
  have hcore : ∀ p, s'.core p = s.core p := fun p => by
    unfold State.core
    rw [hc]
  unfold MembersDealt at *
  simpa only [hp, hcore] using hd

end Sys2Proof.Machine
end

-- ==== Hands dealt ====
section
/-! PROOFS. Deal times given (R310, R322, R324), a hand dealt (R47), and a deal that a DEAL flit named (R321). -/

namespace Sys2Proof.Machine

/-! ## Deal times given -/

section
variable {s t : State}

/-- A core whose deal time or dummy load changes. -/
theorem State.timed.onCore (h : s.timed t) (p : Nat) {f : Core → Core}
    (hf : ∀ c, f c = { c with resumeAt := (f c).resumeAt, dummy := (f c).dummy }) : s.timed (t.onCore p f) := by
  refine h.trans ⟨fun q => ?_, fun _ => rfl, rfl, rfl, rfl⟩
  rw [State.core_onCore]
  split_ifs with hq
  · rw [hq]
    exact hf _
  · rfl

/-- A field written that is no core's fault code. -/
theorem State.timed.wr (h : s.timed t) {f : Fld} {i : Nat} (v : Nat) (hf : ∀ q, R.SEQ_FAULT_CODE.key q 0 ≠ f.key i 0) : s.timed (t.wr f v i) :=
  h.trans ⟨fun _ => rfl, fun q => State.rd_wr_ne _ _ _ _ _ _ _ _ (hf q), rfl, rfl, rfl⟩

end

/-- The sequencer pages lie apart from those of the matrix engines, the trick logic and the load vote. -/
theorem faultCode_apart {f : Fld} (hf : f ∈ [R.MXU_BURN_LO, R.MXU_BURN_HI, R.TRK_CNT_LATE, R.XPK_VOTED_LO, R.XPK_VOTED_HI, R.XPK_LOAD_STATE])
    (p q : Nat) : R.SEQ_FAULT_CODE.key q 0 ≠ f.key p 0 := by
  obtain ⟨hb, ho, hs, hl⟩ : f.blk ∈ [Block.mxu, .trk, .xpk] ∧ f.off < 0x1000 ∧ f.stride = 0 ∧ f.lsb < 32 := by
    revert f
    decide
  simp only [List.mem_cons, List.not_mem_nil, or_false] at hb
  unfold Fld.key
  rw [hs]
  rcases hb with hb | hb | hb <;> rw [hb] <;> simp only [Block.page, R.SEQ_FAULT_CODE] <;> omega

theorem State.burned_timed (s : State) (p : Nat) : s.timed (s.burned p) := by
  unfold State.burned
  split_ifs
  · exact .refl s
  · have hn : s.timed s.freshNat.2 := ⟨fun _ => rfl, fun _ => rfl, rfl, rfl, rfl⟩
    exact ((hn.wr _ (faultCode_apart (by simp) p)).wr _ (faultCode_apart (by simp) p)).trans (State.tally_books _ _ _ _).timed

theorem State.setLevel_timed (s : State) (p : Nat) : s.timed (s.setLevel p) := by
  unfold State.setLevel
  split
  · exact (s.burned_timed p).onCore p (fun _ => rfl)
  · exact .refl s

/-- Dummy loads concern no group. -/
theorem State.setLevel_groups (s : State) (p : Nat) : (s.setLevel p).groups = s.groups := by
  unfold State.setLevel State.burned
  split
  · split_ifs
    · rfl
    · rfl
  · rfl

/-- The deal time given to one member. -/
def State.deliverTo (s : State) (p : Nat) (u : Int) : State := (s.onCore p (fun c => { c with resumeAt := some u })).setLevel p

theorem State.deliverTo_timed (s : State) (p : Nat) (u : Int) : s.timed (s.deliverTo p u) :=
  ((State.timed.refl s).onCore p (fun _ => rfl)).trans (State.setLevel_timed _ p)

theorem State.deliverTo_groups (s : State) (p : Nat) (u : Int) : (s.deliverTo p u).groups = s.groups := State.setLevel_groups _ p

/-- A deal time given to the members of a dealing with that deal time. -/
theorem State.deliver_gives {s : State} {g t : Nat} {d : Dealing} (hd : (s.group g).dealing = some d) (ht : d.dealAt = t) :
    s.timed (s.deliver g t) ∧ (s.deliver g t).group g = s.group g := by
  unfold State.deliver
  simp only [hd]
  generalize hv : List.foldl _ (s.bumpBy R.TRK_CNT_LATE _) _ = v
  have given : s.timed v := by
    rw [← hv]
    exact ((State.timed.refl s).wr _ (faultCode_apart (by simp) 0)).trans (.foldl (fun u p => u.deliverTo_timed p _) _ _)
  have kept : v.groups = s.groups := by
    rw [← hv]
    exact foldl_kept State.groups (fun u p => u.deliverTo_groups p _) _ _
  clear hv
  have noted : v.timed (v.onGroup g (fun x => { x with dealing := some { d with dealAt := t } })) := ⟨fun _ => rfl, fun _ => rfl, rfl, rfl, rfl⟩
  have hg : (v.onGroup g (fun x => { x with dealing := some { d with dealAt := t } })).group g = s.group g := by
    have hx : ({ s.group g with dealing := some { d with dealAt := t } } : Group) = s.group g := by
      rw [← ht, ← hd]
    have hs : v.group g = s.group g := by
      unfold State.group
      rw [kept]
    rw [State.group_onGroup_same, hs]
    exact hx
  generalize v.onGroup g (fun x => { x with dealing := some { d with dealAt := t } }) = w at *
  exact ⟨(given.trans noted).trans (State.useBid_books _ _ _).timed, ((State.useBid_books _ _ _).sameTable.group g).trans hg⟩

theorem State.giveTime_gives {s : State} {g t : Nat} {d : Dealing} (hd : (s.group g).dealing = some d) (ht : d.dealAt = t) :
    s.timed (s.giveTime g t) ∧ (s.giveTime g t).group g = s.group g := by
  unfold State.giveTime
  split_ifs
  · exact ⟨⟨fun _ => rfl, fun _ => rfl, rfl, rfl, rfl⟩, rfl⟩
  · exact State.deliver_gives hd ht

/-! ## Hands dealt (R47) -/

theorem State.wakeDie_keeps (s : State) (d : Nat) : s.timed (s.wakeDie d) ∧ s.sameTable (s.wakeDie d) :=
  ⟨⟨fun _ => rfl, fun _ => rfl, rfl, rfl, rfl⟩, rfl, rfl, rfl, rfl, rfl⟩

/-- Dies woken. -/
theorem State.wakeDies_keep (ds : List Nat) (s : State) : s.timed (ds.foldl (fun s d => s.wakeDie d) s) ∧
    s.sameTable (ds.foldl (fun s d => s.wakeDie d) s) :=
  ⟨.foldl (fun u d => (u.wakeDie_keeps d).1) ds s, .foldl (fun u d => (u.wakeDie_keeps d).2) ds s⟩

/-- A group dealt: hand `i` of header `h` with a number, a serial and a deal time. -/
def Group.dealtAs (x : Group) (i n serial tm : Nat) (parts : List Nat) : Prop :=
  (∃ d, x.dealing = some d ∧ d.hand = i ∧ d.number = n ∧ d.trick = 0 ∧ d.dealAt = tm ∧ d.parts = parts) ∧ x.serial = serial ∧ x.asked = none

/-- A group that takes a dealing (R47). -/
def Group.taking (x : Group) (serial : Nat) (d : Dealing) : Group :=
  { x with serial := serial, st := .dealing, sentUp := false, asked := none, owed := false, need := 0, abort := none, pull := [],
           kids := if x.asked.isSome then x.kids else [], dealing := some d }

/-- A kind of hand dealt last (R412). -/
def State.noteDealt (s : State) (kind : Nat) : State := { s with dealt := SMap.set 0 s.dealt kind (s.stamp + 1), stamp := s.stamp + 1 }

/-- A group with a dealing, and its members given their deal time. -/
theorem State.taken_gives (s : State) (g kind serial t : Nat) (d : Dealing) (ht : d.dealAt = t) :
    s.timed (((s.onGroup g (fun x => x.taking serial d)).noteDealt kind).giveTime g t) ∧
    (((s.onGroup g (fun x => x.taking serial d)).noteDealt kind).giveTime g t).group g = (s.group g).taking serial d := by
  have hg : ((s.onGroup g (fun x => x.taking serial d)).noteDealt kind).group g = (s.group g).taking serial d :=
    State.group_onGroup_same s g (fun x => x.taking serial d)
  have hs : s.timed ((s.onGroup g (fun x => x.taking serial d)).noteDealt kind) := ⟨fun _ => rfl, fun _ => rfl, rfl, rfl, rfl⟩
  generalize (s.onGroup g (fun x => x.taking serial d)).noteDealt kind = u at *
  obtain ⟨h1, h2⟩ := State.giveTime_gives (s := u) (g := g) (d := d) (by rw [hg]; rfl) ht
  exact ⟨hs.trans h1, h2.trans hg⟩

/-- A hand dealt: its members are set up and its group has the dealing. -/
theorem State.dealHand_deals (s : State) (im : Image) (i : Nat) (h : Hand) (serial t : Nat) (rs : List (Req × List Byte)) :
    MembersDealt s (s.dealHand im i h serial t rs) h.hdr.group i (s.count i) serial t h ∧
    ((s.dealHand im i h serial t rs).group h.hdr.group).dealtAs i (s.count i) serial t (s.partsOf h.hdr) ∧
    (s.dealHand im i h serial t rs).ports = s.ports ∧ (s.dealHand im i h serial t rs).image = s.image ∧
    (s.dealHand im i h serial t rs).trickIn = s.trickIn := by
  unfold State.dealHand
  dsimp only
  generalize hu : State.writeRecord _ h.hdr.group h.hdr _ = u
  have hb : s.books u := by
    rw [← hu]
    exact (State.books.ite ((s.writeBatch_books _ _ _ _ _).trans (State.enter_books _ _)) (.refl s)).trans (State.writeRecord_books _ _ _ _)
  clear hu
  generalize (List.range 64).map (fun k => (s.wslot k).epoch) = eps
  generalize (if decide (h.hdr.cls ≤ 1) && (s.parentPort h.hdr.group).isNone then shares s 0 (rs.map (·.1)) else []) = bs
  obtain ⟨h1, h2⟩ := u.setMembers_dealt im h ⟨h.hdr.group, serial, i, s.count i, 0, t, false, eps⟩ rfl
  have h2 := h2.of_like hb.flt hb.cores
  have h1 := hb.sameTable.trans h1
  generalize u.setMembers im h ⟨h.hdr.group, serial, i, s.count i, 0, t, false, eps⟩ = v at *
  obtain ⟨w1, w2⟩ := State.wakeDies_keep h.touches v
  generalize h.touches.foldl (fun s d => s.wakeDie d) v = w at *
  have gb := w.giveSlots_books h.hdr.group serial h.hdr.handId
  generalize w.giveSlots h.hdr.group serial h.hdr.handId = x at *
  have timed : v.timed x := w1.trans gb.timed
  obtain ⟨-, tp, ti, tt, -⟩ := (h1.trans w2).trans gb.sameTable
  obtain ⟨y1, y2⟩ := x.taken_gives h.hdr.group h.hdr.kind serial t (x.startPhase ⟨i, s.count i, t, 0, s.partsOf h.hdr, eps, bs, 0, 0, 0, 0⟩) rfl
  generalize hz : State.giveTime _ h.hdr.group t = z
  have given : x.timed z ∧ z.group h.hdr.group = (x.group h.hdr.group).taking serial
      (x.startPhase ⟨i, s.count i, t, 0, s.partsOf h.hdr, eps, bs, 0, 0, 0, 0⟩) := by
    rw [← hz]
    exact ⟨y1, y2⟩
  clear hz y1 y2
  obtain ⟨z1, z2⟩ := given
  generalize hr : (if (s.group h.hdr.group).owed then z.autos else z) = r
  have settled : z.timed r ∧ r.group h.hdr.group = z.group h.hdr.group := by
    rw [← hr]
    split_ifs
    · exact ⟨z.autos_books.timed, z.autos_books.sameTable.group _⟩
    · exact ⟨.refl z, rfl⟩
  clear hr
  obtain ⟨r1, r2⟩ := settled
  have all := (timed.trans z1).trans r1
  obtain ⟨-, -, rp, ri, rt⟩ := z1.trans r1
  refine ⟨h2.timed all, ?_, rp.trans tp, ri.trans ti, rt.trans tt⟩
  rw [r2, z2]
  exact ⟨⟨_, rfl, rfl, rfl, rfl, rfl, rfl⟩, rfl, rfl⟩

/-! ## Votes (R338) -/

/-- A vote changes the group's vote and the registers of the load alone. -/
theorem State.vote_keeps (s : State) (g : Nat) : s.timed (s.vote g) ∧ ∀ k, (s.vote g).group k = { s.group k with voted := ((s.vote g).group k).voted } := by
  have noted : s.timed (s.onGroup g (fun x => { x with voted := true })) := ⟨fun _ => rfl, fun _ => rfl, rfl, rfl, rfl⟩
  have group : ∀ (k : Nat) (u : State), u.groups = (s.onGroup g (fun x => { x with voted := true })).groups →
      u.group k = { s.group k with voted := (u.group k).voted } := fun k u hu => by
    have e : u.group k = (s.onGroup g (fun x => { x with voted := true })).group k := by
      unfold State.group
      rw [hu]
    rw [e, State.group_onGroup]
    split_ifs with h
    · rw [h]
    · rfl
  unfold State.vote
  dsimp only
  generalize s.onGroup g (fun x => { x with voted := true }) = u at *
  have paired : s.timed (u.wrPair R.XPK_VOTED_LO R.XPK_VOTED_HI (u.rdPair R.XPK_VOTED_LO R.XPK_VOTED_HI ||| 2 ^ g)) :=
    (noted.wr _ (faultCode_apart (by simp) 0)).wr _ (faultCode_apart (by simp) 0)
  have same : (u.wrPair R.XPK_VOTED_LO R.XPK_VOTED_HI (u.rdPair R.XPK_VOTED_LO R.XPK_VOTED_HI ||| 2 ^ g)).groups = u.groups := rfl
  generalize u.wrPair R.XPK_VOTED_LO R.XPK_VOTED_HI (u.rdPair R.XPK_VOTED_LO R.XPK_VOTED_HI ||| 2 ^ g) = v at *
  split_ifs
  · exact ⟨paired.wr _ (faultCode_apart (by simp) 0), fun k => group k _ same⟩
  · exact ⟨paired, fun k => group k _ same⟩

end Sys2Proof.Machine
end

-- ==== Deals chosen ====
section
/-! PROOFS. The choice of the next hand (R411, R412, R429), the prompts of its dealing (R391), and the deals of the dealer (R319, R321). -/

namespace Sys2Proof.Machine

/-! ## Ranks (R412) -/

/-- No candidate ranks before one that ranks before it. -/
theorem State.before_asymm {s : State} {a b : Cand} (h : s.before a b = true) : s.before b a = false := by
  unfold State.before at *
  by_cases hp : s.prio a.1 = s.prio b.1
  · by_cases hd : SMap.get 0 s.dealt a.1 = SMap.get 0 s.dealt b.1
    · simp [hp, hd] at h ⊢
      omega
    · simp [hp, hd, Ne.symm hd] at h ⊢
      omega
  · simp [hp, Ne.symm hp] at h ⊢
    omega

theorem State.mem_rank {s : State} {x : Cand} : ∀ cs : List Cand, x ∈ s.rank cs → x ∈ cs := by
  intro cs
  induction cs with
  | nil => exact id
  | cons c cs ih =>
    intro h
    simp only [State.rank, List.mem_append, List.mem_filter, List.mem_singleton] at h
    rcases h with (h | h) | h
    · exact List.mem_cons_of_mem _ (ih h.1)
    · exact h ▸ List.mem_cons_self
    · exact List.mem_cons_of_mem _ (ih h.1)

/-- The candidate that ranks before every other one comes first. -/
theorem State.rank_first {s : State} {c : Cand} (cs : List Cand) (hc : c ∈ cs) (hb : ∀ x ∈ cs, x ≠ c → s.before c x = true) :
    ∃ rest, s.rank cs = c :: rest := by
  have irrefl : s.before c c = false := Bool.eq_false_iff.2 (fun h => absurd ((State.before_asymm h).symm.trans h) (by decide))
  induction cs with
  | nil => exact absurd hc List.not_mem_nil
  | cons a cs ih =>
    by_cases ha : a = c
    · subst ha
      have hn : (s.rank cs).filter (fun x => s.before x a) = [] := List.filter_eq_nil_iff.2 (fun x hx => by
        by_cases hxa : x = a
        · rw [hxa, irrefl]
          decide
        · rw [State.before_asymm (hb x (List.mem_cons_of_mem _ (State.mem_rank _ hx)) hxa)]
          decide)
      unfold State.rank
      dsimp only
      rw [hn]
      exact ⟨_, rfl⟩
    · obtain ⟨rest, hr⟩ := ih ((List.mem_cons.1 hc).resolve_left (fun h => ha h.symm)) (fun x hx => hb x (List.mem_cons_of_mem _ hx))
      unfold State.rank
      dsimp only
      rw [hr, List.filter_cons_of_pos (p := fun x => s.before x a) (hb a List.mem_cons_self ha)]
      exact ⟨_, rfl⟩

/-- The first candidate is taken when nothing is in progress or the account admits it (R429). -/
theorem State.firstAdmitted_head {s : State} {c : Cand} {cs : List Cand} {h : Hand} (hh : s.handAt c.2 = some h)
    (ha : s.dealings = [] ∨ s.admits h.hdr = true) : s.firstAdmitted (c :: cs) = (some c, s) := by
  unfold State.firstAdmitted
  rw [hh]
  exact if_pos (by rcases ha with ha | ha <;> simp [ha])

/-! ## Candidates (R411) and prompts (R391) -/

theorem State.boundaryEnds_books (s : State) : s.books s.boundaryEnds :=
  .ite (.foldl (fun t _ => .ite ((t.endAtBoundary_books _).trans (State.pauseUnpaid_books _ _)) (.refl t)) _ s) (.refl s)

/-- A candidate of the image is a hand that may be dealt. -/
theorem State.candidate_of_mem {s : State} {pick : List Nat} {i : Nat} {h : Hand} (hh : s.handAt i = some h) (hi : i ≠ checkHand)
    (hc : (h.hdr.kind, i) ∈ s.dealCands pick) : s.candidate i h pick = true := by
  rcases List.mem_append.1 hc with hc | hc
  · obtain ⟨⟨x, k⟩, hx, he⟩ := List.mem_map.1 hc
    obtain ⟨hx, hcand⟩ := List.mem_filter.1 hx
    have hk : k = i := congrArg (fun c : Cand => c.2) he
    subst hk
    have hat : s.handAt k = some x := by
      have h := List.mem_zipIdx_iff_getElem?.1 hx
      unfold State.hands at h
      unfold State.handAt
      cases hi : s.image with
      | none => simp [hi] at h
      | some im => simpa [hi] using h
    obtain rfl := Option.some.inj (hat.symm.trans hh)
    exact hcand
  · split at hc
    · exact absurd (congrArg (fun c : Cand => c.2) (List.mem_singleton.1 hc)) hi
    · exact absurd hc List.not_mem_nil

/-- Prompts in device memory are read, and none are needed for a decode. -/
theorem State.readPrompts_all (rs : List Req) : ∀ s : State, (∀ r ∈ rs, r.decoding = true ∨ r.entry.promptSpace = 1) →
    s.books (s.readPrompts rs).2 ∧ ((s.readPrompts rs).1).map (fun x => x.1) = rs := by
  induction rs with
  | nil => exact fun s _ => ⟨.refl s, rfl⟩
  | cons r rs ih =>
    intro s hr
    have hrs := fun x hx => hr x (List.mem_cons_of_mem _ hx)
    unfold State.readPrompts
    by_cases hd : r.decoding = true
    · rw [if_pos hd]
      obtain ⟨h1, h2⟩ := ih s hrs
      exact ⟨h1, by rw [List.map_cons, h2]⟩
    · have hp : r.entry.promptSpace = 1 := (hr r List.mem_cons_self).resolve_left hd
      rw [if_neg hd]
      unfold State.promptTokens
      rw [if_pos hp]
      obtain ⟨h1, h2⟩ := ih (s.dealerRead (r.entry.promptAddr + 4 * r.prompt) (4 * r.rows)).2 hrs
      exact ⟨(s.dealerRead_books _ _).trans h1, by rw [List.map_cons, h2]⟩

/-! ## The dealer's deal (R47, R319) -/

section
variable {s : State} {pick : List Nat} {need extra : Nat} {im : Image}

/-- A hand that a DEAL named is dealt before any other (R321). -/
theorem State.deal_asked {g : Nat} (hd : s.dealerUp = true) (hg : g < 64) (ha : (s.askedHand g).isSome = true)
    (hn : ∀ o < g, s.askedHand o = none) : s.deal pick need extra = s.dealAsked g := by
  have hf : (List.range 64).find? (fun g => (s.askedHand g).isSome) = some g :=
    List.find?_range_eq_some.2 ⟨ha, List.mem_range.2 hg, fun j hj => by rw [hn j hj]; rfl⟩
  unfold State.deal
  simp only [hd, hf]
  rfl

/-- The deal of the candidate that ranks first. -/
theorem State.deal_chosen {i : Nat} {h : Hand} (hd : s.dealerUp = true) (him : s.image = some im) (hn : ∀ g < 64, s.askedHand g = none)
    (hh : s.handAt i = some h) (hi : i ≠ checkHand) (hc : (h.hdr.kind, i) ∈ s.boundaryEnds.dealCands pick)
    (hb : ∀ c ∈ s.boundaryEnds.dealCands pick, c ≠ (h.hdr.kind, i) → s.boundaryEnds.before (h.hdr.kind, i) c = true)
    (ha : s.boundaryEnds.dealings = [] ∨ s.boundaryEnds.admits h.hdr = true) :
    s.deal pick need extra =
      if 2 ≤ h.hdr.cls then s.boundaryEnds.dealOwn im i h [] need extra
      else
        match (s.boundaryEnds.pauseLeft h.hdr pick).readPrompts (s.boundaryEnds.compose h.hdr pick) with
        | ([], s3) => s3
        | (rs, s3) => s3.dealOwn im i h rs need extra := by
  have hf : (List.range 64).find? (fun g => (s.askedHand g).isSome) = none :=
    List.find?_eq_none.2 (fun g hg => by rw [hn g (List.mem_range.1 hg)]; decide)
  have e : s.deal pick need extra =
      match s.boundaryEnds.firstAdmitted (s.boundaryEnds.rank (s.boundaryEnds.dealCands pick)) with
      | (none, s2) => s2
      | (some c, s2) =>
        if c.2 = checkHand then
          match s2.checkPart with
          | some p => s2.dealCheck p need extra
          | none => s2
        else
          match s2.image, s2.handAt c.2 with
          | some im, some h =>
            if 2 ≤ h.hdr.cls then s2.dealOwn im c.2 h [] need extra
            else
              match (s2.pauseLeft h.hdr pick).readPrompts (s2.compose h.hdr pick) with
              | ([], s3) => s3
              | (rs, s3) => s3.dealOwn im c.2 h rs need extra
          | _, _ => s2 := by
    unfold State.deal
    simp only [hd, hf]
    rfl
  have hu := s.boundaryEnds_books
  generalize s.boundaryEnds = u at *
  have hh' : u.handAt i = some h := by
    unfold State.handAt
    rw [hu.image]
    exact hh
  obtain ⟨rest, hr⟩ := State.rank_first (u.dealCands pick) hc hb
  rw [e, hr, State.firstAdmitted_head hh' ha]
  simp only [hi, if_false, hu.image.trans him, hh']

/-- The deal of the candidate that ranks first, after bookkeeping (for prompts in device memory). -/
theorem State.deal_deals {i : Nat} {h : Hand} (hd : s.dealerUp = true) (him : s.image = some im) (hn : ∀ g < 64, s.askedHand g = none)
    (hh : s.handAt i = some h) (hi : i ≠ checkHand) (hc : (h.hdr.kind, i) ∈ s.boundaryEnds.dealCands pick)
    (hb : ∀ c ∈ s.boundaryEnds.dealCands pick, c ≠ (h.hdr.kind, i) → s.boundaryEnds.before (h.hdr.kind, i) c = true)
    (ha : s.boundaryEnds.dealings = [] ∨ s.boundaryEnds.admits h.hdr = true)
    (hp : h.hdr.cls ≤ 1 → ∀ r ∈ s.boundaryEnds.compose h.hdr pick, r.decoding = true ∨ r.entry.promptSpace = 1) :
    ∃ u rs, s.boundaryEnds.books u ∧ s.deal pick need extra = u.dealOwn im i h rs need extra := by
  have hu := s.boundaryEnds_books
  rw [State.deal_chosen hd him hn hh hi hc hb ha]
  generalize s.boundaryEnds = u at *
  have hcand := State.candidate_of_mem (s := u) (by unfold State.handAt; rw [hu.image]; exact hh) hi hc
  by_cases hcls : 2 ≤ h.hdr.cls
  · rw [if_pos hcls]
    exact ⟨u, [], .refl u, rfl⟩
  · rw [if_neg hcls]
    obtain ⟨h1, h2⟩ := State.readPrompts_all (u.compose h.hdr pick) (u.pauseLeft h.hdr pick) (hp (by omega))
    have hwork : u.compose h.hdr pick ≠ [] := by
      unfold State.candidate State.hasWork at hcand
      simp [hcls] at hcand
      exact hcand.2.2
    have hbk := (u.pauseLeft_books h.hdr pick).trans h1
    cases hx : (u.pauseLeft h.hdr pick).readPrompts (u.compose h.hdr pick) with
    | mk rs v =>
      rw [hx] at h2 hbk
      cases rs with
      | nil => exact absurd h2.symm hwork
      | cons r rs => exact ⟨v, r :: rs, hbk, rfl⟩

end

/-- The DEAL flit of a dealing (R321). -/
def dealFlit (g serial tm hid : Nat) : TrickFlit := { TrickFlit.plain 3 g serial with t := tm, handId := hid }

theorem Group.dealtAs.voted {x : Group} {i n serial tm : Nat} {parts : List Nat} (h : x.dealtAs i n serial tm parts) (v : Bool) :
    ({ x with voted := v } : Group).dealtAs i n serial tm parts := h

/-- The dealer's own deal: members, dealing, and DEAL to the children. -/
theorem State.dealOwn_deals (s : State) (im : Image) (i : Nat) (h : Hand) (rs : List (Req × List Byte)) (need extra : Nat) :
    let g := h.hdr.group
    let tm := s.time + s.margin g + max need (s.group g).need + extra
    let serial := nextSerial (s.group g).serial
    let t := s.dealOwn im i h rs need extra
    MembersDealt s t g i (s.count i) serial tm h ∧ (t.group g).dealtAs i (s.count i) serial tm (s.partsOf h.hdr) ∧
    ∀ c ∈ s.childPorts g, (t.port c).tricks = (s.port c).tricks ++ [(dealFlit g serial tm h.hdr.handId).flit] := by
  intro g tm serial t
  have hf := s.sendOn_frame (s.childPorts g) (dealFlit g serial tm h.hdr.handId)
  have htr := fun c => State.tricks_sendOn c (dealFlit g serial tm h.hdr.handId) (s.childPorts g) s (s.childPorts_nodup g)
  have ht : t = if (s.group g).serial = 0 ∧ (s.group g).voted = false ∧ s.multi g = true then
      ((s.sendOn (s.childPorts g) (dealFlit g serial tm h.hdr.handId)).dealHand im i h serial tm rs).vote g
    else (s.sendOn (s.childPorts g) (dealFlit g serial tm h.hdr.handId)).dealHand im i h serial tm rs := rfl
  generalize s.sendOn (s.childPorts g) (dealFlit g serial tm h.hdr.handId) = u at *
  clear_value t tm serial
  obtain ⟨h1, h2, h3, -, -⟩ := u.dealHand_deals im i h serial tm rs
  generalize u.dealHand im i h serial tm rs = v at *
  have hcount : u.count i = s.count i := by rw [hf]; rfl
  have hparts : u.partsOf h.hdr = s.partsOf h.hdr := by rw [hf]; rfl
  have hlike : MembersDealt s v g i (s.count i) serial tm h := by
    rw [hcount] at h1
    exact h1.of_like (by rw [hf]) (by rw [hf])
  rw [hcount, hparts] at h2
  have hv : v.timed t ∧ (t.group g).dealtAs i (s.count i) serial tm (s.partsOf h.hdr) := by
    rw [ht]
    obtain ⟨v1, v2⟩ := v.vote_keeps g
    split_ifs
    · refine ⟨v1, ?_⟩
      rw [v2 g]
      exact h2.voted _
    · exact ⟨.refl v, h2⟩
  obtain ⟨⟨v1, v2, v3, v4, v5⟩, hg⟩ := hv
  refine ⟨hlike.timed ⟨v1, v2, v3, v4, v5⟩, hg, fun c hc => ?_⟩
  have hp : t.port c = u.port c := by
    unfold State.port
    rw [v3, h3]
  rw [hp]
  exact (htr c).trans (if_pos hc)

/-! ## Deals that a DEAL flit names (R321) -/

section
variable {s : State}

/-- The hand that a DEAL named. -/
theorem State.askedHand_names {g i serial tm : Nat} {h : Hand} (ha : s.askedHand g = some (i, h, serial, tm)) :
    (s.group g).asked = some (h.hdr.handId, serial, tm) ∧ s.handAt i = some h ∧ h.hdr.group = g := by
  unfold State.askedHand at ha
  split at ha
  · next hid ser t hx =>
    split at ha
    · next k hk =>
      split at ha
      · next x hat =>
        split_ifs at ha with hr
        cases ha
        have hany := List.find?_some hk
        simp only [hat, Option.any_some, Bool.and_eq_true, beq_iff_eq] at hany
        rw [hx, hany.1]
        exact ⟨rfl, hat, hany.2⟩
      · cases ha
    · cases ha
  · cases ha

theorem State.dealAsked_deals {g i serial tm : Nat} {h : Hand} {im : Image} (him : s.image = some im)
    (ha : s.askedHand g = some (i, h, serial, tm)) : s.dealAsked g = s.dealHand im i h serial tm [] := by
  unfold State.dealAsked
  rw [him, ha]

/-- A DEAL either is remembered or has its hand dealt at once. -/
theorem State.dealAsked_cases (s : State) (g : Nat) : s.dealAsked g = s ∨
    ∃ im i h serial tm, s.askedHand g = some (i, h, serial, tm) ∧ s.dealAsked g = s.dealHand im i h serial tm [] := by
  cases him : s.image with
  | none =>
    left
    unfold State.dealAsked
    rw [him]
  | some im =>
    cases ha : s.askedHand g with
    | none =>
      left
      unfold State.dealAsked
      rw [him, ha]
    | some x =>
      obtain ⟨i, h, serial, tm⟩ := x
      exact .inr ⟨im, i, h, serial, tm, rfl, State.dealAsked_deals him ha⟩

theorem State.vote_cores (s : State) (g : Nat) : (s.vote g).cores = s.cores := by
  unfold State.vote
  dsimp only
  split_ifs
  · rfl
  · rfl

/-- A group to which a DEAL has come (R321). -/
def Group.askedBy (x : Group) (f : TrickFlit) : Group :=
  { x with serial := f.serial, st := .dealing, asked := some (f.handId, f.serial, f.t), kids := [], sentUp := false }

/-- A DEAL of the group's next serial: forwarded and noted (R321). -/
theorem State.onDeal_notes {port : Nat} {f : TrickFlit} (hp : s.parentPort f.group = some port)
    (hs : f.serial = nextSerial (s.group f.group).serial) (hb : (s.group f.group).busy = false) (ha : (s.group f.group).abort = none) :
    ∃ u : State, s.onDeal port f = u.dealAsked f.group ∧ u.trickIn = s.trickIn ∧ u.cores = s.cores ∧
      (u.group f.group).serial = f.serial ∧ (u.group f.group).asked = some (f.handId, f.serial, f.t) ∧
      (u.group f.group).dealing = (s.group f.group).dealing ∧
      ∀ c ∈ s.childPorts f.group, (u.port c).tricks = (s.port c).tricks ++ [f.flit] := by
  have hf := s.sendOn_frame (s.childPorts f.group) f
  have htr := fun c => State.tricks_sendOn c f (s.childPorts f.group) s (s.childPorts_nodup _)
  have e : s.onDeal port f = ((if f.serial = 1 ∧ (s.group f.group).voted = false then
      ((s.sendOn (s.childPorts f.group) f).onGroup f.group (fun x => x.askedBy f)).vote f.group
      else (s.sendOn (s.childPorts f.group) f).onGroup f.group (fun x => x.askedBy f)).dealAsked f.group) := by
    unfold State.onDeal
    exact if_neg (by simp [hp, ← hs, hb, ha])
  generalize s.sendOn (s.childPorts f.group) f = u at *
  have hu : u.trickIn = s.trickIn ∧ u.cores = s.cores ∧ u.group f.group = s.group f.group := by
    rw [hf]
    exact ⟨rfl, rfl, rfl⟩
  obtain ⟨u1, u2, u3⟩ := hu
  have hg : (u.onGroup f.group (fun x => x.askedBy f)).group f.group = (s.group f.group).askedBy f := by
    rw [State.group_onGroup_same, u3]
  have hport : ∀ v : State, v.ports = u.ports → ∀ c ∈ s.childPorts f.group, (v.port c).tricks = (s.port c).tricks ++ [f.flit] := fun v hv c hc => by
    have e : v.port c = u.port c := by
      unfold State.port
      rw [hv]
    rw [e]
    exact (htr c).trans (if_pos hc)
  refine ⟨_, e, ?_⟩
  have h1 : (u.onGroup f.group (fun x => x.askedBy f)).trickIn = s.trickIn := u1
  have h2 : (u.onGroup f.group (fun x => x.askedBy f)).cores = s.cores := u2
  have h3 : (u.onGroup f.group (fun x => x.askedBy f)).ports = u.ports := rfl
  generalize u.onGroup f.group (fun x => x.askedBy f) = v at *
  split_ifs
  · obtain ⟨⟨-, -, vp, -, vt⟩, vg⟩ := v.vote_keeps f.group
    refine ⟨vt.trans h1, (v.vote_cores _).trans h2, ?_, ?_, ?_, hport _ (vp.trans h3)⟩ <;> rw [vg, hg] <;> rfl
  · refine ⟨h1, h2, ?_, ?_, ?_, hport _ h3⟩ <;> rw [hg] <;> rfl

end

/-- What a deal reads of the trick table stays under bookkeeping. -/
theorem State.books.dealFacts {s u : State} (h : s.books u) (g i : Nat) : u.time = s.time ∧ u.margin g = s.margin g ∧
    u.group g = s.group g ∧ u.count i = s.count i ∧ u.childPorts g = s.childPorts g := by
  obtain ⟨-, hm, hc⟩ := not_bookKey_tree g
  refine ⟨by rw [h.1], ?_, h.sameTable.group g, ?_, ?_⟩
  · unfold State.margin
    rw [h.2 _ _ _ hm]
  · unfold State.count
    rw [h.done]
  · unfold State.childPorts
    rw [h.2 _ _ _ hc]

/-- Settles O26: what dealHand does, for a hand that a DEAL named, for the dealer's own choice and for a DEAL that comes. -/
theorem dealsStart : Obligations.DealsStart := by
  unfold Obligations.DealsStart
  refine ⟨fun s pick need extra im hd him => ⟨fun g i h serial tm hg ha hn => ?_, fun i h hn hh hi hc hb hadm hp => ?_⟩,
    fun s port f hd hf hk hp hs hb ha => ?_⟩
  · obtain ⟨-, -, hgr⟩ := State.askedHand_names ha
    have e := State.deal_asked (pick := pick) (need := need) (extra := extra) hd hg (by rw [ha]; rfl) hn
    refine ⟨s.dealHand im i h serial tm [], ?_⟩
    obtain ⟨h1, ⟨⟨d, h2, h3, h4, h5, h6, h7⟩, h8, h9⟩, -⟩ := s.dealHand_deals im i h serial tm []
    rw [hgr] at h1 h2 h8 h9
    exact ⟨d, congrArg Host.Outcome.next (e.trans (State.dealAsked_deals him ha)), h1, h2, h3, h4, h5, h6, h7, h8, h9⟩
  · obtain ⟨u, rs, hu, e⟩ := State.deal_deals (need := need) (extra := extra) hd him hn hh hi hc hb hadm hp
    have hbk := s.boundaryEnds_books.trans hu
    obtain ⟨ht, hm, hg, hc, hchild⟩ := hbk.dealFacts h.hdr.group i
    obtain ⟨h1, ⟨⟨d, h2, h3, h4, h5, h6, -⟩, h7, -⟩, h8⟩ := u.dealOwn_deals im i h rs need extra
    rw [ht, hm, hg, hc] at h1
    rw [ht, hm, hg] at h6
    rw [hc] at h4
    rw [hg] at h7
    rw [ht, hm, hg, hchild] at h8
    refine ⟨_, d, congrArg Host.Outcome.next e, h1.of_like hbk.flt hbk.cores, h2, h3, h4, h5, h6, h7, fun c hc => ?_⟩
    have hport : s.boundaryEnds.port c = u.port c := by
      unfold State.port
      rw [hu.ports]
    rw [hport]
    exact h8 c hc
  · obtain ⟨u, e, u1, u2, u3, u4, u5, u6⟩ := State.onDeal_notes (s := s.trickTaken port f) hp hs hb ha
    refine ⟨u.dealAsked f.group, congrArg Host.Outcome.next ((State.takeTrick_takes _ hd hf hk).trans e), ?_⟩
    rcases u.dealAsked_cases f.group with h | ⟨im, i, x, serial, tm, hask, h⟩
    · rw [h]
      exact ⟨u1, u3, u6, .inl ⟨u4, u5, u2⟩⟩
    · obtain ⟨a1, a2, a3⟩ := State.askedHand_names hask
      have named := Option.some.inj (u4.symm.trans a1)
      have hid : f.handId = x.hdr.handId := congrArg (fun y => y.1) named
      have hser : f.serial = serial := congrArg (fun y => y.2.1) named
      have htm : f.t = tm := congrArg (fun y => y.2.2) named
      obtain ⟨-, ⟨⟨d, g1, g2, -, g3, g4, -⟩, g5, g6⟩, g7, g8, g9⟩ := u.dealHand_deals im i x serial tm []
      rw [a3] at g1 g5 g6
      rw [h]
      have hdr : ((u.dealHand im i x serial tm []).dealHdr d).handId = f.handId := by
        unfold State.dealHdr
        unfold State.handAt at a2 ⊢
        rw [g8, g2, a2]
        exact hid.symm
      refine ⟨g9.trans u1, g5.trans hser.symm, fun c hc => ?_, .inr ⟨d, g1, g6, hdr, g3, g4.trans htm.symm⟩⟩
      have hport : (u.dealHand im i x serial tm []).port c = u.port c := by
        unfold State.port
        rw [g7]
      rw [hport]
      exact u6 c hc

end Sys2Proof.Machine
end

-- ==== Sequencer: loops, predicates and windows ====
section
/-! PROOFS. The sequencer's instructions that change their core alone or a register record: LOOP, ENDL, BRP, ADG, WOPEN, WCLOSE, MARK, HALT
and SETP (R89 to R96, R108). -/

namespace Sys2Proof.Machine

/-! ## Loops and branches (R89, R91) -/

/-- A sequencer instruction that changes its core alone: its effect on the core, with its signal. -/
theorem State.seqOp_onCore {s : State} {p : Nat} {o : Op} {w : Slot} {act : Slot → State → State} {c' : Core} (f : Core → Core)
    (h : s.runs p o w) (hact : act w s = s.onCore p f) (hf : f (s.core p) = c') :
    (s.seqOp p o act).regs = s.regs ∧ Signalled s (s.seqOp p o act) p w c' := by
  rw [State.seqOp_runs act h, hact, ← hf]
  exact (s.onCore_signalled p w f).symm

/-- The end of a pass: the next pass of the innermost loop, or its end (R89). -/
theorem Core.endLoop_cons {c : Core} {l : LoopLv} {ls : List LoopLv} (h : c.loops = l :: ls) (tick : Nat) :
    c.endLoop tick = if l.idx + 1 < l.count then { c.at' l.body tick with loops := ⟨l.body, l.endl, l.count, l.idx + 1⟩ :: ls }
      else { c.at' (c.pc + 32) tick with loops := ls } := by
  unfold Core.endLoop
  rw [h]
  rfl

/-- ENDL with no loop open goes on (log entry 10). -/
theorem Core.endLoop_nil {c : Core} (h : c.loops = []) (tick : Nat) : c.endLoop tick = c.at' (c.pc + 32) tick := by
  unfold Core.endLoop
  rw [h]
  rfl

/-- Where BRP continues (R91). -/
theorem Core.branch_eq (c : Core) (w : Slot) (tick : Nat) :
    c.branch w tick = c.at' (if c.pred w.destPred = w.brNeg then c.pc + 32 else ((c.pc : Int) + 32 * w.brOffset).toNat) tick := by
  unfold Core.branch
  by_cases h : c.pred w.destPred = w.brNeg
  · rw [if_pos h, h, bne_self_eq_false]
    rfl
  · rw [if_neg h, if_pos (bne_iff_ne.2 h)]
    rfl

/-- Settles O8: LOOP, ENDL and BRP change their core as `openLoop`, `endLoop` and `branch` say. -/
theorem loopsAndBranchesRun : Obligations.LoopsAndBranchesRun := by
  refine ⟨fun s p w => ⟨fun h => ?_, fun l ls h hl => ?_, fun h hl => ?_⟩, fun s p w h => ?_⟩
  · exact ⟨_, rfl, State.seqOp_onCore (fun c => c.openLoop w s.tick) h rfl rfl⟩
  · exact ⟨_, rfl, State.seqOp_onCore (fun c => c.endLoop s.tick) h rfl (Core.endLoop_cons hl _)⟩
  · exact ⟨_, rfl, State.seqOp_onCore (fun c => c.endLoop s.tick) h rfl (Core.endLoop_nil hl _)⟩
  · exact ⟨_, rfl, State.seqOp_onCore (fun c => c.branch w s.tick) h rfl (Core.branch_eq ..)⟩

/-! ## Address generators and windows (R93, R95, R96) -/

/-- Two updates of one core are one. -/
theorem State.onCore_onCore_core (s : State) (p : Nat) (f g : Core → Core) (q : Nat) :
    ((s.onCore p f).onCore p g).core q = if q = p then g (f (s.core p)) else s.core q := by
  rw [State.core_onCore, State.core_onCore_same]
  split_ifs with h
  · rfl
  · exact State.core_onCore_ne _ _ h

/-- A sequencer instruction that changes its core and goes on at the next slot, with its signal. -/
theorem State.seqOp_advance {s : State} {p : Nat} {o : Op} {w : Slot} {act : Slot → State → State} {c' : Core} (f : Core → Core)
    (h : s.runs p o w) (hact : act w s = (s.onCore p f).advance p)
    (hf : (f (s.core p)).at' ((f (s.core p)).pc + 32) s.tick = c') :
    (s.seqOp p o act).regs = s.regs ∧ Signalled s (s.seqOp p o act) p w c' := by
  rw [State.seqOp_runs act h, hact, ← hf]
  exact (State.signalled_of (s := s) (s1 := (s.onCore p f).advance p) rfl (s.onCore_onCore_core p f _)).symm

/-- ADG loads its slot, or adds to its BASE, and leaves the other slots (R95, R96). -/
theorem Core.slot_adg' (c : Core) (w w2 : Slot) (i : Nat) : (c.adg' w w2).slot i =
    if i ≠ w.adgSlot then c.slot i else if w.adgOp = 0 then adgLoaded w w2
      else { c.slot i with base := ((c.slot i).base + w.adgBase) % 2 ^ 64 } := by
  unfold Core.adg' Core.slot
  rw [SMap.get_set]
  by_cases h : i = w.adgSlot
  · subst h
    rw [if_pos rfl, if_neg (not_not.2 rfl)]
  · rw [if_neg h, if_pos h]

/-- The effect of WCLOSE (R93). -/
def Core.wcloseBy (c : Core) (w : Slot) : Core := if w.winAll then c.closeAll else c.wclose w.win

/-- WCLOSE changes windows only. -/
theorem Core.wcloseBy_frame (c : Core) (w : Slot) : c.wcloseBy w = { c with windows := (c.wcloseBy w).windows } := by
  unfold Core.wcloseBy Core.closeAll
  split_ifs
  · exact (Core.wclose_all _ c).2
  · exact c.wclose_frame _

/-- WCLOSE closes its window, or all 64, and leaves the others (R93). -/
theorem Core.window_wcloseBy (c : Core) (w : Slot) (i : Nat) : (c.wcloseBy w).window i =
    if (w.winAll = true ∧ i < 64) ∨ (w.winAll = false ∧ i = w.win) then { c.window i with isOpen := false } else c.window i := by
  unfold Core.wcloseBy
  cases h : w.winAll with
  | true =>
    simp only [if_true, Core.closeAll, (Core.wclose_all _ c).1, List.mem_range, true_and, reduceCtorEq, false_and, or_false]
  | false => simp [Core.window_wclose]

/-- Settles O10: ADG replaces its slot, WOPEN and WCLOSE their windows. -/
theorem adgAndWindowsAreSet : Obligations.AdgAndWindowsAreSet := by
  refine ⟨fun s p w w2 h h2 => ?_, fun s p w => ⟨fun h => ?_, fun h => ?_⟩⟩
  · obtain ⟨hr, hs⟩ := State.seqOp_onCore (o := .adg) (c' := ((s.core p).adg' w w2).goTo ((s.core p).pc + 64) s.tick)
      (act := fun w t => t.onCore p (fun c => (c.adg' w ((c.slotAt (c.pc + 32)).getD (Slot.ofNat 0))).goTo (c.pc + 64) s.tick))
      _ h rfl (by rw [h2]; rfl)
    exact ⟨_, _, rfl, hr, hs, (s.core p).slot_adg' w w2⟩
  · obtain ⟨hr, hs⟩ := State.seqOp_advance (o := .wopen) (act := fun w t => (t.onCore p (fun c => c.wopen w)).advance p) _ h rfl rfl
    exact ⟨_, _, rfl, hr, hs, fun i => (s.core p).window_setWindow ..⟩
  · have hf := (s.core p).wcloseBy_frame w
    have hw := (s.core p).window_wcloseBy w
    obtain ⟨hr, hs⟩ := State.seqOp_advance (o := .wclose) (act := fun w t => (t.onCore p (fun c => c.wcloseBy w)).advance p) _ h rfl
      (congrArg (fun c : Core => c.at' (c.pc + 32) s.tick) hf)
    exact ⟨_, _, rfl, hr, hs, hw⟩

/-! ## Marks and halts (R94, R108) -/

/-- HALTED as the host sees it (R108). -/
theorem State.view_halted (s : State) (p : Nat) : s.view R.SEQ_STATUS_HALTED p 0 = ofBool (s.core p).halted := by
  show ofBool (s.core p).halted % 2 ^ 1 = _
  cases (s.core p).halted <;> rfl

/-- A LO/HI pair of a page reads back what was put into it. -/
theorem State.rdPair_wrPair (s : State) {lo hi : Fld} (v i : Nat) (hb : lo.blk = hi.blk)
    (hp : lo.off * 32 + lo.lsb ≠ hi.off * 32 + hi.lsb) (h0 : lo.lsb = 0) (hl : lo.width = 32) (hh : hi.width = 32) :
    (s.wrPair lo hi v i).rdPair lo hi i = v % 2 ^ 64 := by
  unfold State.rdPair State.wrPair
  rw [State.rd_wr_ne _ _ _ _ _ _ _ _ (Fld.key_ne_of_place i hb hp), State.rd_wr_same, State.rd_wr_same, h0, hl, hh]
  omega

/-- The keys of SEQ_MARK of a core. -/
def seqMarkKeys (p : Nat) : List Nat :=
  [R.SEQ_MARK_VALUE.key p 0, R.SEQ_MARK_PC.key p 0, R.SEQ_MARK_TIME_LO.key p 0, R.SEQ_MARK_TIME_HI.key p 0]

/-- MARK with MARK_EN 1 writes SEQ_MARK (R94, R108). -/
theorem State.mark_writes (s : State) (w : Slot) (p : Nat) (h : s.on R.SEQ_CTRL_MARK_EN p = true) :
    (s.mark w p).rd R.SEQ_MARK_VALUE p = w.markValue % 2 ^ 32 ∧ (s.mark w p).rd R.SEQ_MARK_PC p = (s.core p).pc % 2 ^ 32 ∧
    (s.mark w p).rdPair R.SEQ_MARK_TIME_LO R.SEQ_MARK_TIME_HI p = s.dieTime (p / 11) % 2 ^ 64 ∧
    FieldsKept s (s.mark w p) (seqMarkKeys p) := by
  have past {f g : Fld} {v n : Nat} {x : State} (hb : g.blk = f.blk) (hp : g.off * 32 + g.lsb ≠ f.off * 32 + f.lsb)
      (h : x.rd g p = n) : (x.wr f v p).rd g p = n := (State.rd_wr_ne _ _ _ _ _ _ _ _ (Fld.key_ne_of_place p hb hp)).trans h
  unfold State.mark
  rw [if_pos h]
  refine ⟨?_, ?_, ?_, ?_⟩
  · iterate 3 refine past rfl (by decide) ?_
    exact State.rd_wr_same ..
  · iterate 2 refine past rfl (by decide) ?_
    exact State.rd_wr_same ..
  · exact State.rdPair_wrPair _ _ _ rfl (by decide) rfl rfl rfl
  · iterate 4 refine FieldsKept.wr ?_ _ (by simp [seqMarkKeys])
    exact .refl _ _

/-- Settles O11: MARK writes the registers before its core goes on, HALT and RESUME set and clear the mark that holds the sequencer. -/
theorem markAndHalt : Obligations.MarkAndHalt := by
  refine fun s p w => ⟨fun h => ?_, fun h => ?_, fun h o => ?_, fun ha => ⟨fun hd hh => ?_, fun hn => ?_⟩⟩
  · have e : exec (.mark p) s = .next (((s.mark w p).advance p).applySignal p w) := congrArg _ (State.seqOp_runs _ h)
    have hm : s.mark w p = { s with regs := (s.mark w p).regs } := by
      unfold State.mark
      split_ifs <;> rfl
    obtain ⟨hs, hr⟩ := State.signalled_of (s := s) (p := p) (w := w) (s1 := (s.mark w p).advance p)
      (c' := (s.core p).at' ((s.core p).pc + 32) s.tick) (by rw [hm]; rfl) (fun q => by rw [hm]; exact State.core_onCore ..)
    refine ⟨_, e, hs, ?_⟩
    have hrd : ∀ f, (((s.mark w p).advance p).applySignal p w).rd f p = (s.mark w p).rd f p := fun f => State.rd_of_regs hr f p 0
    split_ifs with hen
    · obtain ⟨h1, h2, h3, h4⟩ := s.mark_writes w p hen
      unfold State.rdPair at h3 ⊢
      rw [hrd, hrd, hrd, hrd]
      exact ⟨h1.trans (Nat.mod_mod _ _), h2, h3, h4.of_regs hr⟩
    · rw [hr]
      unfold State.mark
      rw [if_neg hen]
      rfl
  · have e : exec (.halt p) s = .next (((s.advance p).onCore p (fun c => { c with halted := true })).applySignal p w) :=
      congrArg _ (State.seqOp_runs _ h)
    obtain ⟨hs, hr⟩ := State.signalled_of (s := s) (p := p) (w := w)
      (s1 := (s.advance p).onCore p (fun c => { c with halted := true })) rfl (s.onCore_onCore_core p _ _)
    refine ⟨_, e, hr, ?_, hs⟩
    have hcore := hs.2.1 p
    rw [if_pos rfl] at hcore
    rw [State.view_halted, show (State.core _ p).halted = true from congrArg Core.halted hcore]
    rfl
  · obtain ⟨o', run, he, _⟩ := exec_row_handle s p o
    rw [he, State.handle_idle _ _ (by simp [State.issues, h])]
  · refine ⟨s.setCore p { s.core p with halted := false, stallAt := s.tick }, ?_, rfl, ?_⟩
    · show Host.Outcome.next (s.hostCmd .seq p _) = _
      rw [State.hostCmd_acts _ ha, hd, hh]
      rfl
    · rw [State.view_halted, State.core_setCore_same]
      rfl
  · show Host.Outcome.next (s.hostCmd .seq p _) = _
    rw [State.hostCmd_acts _ ha, if_neg]
    rcases hn with h | h <;> simp [h]

/-! ## Predicates (R90) -/

/-- A bit of the model is a bit of the number. -/
theorem bitOf_eq_testBit (v k : Nat) : bitOf v k = v.testBit k := by
  simp [bitOf, bitsOf, Nat.testBit_eq_decide_div_mod_eq, Nat.shiftRight_eq_div_pow]

/-- The bits of a number of which one bit has been replaced. -/
theorem testBit_two_pow_mul_add_bit (q r i j : Nat) (b : Bool) (hr : r < 2 ^ i) :
    (2 ^ i * (2 * q + ofBool b) + r).testBit j = if j = i then b else (2 ^ i * (2 * q) + r).testBit j := by
  rw [Nat.testBit_two_pow_mul_add _ hr, Nat.testBit_two_pow_mul_add _ hr]
  obtain h | rfl | h := Nat.lt_trichotomy j i
  · simp [h, h.ne]
  · cases b <;> simp [ofBool, Nat.testBit_zero]
  · obtain ⟨k, rfl⟩ := Nat.exists_eq_add_of_lt h
    rw [if_neg (by omega), if_neg (by omega), if_neg (by omega), show i + k + 1 - i = k + 1 by omega, Nat.testBit_succ, Nat.testBit_succ]
    congr 1
    cases b <;> simp [ofBool]
    omega

/-- A predicate written reads back; the others stay (R90). -/
theorem Core.bitOf_setPred (c : Core) (i j : Nat) (b : Bool) :
    bitOf (c.setPred i b).preds j = if j = i then b else bitOf c.preds j := by
  have hr : c.preds % 2 ^ i < 2 ^ i := Nat.mod_lt _ (Nat.two_pow_pos i)
  have hbit : c.preds / 2 ^ i % 2 = ofBool (bitOf c.preds i) := by
    rw [bitOf_eq_testBit, Nat.testBit_eq_decide_div_mod_eq]
    rcases Nat.mod_two_eq_zero_or_one (c.preds / 2 ^ i) with h | h <;> simp [h, ofBool]
  have hsplit : c.preds = 2 ^ i * (2 * (c.preds / 2 ^ i / 2) + ofBool (bitOf c.preds i)) + c.preds % 2 ^ i := by
    rw [← hbit, Nat.div_add_mod, Nat.div_add_mod]
  have hset : (c.setPred i b).preds = 2 ^ i * (2 * (c.preds / 2 ^ i / 2) + ofBool b) + c.preds % 2 ^ i := by
    unfold Core.setPred
    dsimp only
    generalize bitOf c.preds i = b0 at hsplit ⊢
    conv_lhs => rw [hsplit]
    rw [Nat.mul_add, Nat.mul_add]
    omega
  rw [hset, bitOf_eq_testBit, testBit_two_pow_mul_add_bit _ _ _ _ _ hr]
  split_ifs with h
  · rfl
  · rw [bitOf_eq_testBit]
    conv_rhs => rw [hsplit]
    rw [testBit_two_pow_mul_add_bit _ _ _ _ _ hr, if_neg h]

/-- Predicate `d` of a core written, and its sequencer at the next slot: what SETP leaves (R90). -/
def State.putPred (s : State) (p d : Nat) (b : Bool) : State := (s.onCore p (fun k => k.setPred d b)).advance p

/-- SETP's word of the scratchpad, where it meets nobody and no uncorrectable error: its bytes, and what the read counts (R90, R121, R127). -/
theorem State.portRead_free {s : State} {p code a n : Nat} (pc : Nat) (h : s.rowsFree p code false a n) :
    s.portRead p code pc a n = (((s.core p).spmRead a n, (s.core p).sealAt a, none, (s.core p).spmErr),
      (s.noteRecent p code 16 pc ⟨.spm, false, [(a, n)], [], []⟩).tallyAccess p .spm a n) := by
  unfold State.portRead
  rw [State.serve_unconcerned _ _ _ _ _ _ _ _ _ _ h]
  simp only [unserved_nil, unservedSeal_nil, unservedErrs_nil, Core.sealAt]

/-- Array errors that can be corrected are counted, and no more (R127). -/
theorem State.spmErrors_corrected {s t : State} {p a n : Nat} {es : SMap MemErr} (h : s.spmErrors p a n es = (t, [])) :
    t = s.bumpBy R.SPM_CNT_ECC_CORR ((errsIn es (a / 64 * 8) ((a + n + 63) / 64 * 8) .corrected).length +
      (errsIn es (a / 64 * 8) ((a + n + 63) / 64 * 8) .hard).length) p := by
  unfold State.spmErrors at h
  dsimp only at h
  split at h
  · exact (Prod.ext_iff.1 h).1.symm
  · next he => exact absurd (Prod.ext_iff.1 h).2 (by simp [he])

/-- SETP writes its predicate and goes on, its signal last (R90). -/
theorem execSetp_puts {s s0 : State} {p : Fin 176} {w : Slot} {b : Bool} (h : s.runs p .setp w)
    (e : s.setp w p = s0.putPred p w.destPred b) (hc : s0.core p = s.core p) (ht : s0.tick = s.tick) :
    ∃ t P, exec (.setp p) s = .next t ∧ t.regs = s0.regs ∧
      Signalled s0 t p w { (s.core p).at' ((s.core p).pc + 32) s.tick with preds := P } ∧
      ∀ i, bitOf P i = if i = w.destPred then b else bitOf (s.core p).preds i := by
  have hrun : (s.core p).st = .running := by
    have := h.1.1
    simp only [State.issues, Bool.and_eq_true, beq_iff_eq] at this
    exact this.1.1.2
  have hcore : ∀ q, (s0.putPred p w.destPred b).core q = if q = p then
      { (s.core p).at' ((s.core p).pc + 32) s.tick with preds := ((s.core p).setPred w.destPred b).preds } else s0.core q := by
    intro q
    unfold State.putPred State.advance
    rw [State.core_onCore, State.core_onCore_same]
    split_ifs with hq
    · rw [hc, State.onCore_tick, ht]
      rfl
    · exact State.core_onCore_ne _ _ hq
  obtain ⟨hs, hr⟩ := State.signalled_of (s := s0) (w := w) (s1 := s0.putPred p w.destPred b) rfl hcore
  refine ⟨(s0.putPred p w.destPred b).applySignal p w, _, ?_, hr, hs, fun i => Core.bitOf_setPred ..⟩
  show Host.Outcome.next (s.handle p (some .setp) _) = _
  rw [State.handle_runs _ h, if_pos h.2.2.2, e, if_neg]
  rw [hcore, if_pos rfl]
  show (s.core p).st ≠ .faulted
  rw [hrun]
  simp

/-- Settles O9: each source gives the predicate's value; the scratchpad's leaves counts, its access and its energy event besides. -/
theorem setpWritesPredicate : Obligations.SetpWritesPredicate := by
  intro s p w h
  refine ⟨fun s0 b hsrc => ?_, fun hw hl => ?_⟩
  · obtain ⟨hw, hb, rfl⟩ | ⟨l, hw, hl, hb, rfl⟩ | ⟨m, hw, hm, hb, rfl⟩ | ⟨hw, hok, hfree, herr, hb⟩ | ⟨hw, hb, rfl⟩ := hsrc
    · exact ⟨rfl, execSetp_puts h (by simp only [State.setp, hw, hb]; rfl) rfl rfl⟩
    · exact ⟨rfl, execSetp_puts h (by simp only [State.setp, hw, hl, hb]; rfl) rfl rfl⟩
    · exact ⟨rfl, execSetp_puts h (by simp only [State.setp, hw, hm, hb]; rfl) rfl rfl⟩
    · have hread := State.portRead_free (s.core p).pc hfree
      have e : s.setp w p = s0.putPred p w.destPred b := by
        rw [hread] at herr
        simp only [State.setp, hw, hok, hread, herr, hb]
        rfl
      have hs0 := State.spmErrors_corrected herr
      rw [hread] at hs0
      subst hs0
      exact ⟨rfl, execSetp_puts h e rfl rfl⟩
    · exact ⟨rfl, execSetp_puts h (by simp only [State.setp, hw, hb]; rfl) rfl rfl⟩
  · have hfault := s.coreFault_faulted p 0x0502 0 (s.core p).pc 0 []
    rw [List.append_nil] at hfault
    refine ⟨_, ?_, hfault⟩
    have e : s.setp w p = s.coreFault p 0x0502 0 (s.core p).pc 0 [] := by simp only [State.setp, hw, hl]
    show Host.Outcome.next (s.handle p (some .setp) _) = _
    rw [State.handle_runs _ h, if_pos h.2.2.2, e, if_pos (s.coreFault_stops ..).1]

end Sys2Proof.Machine
end

-- ==== Issue and start of engine instructions ====
section
/-! PROOFS. How the sequencer places an engine instruction in its queue and how an engine starts the head of its queue (R73, R75, R76, R173). -/

namespace Sys2Proof.Machine

/-! ## Issue (R73, R75, R76) -/

/-- The row of an engine instruction issues it. -/
theorem exec_row_issues (s : State) (p : Fin 176) {o : Op} (h : o.ofSequencer = false) : exec (o.row p) s = .next (s.issueOp p o) := by
  cases o with
  | nop | wait | signal | loop | endl | setp | brp | trick | adg | wopen | wclose | mark | halt => exact nomatch h
  | _ => rfl

/-- What placing an entry leaves of its core: the sequencer at the next slot, the entry at the tail of its engine's queue. -/
theorem State.queued_core (s : State) (p : Nat) (o : Op) (w : Slot) :
    (s.queued p o w).core p = ((s.core p).at' ((s.core p).pc + 32) s.tick).setEngine w.engine
      ⟨((s.core p).engine w.engine).queue ++ [s.entryFor p o w],
        if ((s.core p).engine w.engine).queue = [] then s.tick else ((s.core p).engine w.engine).headSince,
        ((s.core p).engine w.engine).exec⟩ := by
  unfold State.queued
  rw [State.core_onCore_same, State.core_onCore_same]
  rfl

/-- The queue of the engine holds the entry last; what it has started stays. -/
theorem State.queued_engine (s : State) (p : Nat) (o : Op) (w : Slot) :
    (((s.queued p o w).core p).engine w.engine).queue = ((s.core p).engine w.engine).queue ++ [s.entryFor p o w] ∧
    ∀ e, (((s.queued p o w).core p).engine e).exec = ((s.core p).engine e).exec := by
  rw [State.queued_core]
  refine ⟨by rw [Core.engine_setEngine, if_pos rfl], fun e => ?_⟩
  rw [Core.engine_setEngine]
  by_cases h : e = w.engine
  · rw [if_pos h, h]
  · rw [if_neg h]
    rfl

/-- What the link-send engine may start depends on what it has started and on the hardware queues (R77, R288). -/
theorem Core.lseFree_congr {c c' : Core} (hq : c'.queues = c.queues) (he : (c'.engine 5).exec = (c.engine 5).exec) (q : QEntry) :
    c'.lseFree q = c.lseFree q := by
  unfold Core.lseFree Core.roomFor Core.fetchTags Core.operandTiles
  rw [hq, he]

theorem Core.startedTiles_congr {c c' : Core} (he : ∀ e, (c'.engine e).exec = (c.engine e).exec) : c'.startedTiles = c.startedTiles := by
  unfold Core.startedTiles
  simp only [he]

/-- Placing an entry does not decide whether an instruction may start. -/
theorem State.mayStart_queued (s : State) (p : Nat) (o : Op) (w : Slot) (q : QEntry) :
    (s.queued p o w).mayStart p q ↔ s.mayStart p q := by
  have hlse : ((s.queued p o w).core p).lseFree q = (s.core p).lseFree q :=
    Core.lseFree_congr (by rw [State.queued_core]; rfl) ((s.queued_engine p o w).2 5) q
  have hwait : ((s.queued p o w).core p).waitHolds q.word = (s.core p).waitHolds q.word := by rw [State.queued_core]; rfl
  have hstarts : (s.queued p o w).starts p = s.starts p := by
    unfold State.starts
    rw [State.queued_core]
    rfl
  unfold State.mayStart
  rw [hlse, hwait, hstarts]

/-- An entry placed in a queue that has room: at the head it is looked at at once (R75, R76). -/
theorem State.issueOp_placed {s : State} {p : Nat} {o : Op} {w : Slot} (h : s.meets p o w) (hb : s.pageBad p = none)
    (hf : s.slotFault p o w = none) (hq : ((s.core p).engine w.engine).queue.length < 16) :
    s.issueOp p o = if ((s.core p).engine w.engine).queue = [] then
        if (((s.queued p o w).headCheck p w.engine).core p).st = .faulted then (s.queued p o w).headCheck p w.engine
        else ((s.queued p o w).headCheck p w.engine).startHead p w.engine
      else s.queued p o w := by
  have hs : s.queued p o w = (s.advance p).onCore p (fun k => k.setEngine w.engine
      { (s.core p).engine w.engine with
        queue := ((s.core p).engine w.engine).queue ++ [s.entryFor p o w],
        headSince := if ((s.core p).engine w.engine).queue = [] then s.tick else ((s.core p).engine w.engine).headSince }) := by
    unfold State.queued State.advance State.onCore
    rw [State.core_setCore_same, State.core_setCore_same]
    rfl
  unfold State.issueOp
  rw [State.handle_of _ h, hb, hf, hs]
  exact if_neg (by omega)

/-- The head of a queue is left alone unless it is an MMUL that does not suit (R173). -/
theorem State.headCheck_ready {s : State} {p e : Nat} (h : ∀ q, ¬ s.unready p e q) : s.headCheck p e = s := by
  obtain h' | ⟨q, hq, _⟩ := s.headCheck_cases p e
  · exact h'
  · exact absurd hq (h q)

/-- An MMUL that does not suit faults where it stands (R173). -/
theorem State.headCheck_unready {s : State} {p e : Nat} {q : QEntry} (h : s.unready p e q) :
    s.headCheck p e = (s.mxuState p).coreFault p 0x0502 e q.pc 0 [] := by
  obtain ⟨hq, ho, hs, hr⟩ := h
  obtain ⟨rest, hq⟩ := List.head?_eq_some_iff.1 hq
  unfold State.headCheck
  simp only [hq, ho, hs, hr]
  rfl

/-- The state fault of the matrix engine is a count and an event (R199, R200). -/
theorem State.mxuState_core (s : State) (p q : Nat) : (s.mxuState p).core q = s.core q := by
  unfold State.mxuState
  rw [State.raiseEvt_frame]
  rfl

/-- The fault of an MMUL that does not suit (R69, R173). -/
theorem State.headCheck_faulted {s : State} {p e : Nat} {q : QEntry} (h : s.unready p e q) :
    Faulted (s.mxuState p) (s.headCheck p e) p 0x0502 e q.pc (s.core p).startedTiles := by
  have hf := (s.mxuState p).coreFault_faulted p 0x0502 e q.pc 0 []
  rw [State.mxuState_core, List.append_nil] at hf
  rw [State.headCheck_unready h]
  exact hf

/-- A core whose sequencer issues is not faulted. -/
theorem State.issues_running {s : State} {p : Nat} (h : s.issues p = true) : (s.core p).st = .running := by
  simp only [State.issues, Bool.and_eq_true, beq_iff_eq] at h
  exact h.1.1.2

/-- An entry at the head that suits: the engine may start it (R76). -/
theorem State.issueOp_head {s : State} {p : Nat} {o : Op} {w : Slot} (h : s.meets p o w) (hb : s.pageBad p = none)
    (hf : s.slotFault p o w = none) (hq : ((s.core p).engine w.engine).queue = [])
    (hn : ∀ q, ¬(s.queued p o w).unready p w.engine q) : s.issueOp p o = (s.queued p o w).startHead p w.engine := by
  have hst : ((s.queued p o w).core p).st ≠ .faulted := by
    rw [State.queued_core]
    show (s.core p).st ≠ .faulted
    rw [State.issues_running h.1]
    simp
  rw [State.issueOp_placed h hb hf (by simp [hq]), if_pos hq, State.headCheck_ready hn, if_neg hst]

/-- Settles O14: what `issueOp` does with its entry. -/
theorem engineInstructionsQueue : Obligations.EngineInstructionsQueue := by
  intro s p w o ho hm hb hf
  rw [exec_row_issues s p ho]
  refine ⟨fun hq => congrArg _ (State.issueOp_full hm hb hf hq), fun hq hstay hn => congrArg _ ?_, fun q hq hu => ⟨_, rfl, ?_⟩⟩
  · by_cases hempty : ((s.core p).engine w.engine).queue = []
    · rw [State.issueOp_head hm hb hf hempty hn]
      refine State.startHead_idle _ _ _ fun q rest hhead => ?_
      rw [(s.queued_engine p o w).1, hempty] at hhead
      obtain ⟨rfl, rfl⟩ := List.cons.inj hhead
      have hno := (s.mayStart_queued p o w _).not.2 (hstay.resolve_left (not_not.2 hempty))
      by_contra hc
      refine hno ?_
      simpa [State.mayStart, and_assoc] using hc
    · rw [State.issueOp_placed hm hb hf hq, if_neg hempty]
  · have hpc : q = s.entryFor p o w := by
      have hhead := hu.1
      rw [(s.queued_engine p o w).1, hq] at hhead
      exact (Option.some.inj hhead).symm
    have hfault := State.headCheck_faulted hu
    rw [Core.startedTiles_congr (s.queued_engine p o w).2, hpc] at hfault
    rw [State.issueOp_placed hm hb hf (by simp [hq]), if_pos hq, if_pos hfault.1]
    exact hfault

/-! ## Instructions started (R76) -/

/-- Counting waits changes counts. -/
theorem State.countWaits_core (s : State) (p : Nat) (rs : List MemReq) (q : Nat) : (s.countWaits p rs).core q = s.core q := by
  unfold State.countWaits
  split_ifs <;> rfl

/-- An engine that has started an instruction lists it, signals early for an LPUT, and looks at its next head (R76, R78). -/
theorem State.started_began (s : State) (p e : Nat) (q : QEntry) (r : ECtx) (c0 : Core) :
    Started r (s.started p e q r c0) p e q s.stamp (startedEntry q r c0 s.stamp) := by
  let x := startedEntry q r c0 s.stamp
  let s1 : State := { r.s.countWaits p r.reqs with stamp := s.stamp + 1 }
  let s2 := s1.onCore p (fun k => (k.reserve q.word q.slots).setEngine e { k.engine e with exec := (k.engine e).exec ++ [x] })
  let u := if x.signaled then s2.applySignal p q.word else s2
  have hs1 : ∀ n, s1.core n = r.s.core n := fun n => r.s.countWaits_core p r.reqs n
  refine ⟨u, ⟨rfl, rfl, rfl, rfl, rfl, r.mem_tiles, by simp [startedEntry], ?_⟩, State.headCheck_ready, fun n => State.headCheck_faulted⟩
  have hs2 : ∀ n, s2.core n = if n = p then ((r.s.core p).reserve q.word q.slots).setEngine e
      { (r.s.core p).engine e with exec := ((r.s.core p).engine e).exec ++ [x] } else s1.core n := fun n => by
    rw [← hs1 p]
    exact State.core_onCore ..
  by_cases hx : x.signaled = true
  · rw [if_pos hx, show u = s2.applySignal p q.word from if_pos hx]
    exact (State.signalled_of (s := s1) (s1 := s2) rfl hs2).1
  · rw [if_neg hx, show u = s2 from if_neg hx]
    exact ⟨rfl, fun n hn => (hs2 n).trans (if_neg (by simpa using hn)), (hs2 p).trans (if_pos rfl)⟩

/-- The head of a queue that may start and whose body ends well is started. -/
theorem State.startHead_started {s : State} {p e : Nat} {q : QEntry} {rest : List QEntry} {r : ECtx}
    (hq : ((s.core p).engine e).queue = q :: rest) (hm : s.mayStart p q) (hr : bodyOf q.word (s.startCtx p e q rest) = .ok () r)
    (hh : r.hostBad = false) : Started r (s.startHead p e) p e q s.stamp (startedEntry q r (s.core p) s.stamp) := by
  have e : s.startHead p e = s.started p e q r (s.core p) := by
    rw [State.startHead_runs hq hm, hr]
    simp only [hh]
    rfl
  rw [e]
  exact s.started_began ..

/-- Settles O15: a head that may start runs its body and is listed, whether the sequencer or its engine starts it. -/
theorem engineInstructionsRun : Obligations.EngineInstructionsRun := by
  refine ⟨fun s p w o r ho hm hb hf hq hst hr hh hn => ?_, fun s p e q rest hq => ⟨fun hst => ?_, fun r hst hr hh => ?_⟩⟩
  · have hq' : (((s.queued p o w).core p).engine w.engine).queue = [s.entryFor p o w] := by
      rw [(s.queued_engine p o w).1, hq]
      rfl
    exact ⟨_, _, (exec_row_issues s p ho).trans (congrArg _ (State.issueOp_head hm hb hf hq hn)),
      State.startHead_started hq' ((s.mayStart_queued p o w _).2 hst) hr hh⟩
  · refine congrArg Host.Outcome.next (State.startHead_idle _ _ _ fun q' rest' hq' => ?_)
    rw [hq] at hq'
    obtain ⟨rfl, rfl⟩ := List.cons.inj hq'
    by_contra hc
    exact hst (by simpa [State.mayStart, and_assoc] using hc)
  · exact ⟨_, _, rfl, State.startHead_started hq hst hr hh⟩

end Sys2Proof.Machine
end

-- ==== Members resumed and dummy load ====
section
/-! PROOFS. A member starts or resumes at its deal time, and its dummy load falls and rises (R92, R320, R324, R325). -/

namespace Sys2Proof.Machine

/-! ## Waiting for a die's time (R308, log entry 24) -/

/-- Running up to a die's time changes what passing time changes, and nothing else. -/
theorem State.waitDie_frame (s : State) (d : Nat) (t : Int) :
    s.waitDie d t = { s with tick := (s.waitDie d t).tick, time := (s.waitDie d t).time, timing := (s.waitDie d t).timing,
                             free := (s.waitDie d t).free } := by
  unfold State.waitDie
  dsimp only
  split_ifs
  · rfl
  · exact s.elapse_frame _

theorem State.waitDie_core (s : State) (d : Nat) (t : Int) (p : Nat) : (s.waitDie d t).core p = s.core p := by
  rw [State.waitDie_frame]
  rfl

theorem State.waitDie_up (s : State) (d : Nat) (t : Int) : (s.waitDie d t).up = s.up := by
  rw [State.waitDie_frame]
  rfl

/-- Without a rate correction TABLE_TIME takes as many ticks as it has nanoseconds to go (R302, R308). -/
theorem State.waitDie_tick {s : State} (d : Nat) (t : Int) (h : s.timing.slew = 0) (h0 : 0 ≤ s.timing.slewAcc)
    (h1 : s.timing.slewAcc < 1000000) : (s.waitDie d t).tick = s.tick + (t - (s.dieTime d : Int)).toNat := by
  have hn : s.timing.ticksFor (t - (s.dieTime d : Int)) = (t - (s.dieTime d : Int)).toNat := by
    unfold TimeSt.ticksFor
    rw [h]
    generalize t - (s.dieTime d : Int) = k
    split_ifs with hk
    · omega
    · congr 1
      omega
  unfold State.waitDie
  dsimp only
  rw [hn]
  split_ifs with hz
  · rw [hz]
    rfl
  · exact State.elapse_tick ..

/-! ## Dummy load (R201, R324) -/

/-- `t` is `s` but for register fields, cores, energy events and the count of free values. -/
def State.onlyLoad (s t : State) : Prop := t = { s with regs := t.regs, cores := t.cores, events := t.events, free := t.free }

theorem State.onlyLoad.trans {s t u : State} (h : s.onlyLoad t) (h' : t.onlyLoad u) : s.onlyLoad u := by
  unfold State.onlyLoad at *
  rw [h', h]

/-- Counting a member's dummy load changes its MXU_BURN pair, the energy events and the count of free values, and no core. -/
theorem State.burned_frame (s : State) (p : Nat) :
    s.onlyLoad (s.burned p) ∧ (s.burned p).cores = s.cores ∧
    FieldsKept s (s.burned p) [R.MXU_BURN_LO.key p 0, R.MXU_BURN_HI.key p 0] := by
  unfold State.burned
  split_ifs
  · exact ⟨rfl, rfl, .refl _ _⟩
  · refine ⟨rfl, rfl, FieldsKept.of_regs (t := s.freshNat.2.bumpPair R.MXU_BURN_LO R.MXU_BURN_HI s.freshNat.1 p) ?_ rfl⟩
    unfold State.bumpPair
    exact (FieldsKept.wr (.of_regs (.refl s _) rfl) _ (by simp)).wr _ (by simp)

/-- Such counting leaves every core. -/
theorem State.burned_core (s : State) (p q : Nat) : (s.burned p).core q = s.core q := by
  unfold State.core
  rw [(s.burned_frame p).2.1]

/-- A member's dummy load set to its level (R324). -/
theorem State.setLevel_arrived {s : State} {p : Nat} {ta : Int} (h : (s.core p).arrivedAt = some ta) :
    CoresKept s (s.setLevel p) [p] ∧ (s.setLevel p).core p = { s.core p with dummy := (s.core p).level ta (s.dieTime (p / 11)) } ∧
    s.onlyLoad (s.setLevel p) ∧ FieldsKept s (s.setLevel p) [R.MXU_BURN_LO.key p 0, R.MXU_BURN_HI.key p 0] := by
  obtain ⟨hb, -, hk⟩ := s.burned_frame p
  have e : s.setLevel p = (s.burned p).onCore p (fun c => { c with dummy := c.level ta (s.dieTime (p / 11)) }) := by
    unfold State.setLevel
    rw [h]
  rw [e]
  refine ⟨fun q hq => ?_, by rw [State.core_onCore_same, State.burned_core], hb.trans rfl, hk.of_regs rfl⟩
  rw [State.core_onCore_ne _ _ (by simpa using hq), State.burned_core]

/-- A core that has not arrived carries no dummy load. -/
theorem State.setLevel_away {s : State} {p : Nat} (h : (s.core p).arrivedAt = none) : s.setLevel p = s := by
  unfold State.setLevel
  rw [h]

/-- The load has ended when the deal time has come (R324). -/
theorem Core.level_ended {c : Core} {u t : Int} (ta : Int) (h : c.resumeAt = some u) (hu : u ≤ t) : c.level ta t = 0 := by
  unfold Core.level
  simp only [h, if_pos hu]
  rfl

/-! ## Members resumed (R92, R320) -/

/-- The core of a member that starts or resumes its stream at tick `n`. -/
def Core.resumed (c : Core) (m : Member) (n : Nat) : Core :=
  { c with st := .running, trick := .none, resumeAt := none, signalDue := none, arrivedAt := none, dummy := 0, stallAt := n,
           member := some { m with started := true } }

/-- The group whose member resumes: it collects from now on. -/
def State.collects (s : State) (g : Nat) : State :=
  s.onGroup g (fun x => { x with st := if x.st = .dealing ∨ x.st = .released then .collecting else x.st })

theorem State.setCore_collects (s : State) (p g : Nat) (c : Core) : (s.setCore p c).collects g = (s.collects g).setCore p c := rfl

/-- A signal does not concern the groups. -/
theorem State.applySignal_collects (s : State) (p g : Nat) (w : Slot) :
    (s.applySignal p w).collects g = (s.collects g).applySignal p w := by
  have hpart : (s.collects g).partOf w.starget = s.partOf w.starget := rfl
  unfold State.applySignal
  rw [hpart]
  split
  · rfl
  · cases s.partOf w.starget <;> rfl
  · rfl

section
variable {s : State} {p : Nat} {m : Member} {tm : Int} (hm : (s.core p).member = some m) (hr : (s.core p).resumeAt = some tm)
  (hl : s.linkLive = true) (ha : s.awake (p / 11) = true) (hg : (s.core p).region = .running)
include hm hr hl ha hg

/-- A member's resumption waits for its deal time. -/
theorem State.resume_early (h : ((s.waitDie (p / 11) tm).dieTime (p / 11) : Int) < tm) : s.resume p = s.waitDie (p / 11) tm := by
  unfold State.resume
  simp only [hm, hr, hl, ha, hg]
  exact if_pos h

/-- With the dealer down the member stays, and its dummy load takes its level of now (R325, R467). -/
theorem State.resume_down (h : tm ≤ ((s.waitDie (p / 11) tm).dieTime (p / 11) : Int)) (hu : s.up = false) :
    s.resume p = (s.waitDie (p / 11) tm).setLevel p := by
  unfold State.resume
  simp only [hm, hr, hl, ha, hg]
  rw [if_neg (by simp), if_neg (by omega), State.waitDie_up, hu]
  rfl

/-- When its deal time has come the member runs, with the signal of its TRICK if it resumes (R92, R320). -/
theorem State.resume_runs (h : tm ≤ ((s.waitDie (p / 11) tm).dieTime (p / 11) : Int)) (hu : s.up = true) :
    let s0 := s.waitDie (p / 11) tm
    let s1 := ((s0.burned p).collects m.group).setCore p ((s.core p).resumed m s0.tick)
    s.resume p = match (s.core p).signalDue with
      | some w => if m.started then s1.applySignal p w else s1
      | none => s1 := by
  intro s0 s1
  have hcore : (s0.burned p).core p = s.core p := (s0.burned_core p p).trans (State.waitDie_core ..)
  have hrun : s.resume p = State.collects (match (s.core p).signalDue with
      | some w => if m.started then ((s0.burned p).setCore p ((s.core p).resumed m s0.tick)).applySignal p w
        else (s0.burned p).setCore p ((s.core p).resumed m s0.tick)
      | none => (s0.burned p).setCore p ((s.core p).resumed m s0.tick)) m.group := by
    unfold State.resume
    simp only [hm, hr, hl, ha, hg]
    rw [if_neg (by simp), if_neg (by omega), State.waitDie_up, hu]
    unfold State.onCore
    rw [hcore]
    rfl
  rw [hrun]
  cases (s.core p).signalDue with
  | none => rfl
  | some w =>
    cases m.started
    · rfl
    · exact State.applySignal_collects _ p m.group w

end

/-- Settles O28: `resume` before, at and without the deal time, and the levels of `level`. -/
theorem membersResumeAndRamp : Obligations.MembersResumeAndRamp := by
  refine ⟨fun s p m tm hm hr hl ha hg => ?_, fun s p ta hta hl => ?_⟩
  · intro s0
    have hcore : ∀ q, s0.core q = s.core q := s.waitDie_core (p / 11) tm
    refine ⟨State.waitDie_tick _ _, fun h => congrArg _ (State.resume_early hm hr hl ha hg h), fun hu h => ?_, fun hu h => ?_⟩
    · intro c' s1
      have e := State.resume_runs hm hr hl ha hg h hu
      have hs1 : ∀ q, (s1.setCore p c').core q = if q = p then c' else s1.core q := fun q => by
        by_cases hq : q = p
        · rw [if_pos hq, hq, State.core_setCore_same]
        · rw [if_neg hq, State.core_setCore_ne _ _ hq]
      refine ⟨_, congrArg Host.Outcome.next e, fun w hst hw => ?_, fun hst => ?_⟩
      · rw [hw, hst]
        exact State.signalled_of (s := s1) (s1 := s1.setCore p c') rfl hs1
      · cases hw : (s.core p).signalDue with
        | none => rfl
        | some w =>
          rw [hw] at hst
          rw [hst.resolve_right (by simp)]
          rfl
    · refine ⟨s0.setLevel p, congrArg Host.Outcome.next (State.resume_down hm hr hl ha hg h hu), ?_⟩
      cases hta : (s.core p).arrivedAt with
      | none =>
        rw [State.setLevel_away (by rw [hcore, hta])]
        exact ⟨fun q _ => hcore q, hcore p⟩
      | some ta =>
        obtain ⟨h1, h2, _⟩ := State.setLevel_arrived (s := s0) (p := p) (ta := ta) (by rw [hcore, hta])
        refine ⟨fun q hq => (h1 q hq).trans (hcore q), ?_⟩
        rw [h2, hcore, Core.level_ended ta hr h]
        rfl
  · intro c st a f s0 τ
    have hcore : ∀ q, s0.core q = s.core q := s.waitDie_core _ _
    obtain ⟨h1, h2, h3, h4⟩ := State.setLevel_arrived (s := s0) (p := p) (ta := ta) (by rw [hcore, hta])
    have hlevel : ((s0.setLevel p).core p).dummy = c.level ta τ := by rw [h2, hcore]
    refine ⟨s0.setLevel p, ?_, fun q hq => (h1 q hq).trans (hcore q), ?_, h3, ?_, ?_⟩
    · show Host.Outcome.next (s.dummyStep p) = _
      unfold State.dummyStep
      simp only [hta, hl]
      rfl
    · rw [h2, hcore]
    · have hregs : s0.regs = s.regs := by
        show (s.waitDie _ _).regs = _
        rw [State.waitDie_frame]
      exact fun g i k hk => (h4 g i k hk).trans (State.rd_of_regs hregs g i k)
    · rw [hlevel]
      refine ⟨fun hn ht => ?_, fun hn ht => ?_, fun u hu ht => Core.level_ended ta hu ht, fun u hu ht => ?_⟩
      all_goals unfold Core.level
      · simp only [hn]
        rw [if_neg (by omega)]
      · simp only [hn]
        rw [if_pos ht]
      · simp only [hu]
        rw [if_neg (by omega)]

end Sys2Proof.Machine
end

-- ==== Stream pages and promotions ====
section
/-! PROOFS. What a later stream page holds when it arrives, which frame it displaces, and the promotion of a request (R101 to R103, R117, R118). -/

namespace Sys2Proof.Machine

/-! ## Device memory as reads deliver it (R218, R232) -/

/-- A read of device memory finds in `u` what it finds in `t`: the same bytes and the same uncorrectable words. -/
def Tier.readsLike (t u : Tier) : Prop := u.bytes = t.bytes ∧ ∀ lo hi, errsIn u.err lo hi .uncorr = errsIn t.err lo hi .uncorr

theorem Tier.readsLike.refl (t : Tier) : t.readsLike t := ⟨rfl, fun _ _ => rfl⟩

theorem Tier.readsLike.trans {t u v : Tier} (h : t.readsLike u) (h' : u.readsLike v) : t.readsLike v :=
  ⟨h'.1.trans h.1, fun lo hi => (h'.2 lo hi).trans (h.2 lo hi)⟩

theorem Tier.readsLike.delivered {t u : Tier} (h : t.readsLike u) (a n : Nat) : u.delivered a n = t.delivered a n := by
  unfold Tier.delivered Tier.read
  rw [h.1, h.2]

/-- Bytes without uncorrectable lines are delivered as they stand. -/
theorem zeroLines_nil (a : Nat) (bs : List Byte) : zeroLines a bs [] = bs := by
  simp [zeroLines]

theorem Tier.delivered_clean {t : Tier} (h : t.err = []) (a n : Nat) : t.delivered a n = t.read a n := by
  unfold Tier.delivered errsIn
  rw [h]
  exact zeroLines_nil ..

/-- Words written back leave the uncorrectable ones. -/
theorem errsIn_writtenBack (es : SMap MemErr) (p : Nat → Bool) (lo hi : Nat) :
    errsIn (es.filter (fun e => !(p e.1 && e.2 == .corrected))) lo hi .uncorr = errsIn es lo hi .uncorr := by
  unfold errsIn
  rw [List.filter_filter]
  refine congrArg _ (List.filter_congr fun e _ => ?_)
  cases e.2 <;> simp

/-- What word errors met by a read leave in the stack's memory. -/
theorem State.wordErrors_readsLike (s : State) (lo hi : Nat) (es : SMap MemErr) : s.hbm.readsLike (s.wordErrors .hbm lo hi es).1.hbm := by
  refine ⟨s.wordErrors_bytes lo hi es, fun l h => ?_⟩
  have poisoned (ts : List Nat) (u : State) :
      (ts.foldl (fun s t => { s with hbm := s.hbm.setSeal t (sealSetPoison (s.hbm.sealAt t)) }) u).hbm.err = u.hbm.err :=
    foldl_kept (fun s : State => s.hbm.err) (by intros; rfl) ts u
  rw [← errsIn_writtenBack s.hbm.err (fun w => decide (lo ≤ w) && decide (w < hi)) l h]
  unfold State.wordErrors
  simp only [if_true]
  split
  · rfl
  · rw [poisoned, State.raiseEvt_hbm, State.eccRecord_hbm]
    rfl

/-! ## Stream pages (R101 to R103) -/

/-- The seal check of one tile of a stream page as it stands. -/
def Tier.pageFault (t : Tier) (a : Nat) : Option PageFault :=
  let code := pageSealCheck (t.sealAt a) (t.read a 4096)
  if code = 0 then none else some ⟨code, a, t.sealAt a⟩

/-- A tile of a memory without word errors is checked as it stands, and its memory stays. -/
theorem State.pageTile_clean {s : State} (h : s.hbm.err = []) (a : Nat) :
    (s.pageTile a).1.hbm = s.hbm ∧ (s.pageTile a).2 = s.hbm.pageFault a := by
  have e : (s.tierErrors .hbm a 4096).1.hbm = s.hbm := by
    unfold State.tierErrors State.lineErrors State.tierErrs
    simp only [if_true, h, State.wordErrors_clean h]
    rfl
  unfold State.pageTile Tier.pageFault
  simp only [e, Tier.delivered_clean h]
  exact ⟨trivial, trivial⟩

/-- Reading tiles keeps the bytes and the uncorrectable words. -/
theorem pageTiles_readsLike (l : List Nat) : ∀ x : State × Option PageFault,
    x.1.hbm.readsLike (l.foldl (fun acc a => ((acc.1.pageTile a).1, acc.2 <|> (acc.1.pageTile a).2)) x).1.hbm := by
  induction l with
  | nil => exact fun x => .refl _
  | cons a l ih => exact fun x => (x.1.wordErrors_readsLike _ _ _).trans (ih _)

/-- In a memory without word errors the first fault is the first that a tile's seal gives. -/
theorem pageTiles_clean (l : List Nat) : ∀ (s : State) (b : Option PageFault), s.hbm.err = [] →
    (l.foldl (fun acc a => ((acc.1.pageTile a).1, acc.2 <|> (acc.1.pageTile a).2)) (s, b)).2 = (b <|> l.findSome? s.hbm.pageFault) := by
  induction l with
  | nil => intro s b _; cases b <;> rfl
  | cons a l ih =>
    intro s b h
    obtain ⟨h1, h2⟩ := State.pageTile_clean h a
    rw [List.foldl_cons, ih _ _ (by rw [h1, h]), h1, h2, List.findSome?_cons]
    cases b with
    | some _ => rfl
    | none => cases s.hbm.pageFault a <;> rfl

/-- A page as it is read: its slots as memory delivers them, and the first fault of its tiles (R101, R103, R232). -/
theorem State.readPage_frame (s : State) (im : Image) (st : StreamEnt) (page : Nat) :
    let base := im.addr + st.stream + 16384 * page
    let bytes := min 16384 (st.length - 16384 * page)
    (s.readPage im st page).2.page = page ∧
    (s.readPage im st page).2.slots = (List.range (bytes / 32)).map (fun k => Slot.ofNat (leNat (s.hbm.delivered (base + 32 * k) 32))) ∧
    (s.hbm.err = [] → (s.readPage im st page).2.bad =
      ((List.range ((bytes + 4095) / 4096)).map (fun i => base + 4096 * i)).findSome? s.hbm.pageFault) ∧
    s.hbm.readsLike (s.readPage im st page).1.hbm := by
  intro base bytes
  have hl := pageTiles_readsLike ((List.range ((bytes + 4095) / 4096)).map (fun i => base + 4096 * i)) (s, none)
  refine ⟨rfl, List.map_congr_left fun k _ => ?_, fun h => pageTiles_clean _ s none h, hl⟩
  exact congrArg (fun x => Slot.ofNat (leNat x)) (hl.delivered _ _)

theorem foldl_min_le (l : List Nat) : ∀ a, l.foldl min a ≤ a ∧ ∀ x ∈ l, l.foldl min a ≤ x := by
  induction l with
  | nil => simp
  | cons y l ih =>
    intro a
    obtain ⟨h1, h2⟩ := ih (min a y)
    exact ⟨h1.trans (Nat.min_le_left ..), List.forall_mem_cons.2 ⟨h1.trans (Nat.min_le_right ..), h2⟩⟩

theorem le_foldl_max (l : List Nat) : ∀ a, a ≤ l.foldl max a ∧ ∀ x ∈ l, x ≤ l.foldl max a := by
  induction l with
  | nil => simp
  | cons y l ih =>
    intro a
    obtain ⟨h1, h2⟩ := ih (max a y)
    exact ⟨(Nat.le_max_left ..).trans h1, List.forall_mem_cons.2 ⟨(Nat.le_max_right ..).trans h1, h2⟩⟩

/-- Of 16 frames one is lost, never the current page's: the one furthest behind, else the one furthest ahead (R102). -/
theorem mem_putFrame {fs : List Frame} {cur : Nat} (f : Frame) (hother : 16 ≤ fs.length → ∃ g ∈ fs, g.page ≠ cur) :
    f ∈ putFrame fs cur f ∧ ∀ g ∈ fs, g ∈ putFrame fs cur f ∨ (16 ≤ fs.length ∧ g.page ≠ cur ∧
      ((∃ h ∈ fs, h.page < cur) → ∀ h ∈ fs, h.page < cur → g.page ≤ h.page) ∧
      ((∀ h ∈ fs, cur ≤ h.page) → ∀ h ∈ fs, h.page ≤ g.page)) := by
  unfold putFrame
  by_cases hlen : fs.length < 16
  · rw [if_pos hlen]
    exact ⟨by simp, fun g hg => .inl (List.mem_append_left _ hg)⟩
  rw [if_neg hlen]
  let behind := (fs.filter (fun x => decide (x.page < cur))).map (·.page)
  let ahead := (fs.filter (fun x => decide (cur < x.page))).map (·.page)
  have hbehind : ∀ h ∈ fs, h.page < cur → h.page ∈ behind := fun h hh hl => List.mem_map_of_mem (List.mem_filter.2 ⟨hh, by simpa⟩)
  have hahead : ∀ h ∈ fs, cur < h.page → h.page ∈ ahead := fun h hh hl => List.mem_map_of_mem (List.mem_filter.2 ⟨hh, by simpa⟩)
  obtain ⟨-, hmin⟩ := foldl_min_le behind cur
  obtain ⟨hcur, hmax⟩ := le_foldl_max ahead cur
  refine ⟨by simp, fun g hg => ?_⟩
  by_cases hv : g.page = if behind ≠ [] then behind.foldl min cur else ahead.foldl max cur
  · refine .inr ⟨by omega, ?_⟩
    by_cases hb : ∃ h ∈ fs, h.page < cur
    · obtain ⟨b, hbm, hbc⟩ := hb
      rw [if_pos (List.ne_nil_of_mem (hbehind b hbm hbc))] at hv
      have hle := hmin _ (hbehind b hbm hbc)
      refine ⟨by omega, fun _ h hh hl => hv ▸ hmin _ (hbehind h hh hl), fun hall => ?_⟩
      have := hall b hbm
      omega
    · have hnone : ∀ h ∈ fs, cur ≤ h.page := fun h hh => Nat.le_of_not_lt fun hl => hb ⟨h, hh, hl⟩
      have hempty : behind = [] := by
        rw [List.map_eq_nil_iff, List.filter_eq_nil_iff]
        intro h hh
        simpa using hnone h hh
      rw [if_neg (not_not.2 hempty)] at hv
      obtain ⟨a, ham, hac⟩ := hother (by omega)
      have hle := hmax _ (hahead a ham (by have := hnone a ham; omega))
      have := hnone a ham
      refine ⟨by omega, fun h => absurd h hb, fun _ h hh => ?_⟩
      rcases Nat.lt_or_ge cur h.page with hl | hl
      · exact hv ▸ hmax _ (hahead h hh hl)
      · omega
  · exact .inl (List.mem_append_left _ (List.mem_filter.2 ⟨hg, bne_iff_ne.2 hv⟩))

/-- A later stream page arrives in a frame of its core (R101, R102). -/
theorem State.fetchPage_arrives {s : State} {p page : Nat} {im : Image} {st : StreamEnt} (hu : s.up = true) (hi : s.image = some im)
    (hst : s.streamOf (s.core p) = some st) (hf : (s.core p).st ≠ .faulted) (hp : ∀ f ∈ (s.core p).frames, f.page ≠ page)
    (hl : 16384 * page < st.length) :
    s.fetchPage p page = ((s.readPage im st page).1.tallyAccess p .hbm (im.addr + st.stream + 16384 * page)
      (32 * (s.readPage im st page).2.slots.length)).onCore p
        (fun k => { k with frames := putFrame k.frames (k.pc / 16384) (s.readPage im st page).2 }) := by
  unfold State.fetchPage
  simp only [hi, hst]
  refine if_neg ?_
  simpa [hu, hf] using ⟨hp, hl⟩

/-- Settles O18: a page fetched is one read and put in a frame; a promotion is one count. -/
theorem pagesAndRequestsArrive : Obligations.PagesAndRequestsArrive := by
  refine ⟨fun s p page im st hu hi hst hf hp hl => ?_, fun s p receive waited hu => ⟨fun hr hw => ?_, fun h => ?_⟩⟩
  · intro cur base bytes hother
    obtain ⟨hpage, hslots, hbad, hreads⟩ := s.readPage_frame im st page
    have hcores := (s.readPage_books im st page).cores
    generalize hR : s.readPage im st page = R at *
    have hcore : ∀ q, (R.1.tallyAccess p .hbm base (32 * R.2.slots.length)).core q = s.core q := fun q => by
      unfold State.core
      rw [← hcores]
      rfl
    obtain ⟨hin, hkept⟩ := mem_putFrame R.2 hother
    refine ⟨_, R.2, congrArg Host.Outcome.next (State.fetchPage_arrives hu hi hst hf hp hl), ?_⟩
    rw [hR, State.core_onCore_same, hcore]
    refine ⟨hin, hpage, fun k hk => ?_, hbad, hkept, fun q hq => ?_, ?_, rfl⟩
    · rw [hslots, List.getElem?_map, List.getElem?_range hk]
      rfl
    · rw [State.core_onCore_ne _ _ (by simpa using hq), hcore]
    · exact hreads.1
  · have e : exec (.requestPromote p receive waited) s = .next (s.bump R.SPM_PROMOTED p) :=
      congrArg Host.Outcome.next (if_neg (by simp [hu, hr, Nat.not_lt.2 (show s.ageLimit p ≤ waited from hw)]))
    exact ⟨_, e, s.bump_counted _ _, (FieldsKept.refl s _).bump (by simp), rfl⟩
  · refine congrArg Host.Outcome.next (if_pos ?_)
    rcases h with h | h <;> simp [h, State.ageLimit]

end Sys2Proof.Machine
end

-- ==== Link engine: flits sent ====
section
/-! PROOFS. Partial correctness of engine bodies, scratchpad reads that meet nobody, and the flits that LSIG, LFETCH and LPUT place on their flows
(R82, R258, R285, R288). -/

namespace Sys2Proof.Machine

/-- What a part of an engine body that starts in `c` gives and leaves whenever it ends without a fault. The rules below follow the binds,
choices and loops of a `do` block. -/
structure Eng.Ends {α : Type} (c : ECtx) (m : Eng α) (Q : α → ECtx → Prop) : Prop where
  ended : ∀ a r, m c = .ok a r → Q a r

namespace Eng.Ends
variable {α β : Type} {c : ECtx} {P : α → ECtx → Prop} {Q : β → ECtx → Prop}

theorem mono {m : Eng β} {Q' : β → ECtx → Prop} (h : Eng.Ends c m Q) (hq : ∀ b r, Q b r → Q' b r) : Eng.Ends c m Q' :=
  ⟨fun b r e => hq b r (h.ended b r e)⟩

theorem pure {b : β} (h : Q b c) : Eng.Ends c (pure b : Eng β) Q := ⟨fun _ _ e => by cases e; exact h⟩

theorem throw (e : EFault) : Eng.Ends c (throw e : Eng β) Q := ⟨fun _ _ h => by cases h⟩

theorem bind {m : Eng α} {k : α → Eng β} (hm : Eng.Ends c m P) (hk : ∀ a r, P a r → Eng.Ends r (k a) Q) : Eng.Ends c (m >>= k) Q := by
  refine ⟨fun b r e => ?_⟩
  change EStateM.bind m k c = _ at e
  unfold EStateM.bind at e
  split at e
  · next a c' h => exact (hk a c' (hm.ended a c' h)).ended b r e
  · cases e

theorem get_bind {k : ECtx → Eng β} (hk : Eng.Ends c (k c) Q) : Eng.Ends c (get >>= k) Q := ⟨hk.ended⟩

theorem bind_ok {m : Eng α} {k : α → Eng β} {a : α} {r : ECtx} (h : m c = .ok a r) (hk : Eng.Ends r (k a) Q) : Eng.Ends c (m >>= k) Q := by
  refine ⟨fun b r' e => hk.ended b r' ?_⟩
  change EStateM.bind m k c = _ at e
  unfold EStateM.bind at e
  rwa [h] at e

theorem pure_bind {a : α} {k : α → Eng β} (hk : Eng.Ends c (k a) Q) : Eng.Ends c (Pure.pure a >>= k) Q := ⟨hk.ended⟩

theorem set_bind {d : ECtx} {k : PUnit → Eng β} (hk : Eng.Ends d (k ⟨⟩) Q) : Eng.Ends c (set d >>= k) Q := ⟨hk.ended⟩

theorem modify_bind {f : ECtx → ECtx} {k : PUnit → Eng β} (hk : Eng.Ends (f c) (k ⟨⟩) Q) : Eng.Ends c (modify f >>= k) Q := ⟨hk.ended⟩

theorem onState_bind {f : State → State} {k : PUnit → Eng β} (hk : Eng.Ends { c with s := f c.s } (k ⟨⟩) Q) :
    Eng.Ends c (Eng.onState f >>= k) Q := ⟨hk.ended⟩

theorem modify {f : ECtx → ECtx} {Q : PUnit → ECtx → Prop} (h : Q ⟨⟩ (f c)) : Eng.Ends c (modify f : Eng PUnit) Q :=
  ⟨fun _ _ e => by cases e; exact h⟩

theorem set {d : ECtx} {Q : PUnit → ECtx → Prop} (h : Q ⟨⟩ d) : Eng.Ends c (set d : Eng PUnit) Q := ⟨fun _ _ e => by cases e; exact h⟩

theorem onState {f : State → State} {Q : PUnit → ECtx → Prop} (h : Q ⟨⟩ { c with s := f c.s }) : Eng.Ends c (Eng.onState f) Q := modify h

theorem core_bind {k : Core → Eng β} (hk : Eng.Ends c (k (c.s.core c.p)) Q) : Eng.Ends c (Eng.core >>= k) Q := ⟨hk.ended⟩

theorem slot_bind {pos : Nat} {k : AdgSlot → Eng β} (hk : Eng.Ends c (k (c.slots.getD pos AdgSlot.zero)) Q) :
    Eng.Ends c (Eng.slot pos >>= k) Q := ⟨hk.ended⟩

theorem fail (n : Nat) : Eng.Ends c (Eng.fail n : Eng β) Q := get_bind (throw _)

theorem fail_bind (n : Nat) {k : α → Eng β} : Eng.Ends c (Eng.fail n >>= k) Q :=
  bind (P := fun _ _ => False) (fail n) fun _ _ h => h.elim

theorem ite {d : Prop} [Decidable d] {a b : Eng β} (ha : d → Eng.Ends c a Q) (hb : ¬d → Eng.Ends c b Q) :
    Eng.Ends c (if d then a else b) Q := by
  split
  · exact ha ‹_›
  · exact hb ‹_›

theorem guarded {d : Prop} [Decidable d] {m : Eng Unit} {k : Unit → Eng β} (P : ECtx → Prop) (hm : d → Eng.Ends c m (fun _ r => P r))
    (hn : P c) (hk : ∀ r, P r → Eng.Ends r (k ()) Q) : Eng.Ends c (if d then m >>= k else k ()) Q :=
  ite (fun h => bind (hm h) fun _ => hk) fun _ => hk c hn

theorem choose {d : Prop} [Decidable d] {m n : Eng α} {k : α → Eng β} (hm : d → Eng.Ends c m P) (hn : ¬d → Eng.Ends c n P)
    (hk : ∀ a r, P a r → Eng.Ends r (k a) Q) : Eng.Ends c (if d then m >>= k else n >>= k) Q :=
  ite (fun h => bind (hm h) hk) fun h => bind (hn h) hk

/-- A loop that always goes on: what holds after each number of its passes. -/
theorem forIn {l : List α} {f : α → β → Eng (ForInStep β)} (I : Nat → β → ECtx → Prop)
    (hf : ∀ i a b r, l[i]? = some a → I i b r → Eng.Ends r (f a b) (fun x r' => ∃ b', x = .yield b' ∧ I (i + 1) b' r')) :
    ∀ {b : β} {c : ECtx}, I 0 b c → Eng.Ends c (forIn l b f) (I l.length) := by
  induction l generalizing I with
  | nil => exact fun h => pure h
  | cons x xs ih =>
    intro b c h
    rw [List.forIn_cons]
    refine bind (hf 0 x b c rfl h) fun r c' hr => ?_
    obtain ⟨b', rfl, hb⟩ := hr
    exact ih (fun i => I (i + 1)) (fun i a b r ha => hf (i + 1) a b r (by simpa using ha)) hb

end Eng.Ends

/-! ## A body that reads a scratchpad alone (R113, R121) -/

/-- `t` is `s` but for register fields and the energy events: what counts leave. -/
def State.onlyTallied (s t : State) : Prop := t = { s with regs := t.regs, events := t.events }

theorem State.onlyTallied.trans {s t u : State} (h : s.onlyTallied t) (h' : t.onlyTallied u) : s.onlyTallied u := by
  unfold State.onlyTallied at *
  rw [h', h]

/-- A later context `r` of a body that has changed nothing but counts, so far as the instruction itself and the state go. -/
structure ECtx.ReadOnly (c r : ECtx) : Prop where
  p : r.p = c.p
  word : r.word = c.word
  slots : r.slots = c.slots
  state : c.s.onlyTallied r.s

theorem ECtx.ReadOnly.refl (c : ECtx) : c.ReadOnly c := ⟨rfl, rfl, rfl, rfl⟩

theorem ECtx.ReadOnly.trans {c d r : ECtx} (h : c.ReadOnly d) (h' : d.ReadOnly r) : c.ReadOnly r :=
  ⟨h'.p.trans h.p, h'.word.trans h.word, h'.slots.trans h.slots, h.state.trans h'.state⟩

/-- No other requester meets the scratchpad accesses of the instruction, and its core's scratchpad holds no array error. -/
def ECtx.Alone (c : ECtx) : Prop := c.s.rivals c.p c.word.engine .spm = [] ∧ (c.s.core c.p).spmErr = []

theorem ECtx.ReadOnly.core {c r : ECtx} (h : c.ReadOnly r) : r.s.core r.p = c.s.core c.p := by
  rw [h.state, h.p]
  rfl

theorem ECtx.ReadOnly.alone {c r : ECtx} (h : c.ReadOnly r) (hc : c.Alone) : r.Alone := by
  refine ⟨?_, h.core ▸ hc.2⟩
  rw [h.state, h.p, h.word]
  exact hc.1

theorem Eng.Ends.checkBounds_bind {β : Type} {c : ECtx} {Q : β → ECtx → Prop} {sp : Space} {write : Bool} {a n : Nat} {k : Unit → Eng β}
    (hk : Eng.Ends c (k ()) Q) : Eng.Ends c (Eng.checkBounds sp write a n >>= k) Q := by
  refine .bind (P := fun _ r => r = c) ?_ fun _ r h => h ▸ hk
  refine .get_bind (.ite (fun _ => .pure rfl) fun _ => .ite (fun _ => .onState_bind (.fail _)) fun _ => .fail _)

/-- A request that meets nobody is served whole and raises no fault. -/
theorem Eng.request_alone {c : ECtx} {sp : Space} (h : c.s.rivals c.p c.word.engine sp = []) (pos : Nat) (write : Bool) (a n : Nat) :
    Eng.Ends c (Eng.request pos write sp a n) (fun x r => x = ([⟨a, n, []⟩], none) ∧ ∃ o, r = { c with order := o }) := by
  refine .get_bind ?_
  dsimp only
  rw [State.serveUnit_unconcerned _ _ _ _ _ _ _ _ _ _ (by simp [h])]
  exact .set_bind (.pure ⟨rfl, _, rfl⟩)

/-- A read of a scratchpad without array errors counts none (R127). -/
theorem State.spmErrors_nil (s : State) (p a n : Nat) : s.spmErrors p a n [] = (s.bumpBy R.SPM_CNT_ECC_CORR 0 p, []) := rfl

theorem Core.spmRead_length (c : Core) (a n : Nat) : (c.spmRead a n).length = n := by
  simp [Core.spmRead, SMap.getRun]

/-- What is served whole is read as it stands. -/
theorem servedBytes_whole (sp : Space) (a : Nat) (bs : List Byte) : servedBytes [⟨a, bs.length, []⟩] sp a bs = bs := by
  simp [servedBytes]

/-- A unit of the scratchpad read alone: the bytes and the tile's seal as they stand. -/
theorem Eng.readSealed_alone {c : ECtx} (hc : c.Alone) (pos a unit : Nat) :
    Eng.Ends c (Eng.readSealed pos ⟨.spm, a⟩ unit)
      (fun x r => x = ((c.s.core c.p).spmRead a unit, (c.s.core c.p).sealAt a) ∧ c.ReadOnly r) := by
  refine .checkBounds_bind (.bind (Eng.request_alone hc.1 pos false a unit) ?_)
  rintro _ r ⟨rfl, o, rfl⟩
  refine .get_bind ?_
  have hes : servedErrs [⟨a, unit, []⟩] .spm 8 (c.s.core c.p).spmErr = [] := by simp [servedErrs, hc.2]
  dsimp only
  rw [hes]
  simp only [if_true, State.spmErrors_nil, zeroLines_nil]
  refine .set_bind ?_
  refine .pure_bind (.ite (absurd rfl) fun _ => .pure ⟨Prod.ext ?_ ?_, ⟨rfl, rfl, rfl, rfl⟩⟩)
  · have h := servedBytes_whole .spm a ((c.s.core c.p).spmRead a unit)
    rwa [Core.spmRead_length] at h
  · show (c.s.core c.p).sealAt (a / 4096 * 4096) = _
    simp [Core.sealAt]

/-- The address of a unit of an operand that is no queue (R97). -/
theorem Eng.unitAddr_direct {c : ECtx} {pos : Nat} (hq : (c.slots.getD pos AdgSlot.zero).queue = false) (unit n : Nat) (write : Bool) :
    Eng.unitAddr pos unit n write c = .ok ⟨(c.slots.getD pos AdgSlot.zero).space, (c.slots.getD pos AdgSlot.zero).addr unit n⟩ c := by
  show (if (c.slots.getD pos AdgSlot.zero).queue = true then _ else pure _ : Eng TileAt) c = _
  rw [hq]
  rfl

/-- The seal checks of a body that ends leave its context but for what they checked and for the poison they found (R213, R219). -/
theorem Eng.checkReads_ends (c : ECtx) : Eng.Ends c Eng.checkReads (fun _ r => ∃ b, r = { c with reads := [], poison := b }) := by
  refine .get_bind (.bind (.forIn (fun _ _ r => ∃ b, r = { c with poison := b }) ?_ ⟨_, rfl⟩) ?_)
  · rintro _ a ⟨⟩ _ _ ⟨b, rfl⟩
    refine .ite (fun _ => .pure ⟨_, rfl, b, rfl⟩) fun _ => .ite (fun _ => .slot_bind (.core_bind ?_))
      fun _ => .ite (fun _ => .modify_bind (.pure ⟨_, rfl, true, rfl⟩)) fun _ => .pure ⟨_, rfl, b, rfl⟩
    dsimp only
    split
    · exact .bind (P := fun _ _ => True) ⟨fun _ _ _ => trivial⟩ fun _ _ _ =>
        .bind (P := fun _ _ => False) (.get_bind (.onState_bind (.fail _))) fun _ _ h => h.elim
    · exact .pure ⟨_, rfl, b, rfl⟩
  · rintro _ _ ⟨b, rfl⟩
    exact .modify ⟨b, rfl⟩

/-! ## Flits placed on a flow (R82, R258, R285, R288) -/

/-- Flits sent on a route are at the tail of its flow, with its NEXT (R291, R295). -/
theorem State.sendRoute_flow (s : State) (i : Nat) (fs : List (Flit × Owner)) :
    ((s.sendRoute i fs).port (s.route i).port).flow (s.route i).flow =
      (s.port (s.route i).port).flow (s.route i).flow ++ fs.map (fun x => ({ x.1 with route := (s.route i).next }, x.2)) := by
  unfold State.sendRoute State.pushFlow
  rw [State.port_onPort_same]
  exact SMap.get_set_same ..

theorem State.sendRoute_port_ne (s : State) (i : Nat) (fs : List (Flit × Owner)) {n : Nat} (h : n ≠ (s.route i).port) :
    (s.sendRoute i fs).port n = s.port n := by
  unfold State.sendRoute State.pushFlow
  rw [State.port_onPort, if_neg h]

/-- Both parts of a list of lists of one length. -/
theorem getElem?_flatMap_const {α β : Type} {f : α → List β} {n : Nat} (l : List α) (hf : ∀ x ∈ l, (f x).length = n) :
    (l.flatMap f).length = n * l.length ∧ ∀ j i, i < n → (l.flatMap f)[n * j + i]? = l[j]?.bind (fun x => (f x)[i]?) := by
  induction l with
  | nil => simp
  | cons x xs ih =>
    obtain ⟨hx, hxs⟩ := List.forall_mem_cons.1 hf
    obtain ⟨h1, h2⟩ := ih hxs
    rw [List.flatMap_cons]
    refine ⟨by rw [List.length_append, hx, h1, List.length_cons, Nat.mul_succ, Nat.add_comm], fun j i hi => ?_⟩
    cases j with
    | zero => simp [List.getElem?_append_left, hx, hi]
    | succ j =>
      rw [List.getElem?_append_right (by rw [hx, Nat.mul_succ]; omega), hx, Nat.mul_succ, List.getElem?_cons_succ, ← h2 j i hi]
      congr 1
      omega

/-- A part of what a scratchpad holds. -/
theorem Core.spmRead_part (c : Core) {a n i k : Nat} (h : i + k ≤ n) : ((c.spmRead a n).drop i).take k = c.spmRead (a + i) k := by
  refine List.ext_getElem (by simp [Core.spmRead_length]; omega) fun j h1 h2 => ?_
  simp [Core.spmRead, SMap.getRun, Nat.add_assoc]

/-- The flits of the `j`-th of `k` tiles that an LPUT sends: the last of the last tile has the signal (R82, R258). -/
def lputFlits (w : Slot) (tag k j : Nat) (x : List Byte × Seal) : List Flit :=
  tileFlits w.rwin (w.woffset + 64 * j) tag x.1 x.2 (if w.stgt = 3 ∧ j + 1 = k then (w.sflag, w.sinc) else (0, 0))

/-- The tiles that an LPUT reads: content and seal (R100). -/
def Core.lputTiles (c : Core) (a : AdgSlot) (k : Nat) : List (List Byte × Seal) :=
  (List.range k).map (fun j => (c.spmRead (a.addr 4096 j) 4096, c.sealAt (a.addr 4096 j)))

/-- In `r` an LPUT that began in `c` has placed the flits `fs` on the flow of its route, whatever else it has changed but the routes. -/
structure ECtx.hasSent (c r : ECtx) (fs : List Flit) : Prop where
  routes : r.s.routes = c.s.routes
  flow : (r.s.port (c.s.route c.word.route).port).flow (c.s.route c.word.route).flow =
    (c.s.port (c.s.route c.word.route).port).flow (c.s.route c.word.route).flow ++
      fs.map (fun f => ({ f with route := (c.s.route c.word.route).next }, Owner.lse c.p c.s.stamp))

theorem State.addDigest_only (s : State) (p space addr : Nat) (x : Seal) :
    s.addDigest p space addr x = { s with digests := (s.addDigest p space addr x).digests } := by
  unfold State.addDigest
  split <;> rfl

theorem ECtx.hasSent.addDigest {c r : ECtx} {fs : List Flit} (h : c.hasSent r fs) (p space addr : Nat) (x : Seal) :
    c.hasSent { r with s := r.s.addDigest p space addr x } fs := by
  rw [State.addDigest_only]
  exact ⟨h.routes, h.flow⟩

/-- Further flits sent on the route. -/
theorem ECtx.hasSent.send {c r : ECtx} {fs : List Flit} (h : c.hasSent r fs) (gs : List Flit) :
    c.hasSent { r with s := r.s.sendRoute c.word.route (gs.map (fun f => (f, Owner.lse c.p c.s.stamp))) } (fs ++ gs) := by
  have hroute : r.s.route c.word.route = c.s.route c.word.route := by
    unfold State.route
    rw [h.routes]
  have hsent := r.s.sendRoute_flow c.word.route (gs.map (fun f => (f, Owner.lse c.p c.s.stamp)))
  rw [hroute, h.flow] at hsent
  refine ⟨h.routes, hsent.trans ?_⟩
  simp

/-- The flits that an LPUT of the tiles `ts` has sent after `i` of them. -/
def lputSent (w : Slot) (tag : Nat) (ts : List (List Byte × Seal)) (i : Nat) : List Flit :=
  (ts.zipIdx.take i).flatMap (fun t => lputFlits w tag ts.length t.2 t.1)

theorem Core.length_lputTiles (c : Core) (a : AdgSlot) (k : Nat) : (c.lputTiles a k).length = k := by
  simp [Core.lputTiles]

theorem Core.getElem?_lputTiles (c : Core) (a : AdgSlot) {k j : Nat} (h : j < k) :
    (c.lputTiles a k)[j]? = some (c.spmRead (a.addr 4096 j) 4096, c.sealAt (a.addr 4096 j)) := by
  simp [Core.lputTiles, h]

/-- What an LPUT that reads alone places on its flow (R258). -/
theorem Eng.bodyLput_ends {c : ECtx} (hc : c.Alone) (hq : (c.slots.getD 0 AdgSlot.zero).queue = false) :
    Eng.Ends c bodyLput (fun _ r =>
      let ts := (c.s.core c.p).lputTiles (c.slots.getD 0 AdgSlot.zero) (max 1 (c.slots.getD 0 AdgSlot.zero).period)
      c.hasSent r (lputSent c.word (c.s.core c.p).handTag ts ts.length)) := by
  refine .slot_bind (.ite (fun _ => .fail_bind _) fun hsp => ?_)
  have hspace : (c.slots.getD 0 AdgSlot.zero).space = .spm := not_not.1 hsp
  refine .bind (.forIn (fun i tiles r => tiles = (c.s.core c.p).lputTiles (c.slots.getD 0 AdgSlot.zero) i ∧ c.ReadOnly r) ?_ ⟨rfl, .refl c⟩) ?_
  · rintro i j tiles r hj ⟨rfl, hr⟩
    obtain ⟨-, rfl⟩ := List.getElem?_eq_some_iff.1 hj
    refine .bind_ok (Eng.unitAddr_direct (hr.slots ▸ hq) ..) ?_
    rw [hr.slots, hspace]
    refine .bind (Eng.readSealed_alone (hr.alone hc) ..) ?_
    rintro _ r' ⟨rfl, hr'⟩
    refine .pure ⟨_, rfl, ?_, hr.trans hr'⟩
    rw [hr.core]
    simp [Core.lputTiles, List.range_succ]
  · rintro ts r ⟨hts, hr⟩
    refine .bind (Eng.checkReads_ends r) ?_
    rintro _ _ ⟨b, rfl⟩
    refine .guarded c.ReadOnly (fun _ => .modify ⟨hr.p, hr.word, hr.slots, hr.state.trans rfl⟩)
      ⟨hr.p, hr.word, hr.slots, hr.state⟩ fun d hd => ?_
    have hcore := hd.core
    obtain ⟨hp, hword, -, hstate⟩ := hd
    refine .get_bind (.core_bind (.bind (.forIn (fun i _ r => c.hasSent r (lputSent c.word (c.s.core c.p).handTag ts i)) ?_ ?_) ?_))
    · rintro i x ⟨⟩ r hi hr
      refine .guarded (c.hasSent · _) (fun _ => .onState (hr.addDigest ..)) hr fun r hr =>
        .guarded (c.hasSent · _) (fun _ => .modify ⟨hr.routes, hr.flow⟩) hr fun r hr => .onState_bind (.pure ⟨_, rfl, ?_⟩)
      have e : lputSent c.word (c.s.core c.p).handTag ts (i + 1) =
          lputSent c.word (c.s.core c.p).handTag ts i ++ lputFlits c.word (c.s.core c.p).handTag ts.length x.2 x.1 := by
        unfold lputSent
        rw [List.take_add_one, hi, List.flatMap_append]
        simp
      rw [e, hcore, hword, hp, hstate]
      exact hr.send _
    · exact ⟨by rw [hstate], by rw [hstate]; exact (List.append_nil _).symm⟩
    · intro _ r' h
      refine .pure ?_
      rw [List.length_zipIdx, hts, List.length_range] at h
      exact h

/-- The `i`-th flit of a tile (R258). -/
theorem getElem?_tileFlits (win off tag : Nat) (bs : List Byte) (x : Seal) (sig : Nat × Nat) {i : Nat} (hi : i < 16) :
    (tileFlits win off tag bs x sig)[i]? = some { Flit.zero with
      ty := if i = 15 then 2 else 1, window := win, offset := off + 4 * i, tag := tag, payload := (bs.drop (256 * i)).take 256,
      carry := if i = 15 then x else Flit.zero.carry, sflag := if i = 15 then sig.1 else 0, sinc := if i = 15 then sig.2 else 0 } := by
  unfold tileFlits
  rw [List.getElem?_map, List.getElem?_range hi]
  by_cases h : i = 15
  · simp [h]
  · simp only [h, if_false, Option.map_some]
    rfl

/-- The flits of an LPUT: 16 for each tile, and the `i`-th of the `j`-th. -/
theorem lputSent_flits (w : Slot) (tag : Nat) (ts : List (List Byte × Seal)) :
    (lputSent w tag ts ts.length).length = 16 * ts.length ∧
    ∀ j i, i < 16 → (lputSent w tag ts ts.length)[16 * j + i]? = ts[j]?.bind (fun x => (lputFlits w tag ts.length j x)[i]?) := by
  have h := getElem?_flatMap_const (f := fun t => lputFlits w tag ts.length t.2 t.1) (n := 16) ts.zipIdx (by simp [lputFlits, tileFlits])
  rw [List.length_zipIdx] at h
  unfold lputSent
  rw [List.take_of_length_le (by simp)]
  refine ⟨h.1, fun j i hi => (h.2 j i hi).trans ?_⟩
  rw [List.getElem?_zipIdx]
  cases ts[j]? <;> simp

/-- The flit of an LFETCH, but for its route (R288). -/
def Core.fetchFlit (c : Core) (w : Slot) (a : AdgSlot) : Flit :=
  { Flit.zero with ty := 4, window := w.rwin, offset := w.woffset, tag := c.handTag,
                   payload := payloadOf [(0, 2, max 1 a.period), (2, 1, c.freeTag)] }

/-- Settles O21: LSIG and LFETCH send one flit; LPUT sends the flits of each tile it has read, in order. -/
theorem linkEngineSends : Obligations.LinkEngineSends := by
  refine ⟨fun c => ⟨⟨_, rfl, c.s.sendRoute_flow .., rfl, fun n hn => c.s.sendRoute_port_ne _ _ hn⟩, fun hsp hper => ?_⟩,
    fun c r e hq hrivals herr => ?_⟩
  · refine ⟨{ c with s := c.s.sendRoute c.word.route [((c.s.core c.p).fetchFlit c.word (c.slots.getD 1 AdgSlot.zero), .none)] }, ?_,
      c.s.sendRoute_flow .., rfl, fun n hn => c.s.sendRoute_port_ne _ _ hn⟩
    show (if _ then _ else if _ then _ else _ : Eng Unit) c = _
    rw [if_neg (not_not.2 hsp), if_neg (Nat.not_lt.2 hper)]
    rfl
  · have h := (Eng.bodyLput_ends ⟨hrivals _, herr⟩ hq).ended () r e
    have hlength := (c.s.core c.p).length_lputTiles (c.slots.getD 0 AdgSlot.zero) (max 1 (c.slots.getD 0 AdgSlot.zero).period)
    have htile := fun j => (c.s.core c.p).getElem?_lputTiles (c.slots.getD 0 AdgSlot.zero) (k := max 1 (c.slots.getD 0 AdgSlot.zero).period) (j := j)
    generalize (c.s.core c.p).lputTiles (c.slots.getD 0 AdgSlot.zero) (max 1 (c.slots.getD 0 AdgSlot.zero).period) = ts at h hlength htile
    obtain ⟨hlen, hflits⟩ := lputSent_flits c.word (c.s.core c.p).handTag ts
    refine ⟨(lputSent c.word (c.s.core c.p).handTag ts ts.length).map (fun f => { f with route := (c.s.route c.word.route).next }), ?_,
      h.flow.trans ?_, fun j hj i hi => ?_⟩
    · rw [List.length_map, hlen, hlength]
    · simp
    · rw [List.getElem?_map, hflits j i hi, htile j hj, Option.bind_some, lputFlits, getElem?_tileFlits _ _ _ _ _ _ hi]
      rw [hlength, Core.spmRead_part _ (by omega)]
      generalize max 1 (c.slots.getD 0 AdgSlot.zero).period = k
      by_cases hlast : c.word.stgt = 3 ∧ j + 1 = k
      · simp [hlast]
      · have hlast' : ¬(j + 1 = k ∧ c.word.stgt = 3) := fun h => hlast h.symm
        by_cases h15 : i = 15
        · simp only [hlast, hlast', h15, if_true, if_false, true_and, Option.map_some]
        · simp [h15]

end Sys2Proof.Machine
end

-- ==== Engine bodies: steps of the state ====
section
/-! PROOFS. What the operations of an engine body change of the package, and where the pieces of a unit lie (R113 to R127, R235). -/

namespace Sys2Proof.Machine

/-! ## What a part of an engine body may change (R77, R97, R98, R125) -/

/-- `t` is `s` but for what engine instructions change outside the cores and memories: counts, records, messages, energy events, free values,
AER logs, digests and flits. -/
def State.onlyNoted (s t : State) : Prop :=
  t = { s with regs := t.regs, free := t.free, outbox := t.outbox, digests := t.digests, msixPend := t.msixPend, ports := t.ports,
               recs := t.recs, events := t.events, pcie := t.pcie }

/-- `t` is `s` but for what engine instructions change. -/
def State.onlyEngine (s t : State) : Prop :=
  t = { s with regs := t.regs, free := t.free, outbox := t.outbox, cores := t.cores, hbm := t.hbm, ddr := t.ddr, digests := t.digests,
               msixPend := t.msixPend, ports := t.ports, recs := t.recs, events := t.events, pcie := t.pcie }

theorem State.onlyNoted.refl (s : State) : s.onlyNoted s := rfl

theorem State.onlyNoted.trans {s t u : State} (h : s.onlyNoted t) (h' : t.onlyNoted u) : s.onlyNoted u := by
  unfold State.onlyNoted at *
  rw [h', h]

theorem State.onlyEngine.trans {s t u : State} (h : s.onlyEngine t) (h' : t.onlyEngine u) : s.onlyEngine u := by
  unfold State.onlyEngine at *
  rw [h', h]

theorem State.onlyNoted.engine {s t : State} (h : s.onlyNoted t) : s.onlyEngine t := by
  unfold State.onlyNoted at h
  unfold State.onlyEngine
  rw [h]

theorem State.onlyCounts.noted {s t : State} (h : s.onlyCounts t) : s.onlyNoted t := by
  unfold State.onlyCounts at h
  unfold State.onlyNoted
  rw [h]

theorem State.onlyNoted.byteOf {s t : State} (h : s.onlyNoted t) (p : Nat) (sp : Space) (b : Nat) : t.byteOf p sp b = s.byteOf p sp b := by
  unfold State.onlyNoted at h
  rw [h]
  cases sp <;> rfl

theorem State.onlyNoted.core {s t : State} (h : s.onlyNoted t) (q : Nat) : t.core q = s.core q := by
  unfold State.onlyNoted at h
  rw [h]
  rfl

/-- `d` is the core `c` but for what its engines change; each queue keeps its place, and its tail only grows. -/
structure Core.onlyEngine (c d : Core) : Prop where
  fields : d = { c with queues := d.queues, bufs := d.bufs, blocks := d.blocks, spm := d.spm, seals := d.seals, spmErr := d.spmErr,
                        seaInject := d.seaInject, mxuInject := d.mxuInject }
  queues : ∀ (q : Nat) (y : HwQueue), d.queues[q]? = some y →
    ∃ x : HwQueue, c.queues[q]? = some x ∧ y.base = x.base ∧ y.depth = x.depth ∧ ∃ k, y.tail = x.tail + k

theorem Core.onlyEngine.refl (c : Core) : c.onlyEngine c := ⟨rfl, fun _ y h => ⟨y, h, rfl, rfl, 0, rfl⟩⟩

theorem Core.onlyEngine.trans {c d e : Core} (h : c.onlyEngine d) (h' : d.onlyEngine e) : c.onlyEngine e := by
  refine ⟨?_, fun q z hz => ?_⟩
  · obtain ⟨h, -⟩ := h
    obtain ⟨h', -⟩ := h'
    rw [h', h]
  · obtain ⟨y, hy, hb, hd, k, ht⟩ := h'.queues q z hz
    obtain ⟨x, hx, hb', hd', k', ht'⟩ := h.queues q y hy
    exact ⟨x, hx, hb.trans hb', hd.trans hd', k' + k, by omega⟩

/-- `d` is the core `c` but for what its engines hold and store, its queues apart. -/
def Core.onlyStored (c d : Core) : Prop :=
  d = { c with bufs := d.bufs, blocks := d.blocks, spm := d.spm, seals := d.seals, spmErr := d.spmErr, seaInject := d.seaInject,
               mxuInject := d.mxuInject }

theorem Core.onlyStored.engine {c d : Core} (h : c.onlyStored d) : c.onlyEngine d := by
  unfold Core.onlyStored at h
  refine ⟨by rw [h], fun q y hy => ⟨y, ?_, rfl, rfl, 0, rfl⟩⟩
  rw [h] at hy
  exact hy

/-- `d` is the core `c` but for its stationary buffers, accumulator blocks, seals and injection marks. -/
def Core.onlyHeld (c d : Core) : Prop :=
  d = { c with bufs := d.bufs, blocks := d.blocks, seals := d.seals, seaInject := d.seaInject, mxuInject := d.mxuInject }

theorem Core.onlyHeld.stored {c d : Core} (h : c.onlyHeld d) : c.onlyStored d := by
  unfold Core.onlyHeld at h
  unfold Core.onlyStored
  rw [h]

theorem Core.onlyHeld.spm {c d : Core} (h : c.onlyHeld d) : d.spm = c.spm := by
  unfold Core.onlyHeld at h
  rw [h]

theorem Core.onlyHeld.foldl {α : Type} {f : Core → α → Core} (hf : ∀ (c : Core) (x : α), c.onlyHeld (f c x)) (l : List α) :
    ∀ c : Core, c.onlyHeld (l.foldl f c) := by
  induction l with
  | nil => exact fun _ => rfl
  | cons x xs ih =>
    intro c
    have h := hf c x
    have h' := ih (f c x)
    unfold Core.onlyHeld at *
    rw [List.foldl_cons, h', h]

/-- A step of the state of an engine body of core `p` that changes bytes only where `B` holds. -/
structure State.EngineStep (p : Nat) (B : Space → Nat → Prop) (s t : State) : Prop where
  only : s.onlyEngine t
  others : CoresKept s t [p]
  core : (s.core p).onlyEngine (t.core p)
  bytes : ∀ sp b, ¬B sp b → t.byteOf p sp b = s.byteOf p sp b

namespace State.EngineStep
variable {p : Nat} {B : Space → Nat → Prop} {s t u : State}

theorem refl (s : State) : State.EngineStep p B s s := ⟨rfl, fun _ _ => rfl, .refl _, fun _ _ _ => rfl⟩

theorem trans (h : State.EngineStep p B s t) (h' : State.EngineStep p B t u) : State.EngineStep p B s u :=
  ⟨h.only.trans h'.only, fun q hq => (h'.others q hq).trans (h.others q hq), h.core.trans h'.core,
    fun sp b hb => (h'.bytes sp b hb).trans (h.bytes sp b hb)⟩

theorem mono {B' : Space → Nat → Prop} (h : State.EngineStep p B s t) (hB : ∀ sp b, B sp b → B' sp b) : State.EngineStep p B' s t :=
  ⟨h.only, h.others, h.core, fun sp b hb => h.bytes sp b fun hb' => hb (hB sp b hb')⟩

theorem of_noted (h : s.onlyNoted t) : State.EngineStep p B s t :=
  ⟨h.engine, fun q _ => h.core q, h.core p ▸ .refl _, fun sp b _ => h.byteOf p sp b⟩

/-- A change of the running core that leaves its bytes. -/
theorem onEngine {f : Core → Core} (hf : (s.core p).onlyEngine (f (s.core p))) (hspm : (f (s.core p)).spm = (s.core p).spm) :
    State.EngineStep p B s (s.onCore p f) := by
  refine ⟨rfl, fun q hq => s.core_onCore_ne _ (by simpa using hq), ?_, fun sp b _ => ?_⟩
  · rw [State.core_onCore_same]
    exact hf
  · cases sp
    case spm => exact congrArg (fun m => SMap.get 0#8 m b) ((congrArg Core.spm (s.core_onCore_same ..)).trans hspm)
    all_goals rfl

theorem onCore {f : Core → Core} (hf : ∀ c : Core, c.onlyHeld (f c)) : State.EngineStep p B s (s.onCore p f) :=
  onEngine (hf _).stored.engine (hf _).spm

/-- A change of device memory that leaves its bytes. -/
theorem of_tiers (h : t = { s with hbm := t.hbm, ddr := t.ddr }) (hh : t.hbm.bytes = s.hbm.bytes) (hd : t.ddr.bytes = s.ddr.bytes) :
    State.EngineStep p B s t := by
  have hc : ∀ q, t.core q = s.core q := fun q => by rw [h]; rfl
  refine ⟨by rw [h]; rfl, fun q _ => hc q, hc p ▸ .refl _, fun sp b _ => ?_⟩
  unfold State.byteOf
  rw [hc, hh, hd]

theorem foldl {α : Type} {f : State → α → State} (l : List α) (hf : ∀ x ∈ l, ∀ s, State.EngineStep p B s (f s x)) :
    ∀ s, State.EngineStep p B s (l.foldl f s) := by
  induction l with
  | nil => exact refl
  | cons x xs ih =>
    obtain ⟨hx, hxs⟩ := List.forall_mem_cons.1 hf
    exact fun s => (hx s).trans (ih hxs _)

end State.EngineStep

/-! ## The state's operations as steps of a body -/

section
variable {p : Nat} {B : Space → Nat → Prop}

theorem State.setSealOf_step (s : State) (t : TileAt) (x : Seal) : State.EngineStep p B s (s.setSealOf p t x) := by
  unfold State.setSealOf
  split
  · exact .onCore fun _ => rfl
  · exact .of_tiers rfl rfl rfl
  · exact .of_tiers rfl rfl rfl
  · exact .refl s

theorem State.tallyAccess_noted (s : State) (q : Nat) (sp : Space) (a n : Nat) : s.onlyNoted (s.tallyAccess q sp a n) := by
  cases sp <;> rfl

theorem State.raiseEvt_noted {s t : State} (h : s.onlyNoted t) (b : Block) (i bit code : Nat) : s.onlyNoted (t.raiseEvt b i bit code) := by
  refine h.trans ?_
  unfold State.onlyNoted
  rw [State.raiseEvt_frame]

theorem State.onlyNoted.wr {s t : State} (h : s.onlyNoted t) (f : Fld) (v i k : Nat) : s.onlyNoted (t.wr f v i k) := h.trans rfl

theorem State.record1_noted (s : State) (f : Fld) (i : Nat) {put : State → State} (h : ∀ x : State, x.onlyNoted (put x)) :
    s.onlyNoted (s.record1 f i put) := by
  unfold State.record1
  dsimp only
  split_ifs
  · rfl
  · exact State.onlyNoted.trans (by rfl) (h _)

theorem State.onlyNoted.wrPair {s t : State} (h : s.onlyNoted t) (lo hi : Fld) (v i k : Nat) : s.onlyNoted (t.wrPair lo hi v i k) :=
  (h.wr ..).wr ..

theorem State.eccRecord_noted (s : State) (sp : Space) (inst word tile : Nat) (scrub : Bool) : s.onlyNoted (s.eccRecord sp inst word tile scrub) := by
  unfold State.eccRecord
  split_ifs
  · exact State.record1_noted _ _ _ fun x => (((State.onlyNoted.refl x).wr ..).wr ..).wrPair ..
  · exact State.record1_noted _ _ _ fun x => (((State.onlyNoted.refl x).wr ..).wr ..).wrPair ..

theorem State.wordErrors_step (s : State) (sp : Space) (lo hi : Nat) (es : SMap MemErr) :
    State.EngineStep p B s (s.wordErrors sp lo hi es).1 := by
  have corrected (es' : SMap MemErr) : State.EngineStep p B s
      (if sp = .hbm then { s with hbm := { (if sp = .hbm then s.hbm else s.ddr) with err := es' } }
        else { s with ddr := { (if sp = .hbm then s.hbm else s.ddr) with err := es' } }) := by
    by_cases h : sp = .hbm
    · simp only [h, if_true]
      exact .of_tiers rfl rfl rfl
    · simp only [h, if_false]
      exact .of_tiers rfl rfl rfl
  unfold State.wordErrors
  dsimp only
  split
  · exact .trans (corrected _) (.of_noted ((State.onlyNoted.refl _).wr ..))
  · refine .trans (.trans (corrected _) (.of_noted (State.raiseEvt_noted
      ((((State.onlyNoted.refl _).wr ..).wr ..).trans (State.eccRecord_noted ..)) ..))) (.foldl _ (fun _ _ s => ?_) _)
    split_ifs
    · exact .of_tiers rfl rfl rfl
    · exact .of_tiers rfl rfl rfl

theorem State.spmErrors_step (s : State) (a n : Nat) (es : SMap MemErr) : State.EngineStep p B s (s.spmErrors p a n es).1 := by
  unfold State.spmErrors
  dsimp only
  split
  · exact .of_noted ((State.onlyNoted.refl _).wr ..)
  · refine .trans (.of_noted (State.raiseEvt_noted ((((State.onlyNoted.refl _).wr ..).wr ..).trans (State.record1_noted _ _ _ fun x => ?_)) ..))
      (.foldl _ (fun _ _ _ => .onCore fun _ => by rfl) _)
    exact ((State.onlyNoted.refl x).wr ..).wr ..

theorem State.hostRead_noted {s t : State} {fn a n : Nat} {o : Option (List Byte)} (h : s.hostRead fn a n = (o, t)) : s.onlyNoted t := by
  have h := congrArg Prod.snd h
  unfold State.hostRead at h
  dsimp only at h
  split_ifs at h <;> subst h <;> rfl

theorem State.hostRead_length {s : State} {fn a n : Nat} {bs : List Byte} (h : (s.hostRead fn a n).1 = some bs) : bs.length = n := by
  unfold State.hostRead at h
  dsimp only at h
  split_ifs at h
  cases h
  simp

theorem State.hostWrite_noted (s : State) (fn a : Nat) (bs : List Byte) : s.onlyNoted (s.hostWrite fn a bs) := by
  unfold State.hostWrite
  split_ifs <;> rfl

theorem State.sealFault_noted (s : State) (q bit code cnt engine pos : Nat) (t : TileAt) (x' : Seal) (part : Bool) (ex pc : Nat) :
    s.onlyNoted (s.sealFault q bit code cnt engine pos t x' part ex pc) := by
  unfold State.sealFault
  refine State.raiseEvt_noted ?_ _ _ _ _
  have h := State.record1_noted s R.SEA_FAULT_INFO_VALID q fun x : State =>
    (((((((((((State.onlyNoted.refl x).wr R.SEA_FAULT_INFO_ENGINE engine q 0).wr R.SEA_FAULT_INFO_OPERAND pos q 0).wr
      R.SEA_FAULT_INFO_SPACE t.space.code q 0).wr R.SEA_FAULT_INFO_PARTIAL (ofBool part) q 0).wrPair R.SEA_FAULT_ADDR_LO R.SEA_FAULT_ADDR_HI
      t.addr q 0).wrPair R.SEA_FAULT_SEAL_LO R.SEA_FAULT_SEAL_HI x'.toNat q 0).wr R.SEA_FAULT_PC pc q 0).wr R.SEA_FAULT_EXPECT_GEN
      (bitsOf ex 0 16) q 0).wr R.SEA_FAULT_EXPECT_FMT (bitsOf ex 16 4) q 0).wr R.SEA_FAULT_EXPECT_SCALE (bitsOf ex 20 2) q 0).wr
      R.SEA_FAULT_EXPECT_EPOCH (bitsOf ex 22 8) q 0
  split <;> exact h.wr ..

theorem State.addDigest_noted (s : State) (q space addr : Nat) (x : Seal) : s.onlyNoted (s.addDigest q space addr x) := by
  unfold State.addDigest
  split <;> rfl

theorem State.pendingUse_noted (s : State) (q skip : Nat) (seen : SMap Nat) (n pos : Nat) (push : Bool) :
    s.onlyNoted (s.pendingUse q skip seen n pos push).2 := by
  unfold State.pendingUse
  dsimp only
  split <;> rfl

end

/-! ## Pieces of a unit (R114, R121, R122, R235) -/

/-- Bytes that a piece writes lie in a range. -/
def insideOf (a n : Nat) (x : Nat × List Byte) : Prop := ∀ b, x.1 ≤ b → b < x.1 + x.2.length → a ≤ b ∧ b < a + n

theorem insideOf.trans {a n : Nat} {x y : Nat × List Byte} (h : insideOf a n x) (h' : insideOf x.1 x.2.length y) : insideOf a n y :=
  fun b hb hb' => h b (h' b hb hb').1 (h' b hb hb').2

/-- A part of the bytes that start at `a`. -/
theorem insideOf_part {a m i : Nat} (k : Nat) (bs : List Byte) (h : a ≤ m) (hi : i = m - a) : insideOf a bs.length (m, (bs.drop i).take k) := by
  intro b hb hb'
  simp only [List.length_take, List.length_drop] at hb'
  omega

theorem le_partsOf {w a n : Nat} {x : Nat × Nat} (h : x ∈ partsOf w a n) : a ≤ x.1 := by
  obtain ⟨k, -, rfl⟩ := List.mem_map.1 h
  exact Nat.le_max_left ..

/-- The parts of a range have together no more bytes than the range. -/
theorem sum_partsOf (w a n : Nat) : ((partsOf w a n).map (·.2)).sum ≤ n := by
  have upTo (k : Nat) : (((List.range k).map (fun i => min (a + n) (w * (a / w + i + 1)) - max a (w * (a / w + i)))).sum) ≤
      min (a + n) (w * (a / w + k)) - a := by
    induction k with
    | zero => simp
    | succ k ih =>
      rw [List.range_succ, List.map_append, List.sum_append, List.map_singleton, List.sum_singleton]
      have hm : w * (a / w + k) ≤ w * (a / w + (k + 1)) := Nat.mul_le_mul_left _ (by omega)
      rw [show a / w + k + 1 = a / w + (k + 1) from rfl]
      generalize w * (a / w + (k + 1)) = y at *
      generalize w * (a / w + k) = x at *
      omega
  have h := upTo ((a + n + w - 1) / w - a / w)
  unfold partsOf
  rw [List.map_map]
  refine h.trans ?_
  omega

/-- The parts in which a unit is served. -/
theorem State.serveParts_parts (l : List (Nat × Nat)) : ∀ (s : State) (p code pc : Nat) (write : Bool) (sp : Space) (rs : List Rival) (o : Order),
    (s.serveParts p code pc write sp rs o l).1.1.map (fun v => (v.a, v.n)) = l := by
  induction l with
  | nil => intros; rfl
  | cons x xs ih =>
    intro s p code pc write sp rs o
    exact congrArg (x :: ·) (ih _ _ _ _ _ _ _ _)

theorem State.serveUnit_parts (s : State) (p code pc : Nat) (write : Bool) (sp : Space) (a n : Nat) (o : Order) (rs : List Rival) :
    (∀ v ∈ (s.serveUnit p code pc write sp a n o rs).1.1, a ≤ v.a) ∧
    ((s.serveUnit p code pc write sp a n o rs).1.1.map (·.n)).sum ≤ n := by
  have parts {l : List (Nat × Nat)} {vs : List Served} (h : vs.map (fun v => (v.a, v.n)) = l)
      (ha : ∀ x ∈ l, a ≤ x.1) (hn : (l.map (·.2)).sum ≤ n) :
      (∀ v ∈ vs, a ≤ v.a) ∧ (vs.map (·.n)).sum ≤ n := by
    subst h
    refine ⟨fun v hv => ha _ (List.mem_map_of_mem hv), ?_⟩
    rwa [List.map_map] at hn
  unfold State.serveUnit
  split_ifs
  · exact parts (State.serveParts_parts ..) (by simp) (by simp)
  · exact parts (State.serveParts_parts ..) (fun x hx => le_partsOf hx) (sum_partsOf ..)

/-- What stays of a write once every rival has been served lies in what was written. -/
theorem mem_servedPieces {vs : List Served} {sp : Space} {a : Nat} {bs : List Byte} (hv : ∀ v ∈ vs, a ≤ v.a) {x : Nat × List Byte}
    (hx : x ∈ servedPieces vs sp a bs) : insideOf a bs.length x := by
  have kept (ms : List Meet) (m : Nat) (cs : List Byte) (hx : x ∈ keptPieces ms sp m cs) : insideOf m cs.length x := by
    obtain ⟨l, hl, hx⟩ := List.mem_flatMap.1 hx
    split at hx
    · obtain rfl := List.mem_singleton.1 hx
      exact insideOf_part _ _ (le_partsOf hl) rfl
    · obtain ⟨y, hy, rfl⟩ := List.mem_map.1 hx
      exact insideOf_part _ _ ((le_partsOf hl).trans (le_partsOf (List.mem_filter.1 hy).1)) rfl
  obtain ⟨v, hvm, hx⟩ := List.mem_flatMap.1 hx
  refine (insideOf_part v.n bs (hv v hvm) rfl).trans ?_
  unfold writtenPieces at hx
  split at hx
  · obtain rfl := List.mem_singleton.1 hx
    exact fun b hb hb' => ⟨hb, hb'⟩
  · exact kept _ _ _ hx

@[simp] theorem length_overlay (a : Nat) (bs : List Byte) (o : Nat × List Byte) : (overlay a bs o).length = bs.length := by
  simp [overlay]

theorem length_foldl_overlay (a : Nat) (os : List (Nat × List Byte)) (bs : List Byte) : (os.foldl (overlay a) bs).length = bs.length :=
  foldl_kept List.length (fun _ _ => length_overlay ..) os bs

@[simp] theorem length_unserved (ms : List Meet) (sp : Space) (a : Nat) (bs : List Byte) : (unserved ms sp a bs).length = bs.length := by
  unfold unserved
  refine foldl_kept List.length (fun bs m => foldl_kept List.length (fun bs r => ?_) _ bs) ms bs
  split_ifs
  · exact length_foldl_overlay ..
  · rfl

@[simp] theorem length_zeroLines (a : Nat) (bs : List Byte) (bad : List Nat) : (zeroLines a bs bad).length = bs.length := by
  simp [zeroLines]

/-- A read delivers no more bytes than the unit has. -/
theorem length_servedBytes (vs : List Served) (sp : Space) (a : Nat) (stored : List Byte) :
    (servedBytes vs sp a stored).length ≤ (vs.map (·.n)).sum := by
  unfold servedBytes
  induction vs with
  | nil => simp
  | cons v vs ih =>
    rw [List.flatMap_cons, List.length_append, List.map_cons, List.sum_cons]
    refine Nat.add_le_add ?_ ih
    rw [length_unserved, List.length_take]
    exact Nat.min_le_left ..

/-! ## Bytes stored -/

theorem State.store_step (s : State) (p : Nat) (sp : Space) (x : Nat × List Byte) :
    State.EngineStep p (fun sp' b => sp' = sp ∧ x.1 ≤ b ∧ b < x.1 + x.2.length) s (s.store p sp x) := by
  have outside {sp' : Space} {b : Nat} (e : sp' = sp) (hb : ¬(sp' = sp ∧ x.1 ≤ b ∧ b < x.1 + x.2.length)) :
      ¬(x.1 ≤ b ∧ b < x.1 + x.2.length) := fun h => hb ⟨e, h⟩
  cases sp with
  | host => exact .refl s
  | spm =>
    refine ⟨rfl, fun q hq => s.core_onCore_ne _ (by simpa using hq), Core.onlyStored.engine ?_, fun sp' b hb => ?_⟩
    · exact (congrArg ((s.core p).onlyStored ·) (s.core_onCore_same ..)).mpr rfl
    · cases sp'
      case spm =>
        have h := (s.core p).read_write x.1 b x.2
        rw [if_neg (outside rfl hb)] at h
        exact (congrArg (fun c : Core => SMap.get 0#8 c.spm b) (s.core_onCore_same ..)).trans h
      all_goals rfl
  | hbm =>
    refine ⟨rfl, fun q hq => rfl, .refl _, fun sp' b hb => ?_⟩
    cases sp'
    case hbm => exact (Tier.read_write ..).trans (if_neg (outside rfl hb))
    all_goals rfl
  | ddr =>
    refine ⟨rfl, fun q hq => rfl, .refl _, fun sp' b hb => ?_⟩
    cases sp'
    case ddr => exact (Tier.read_write ..).trans (if_neg (outside rfl hb))
    all_goals rfl

end Sys2Proof.Machine
end

-- ==== Engine bodies: reads and writes of units ====
section
/-! PROOFS. What the parts of an engine body change of their context: addresses, queues, reads, writes and seals (R97, R98, R205 to R219). -/

namespace Sys2Proof.Machine

/-! ## What an engine body may change of its context -/

/-- A byte of a tile that the instruction has recorded as written. -/
def ECtx.wroteTo (c : ECtx) (sp : Space) (b : Nat) : Prop := ∃ t ∈ c.wrote.map (·.at_), t.space = sp ∧ t.addr ≤ b ∧ b < t.addr + 4096

/-- A byte of one of the units `D u n`: `n` bytes at `u`. -/
def unitsHold (D : TileAt → Nat → Prop) (sp : Space) (b : Nat) : Prop := ∃ u n, D u n ∧ u.space = sp ∧ u.addr ≤ b ∧ b < u.addr + n

/-- The context `r` follows from `c` in a body that writes only to the units `D`, and records what it has written. -/
structure ECtx.Within (D : TileAt → Nat → Prop) (c r : ECtx) : Prop where
  p : r.p = c.p
  word : r.word = c.word
  slots : r.slots = c.slots
  state : State.EngineStep c.p (fun sp b => unitsHold D sp b ∧ r.wroteTo sp b) c.s r.s
  kept : ∀ t ∈ c.wrote.map (·.at_), t ∈ r.wrote.map (·.at_)
  new : ∀ t ∈ r.wrote.map (·.at_), t ∈ c.wrote.map (·.at_) ∨ ∃ u n, D u n ∧ t = ⟨u.space, u.addr / 4096 * 4096⟩

/-- The units that the operands `ds` address, by position and bytes (R97, R98). -/
def ECtx.dest (c : ECtx) (ds : List (Nat × Nat)) (u : TileAt) (n : Nat) : Prop := ∃ d ∈ ds, d.2 = n ∧ ∃ j, c.destUnit d.1 d.2 j u

namespace ECtx.Within
variable {D : TileAt → Nat → Prop} {c d r : ECtx}

/-- A change of the context that writes nothing. -/
theorem of_step (hp : r.p = c.p) (hword : r.word = c.word) (hslots : r.slots = c.slots) (hwrote : r.wrote = c.wrote)
    (hs : ∀ B, State.EngineStep c.p B c.s r.s) : c.Within D r :=
  ⟨hp, hword, hslots, hs _, fun _ h => hwrote ▸ h, fun _ h => .inl (hwrote ▸ h)⟩

theorem refl (c : ECtx) : c.Within D c := of_step rfl rfl rfl rfl fun _ => .refl _

theorem trans (h : c.Within D d) (h' : d.Within D r) : c.Within D r := by
  have hs := h'.state
  rw [h.p] at hs
  refine ⟨h'.p.trans h.p, h'.word.trans h.word, h'.slots.trans h.slots, .trans (h.state.mono ?_) hs, fun t ht => h'.kept t (h.kept t ht),
    fun t ht => (h'.new t ht).elim (h.new t) .inr⟩
  rintro sp b ⟨hu, t, ht, hb⟩
  exact ⟨hu, t, h'.kept t ht, hb⟩

theorem mono {D' : TileAt → Nat → Prop} (h : c.Within D r) (hD : ∀ u n, D u n → D' u n) : c.Within D' r := by
  refine ⟨h.p, h.word, h.slots, h.state.mono ?_, h.kept, fun t ht => (h.new t ht).imp_right ?_⟩
  · rintro sp b ⟨⟨u, n, hu, hb⟩, hw⟩
    exact ⟨⟨u, n, hD u n hu, hb⟩, hw⟩
  · rintro ⟨u, n, hu, e⟩
    exact ⟨u, n, hD u n hu, e⟩

/-- What a later context addresses, the earlier one addresses: the slots are the same, and a queue's tail only grows. -/
theorem destUnit (h : c.Within D d) {pos unit j : Nat} {u : TileAt} (hu : d.destUnit pos unit j u) : ∃ i, c.destUnit pos unit i u := by
  unfold ECtx.destUnit ECtx.operandSlot at *
  rw [h.slots] at hu
  dsimp only at hu ⊢
  by_cases hq : (c.slots.getD pos AdgSlot.zero).queue = true
  all_goals simp only [hq, if_true, Bool.false_eq_true, if_false] at hu ⊢
  · obtain ⟨y, hy, rfl⟩ := hu
    rw [h.p] at hy
    obtain ⟨x, hx, hb, hd, k, ht⟩ := h.state.core.queues _ y hy
    exact ⟨k + j, x, hx, by rw [hb, hd, ht, Nat.add_assoc]⟩
  · exact ⟨j, hu⟩

theorem dest {ds : List (Nat × Nat)} (h : c.Within D d) {u : TileAt} {n : Nat} (hu : d.dest ds u n) : c.dest ds u n := by
  obtain ⟨x, hx, hn, j, hj⟩ := hu
  obtain ⟨i, hi⟩ := h.destUnit hj
  exact ⟨x, hx, hn, i, hi⟩

/-- Two parts of a body, one after the other. -/
theorem next {ds : List (Nat × Nat)} (h : c.Within (c.dest ds) d) (h' : d.Within (d.dest ds) r) : c.Within (c.dest ds) r :=
  h.trans (h'.mono fun _ _ => h.dest)

end ECtx.Within

/-! ## Parts of a body that end only in a fault -/

/-- A part of a body that never ends without a fault. -/
structure Eng.Fails {α : Type} (m : Eng α) : Prop where
  never : ∀ c, Eng.Ends c m (fun _ _ => False)

namespace Eng.Fails
variable {α β : Type}

theorem ends {m : Eng α} (h : Eng.Fails m) {c : ECtx} {Q : α → ECtx → Prop} : Eng.Ends c m Q := (h.never c).mono fun _ _ h => h.elim

theorem fail (n : Nat) : Eng.Fails (Eng.fail n : Eng α) := ⟨fun _ => .fail n⟩

theorem before {m : Eng α} (h : Eng.Fails m) (k : α → Eng β) : Eng.Fails (m >>= k) := ⟨fun c => .bind (h.never c) fun _ _ h => h.elim⟩

theorem after {m : Eng α} {k : α → Eng β} (h : ∀ a, Eng.Fails (k a)) : Eng.Fails (m >>= k) :=
  ⟨fun _ => .bind (P := fun _ _ => True) ⟨fun _ _ _ => trivial⟩ fun a r _ => (h a).never r⟩

theorem mxuState : Eng.Fails (Eng.mxuState : Eng α) := after fun _ => after fun _ => fail _

theorem redOverflow : Eng.Fails Eng.redOverflow := after fun _ => after fun _ => fail _

theorem sealFail (k : Nat) (t : TileAt) (pos : Nat) (x : Seal) (part : Bool) (expect : Nat) : Eng.Fails (Eng.sealFail k t pos x part expect) :=
  after fun _ => after fun _ => fail _

theorem readFail (pos : Nat) (t : TileAt) (x : Seal) : Eng.Fails (Eng.readFail pos t x) := after fun _ => after fun _ => sealFail ..

end Eng.Fails

/-! ## Parts of a body that write to the units of some operands -/

/-- A part of an engine body that, when it ends, has changed only what engine instructions change, and bytes only of the units that the
operands `ds` address. -/
structure Eng.Writes (ds : List (Nat × Nat)) {α : Type} (m : Eng α) : Prop where
  at' : ∀ c, Eng.Ends c m (fun _ r => c.Within (c.dest ds) r)

namespace Eng.Writes
variable {ds : List (Nat × Nat)} {α β : Type}

theorem ended {m : Eng α} (h : Eng.Writes ds m) {c r : ECtx} {a : α} (e : m c = .ok a r) : c.Within (c.dest ds) r := (h.at' c).ended a r e

theorem pure (a : α) : Eng.Writes ds (pure a : Eng α) := ⟨fun c => .pure (.refl c)⟩

theorem of_fails {m : Eng α} (h : Eng.Fails m) : Eng.Writes ds m := ⟨fun _ => h.ends⟩

theorem fail (n : Nat) : Eng.Writes ds (Eng.fail n : Eng α) := of_fails (.fail n)

/-- After a part that has written within `ds`, a further part that writes within `ds`. -/
theorem then_ends {c d : ECtx} {m : Eng α} (h : c.Within (c.dest ds) d) (hm : Eng.Writes ds m) :
    Eng.Ends d m (fun _ r => c.Within (c.dest ds) r) := (hm.at' d).mono fun _ _ h' => h.next h'

theorem bind {m : Eng α} {k : α → Eng β} (hm : Eng.Writes ds m) (hk : ∀ a, Eng.Writes ds (k a)) : Eng.Writes ds (m >>= k) :=
  ⟨fun c => .bind (hm.at' c) fun a _ h => then_ends h (hk a)⟩

theorem get_bind {k : ECtx → Eng β} (hk : ∀ c, Eng.Writes ds (k c)) : Eng.Writes ds (get >>= k) := ⟨fun c => .get_bind ((hk c).at' c)⟩

theorem core_bind {k : Core → Eng β} (hk : ∀ c, Eng.Writes ds (k c)) : Eng.Writes ds (Eng.core >>= k) :=
  ⟨fun c => .core_bind ((hk _).at' c)⟩

theorem slot_bind {pos : Nat} {k : AdgSlot → Eng β} (hk : ∀ a, Eng.Writes ds (k a)) : Eng.Writes ds (Eng.slot pos >>= k) :=
  ⟨fun c => .slot_bind ((hk _).at' c)⟩

theorem ite {d : Prop} [Decidable d] {a b : Eng α} (ha : Eng.Writes ds a) (hb : Eng.Writes ds b) : Eng.Writes ds (if d then a else b) :=
  ⟨fun c => .ite (fun _ => ha.at' c) fun _ => hb.at' c⟩

theorem guarded {d : Prop} [Decidable d] {m : Eng Unit} {k : Unit → Eng β} (hm : Eng.Writes ds m) (hk : ∀ a, Eng.Writes ds (k a)) :
    Eng.Writes ds (if d then m >>= k else k ()) := ite (hm.bind hk) (hk ())

theorem choose {d : Prop} [Decidable d] {m n : Eng α} {k : α → Eng β} (hm : Eng.Writes ds m) (hn : Eng.Writes ds n)
    (hk : ∀ a, Eng.Writes ds (k a)) : Eng.Writes ds (if d then m >>= k else n >>= k) := ite (hm.bind hk) (hn.bind hk)

theorem forIn {l : List α} {f : α → β → Eng (ForInStep β)} (h : ∀ a ∈ l, ∀ b, Eng.Writes ds (f a b)) :
    ∀ b, Eng.Writes ds (forIn l b f) := by
  induction l with
  | nil => exact fun b => pure _
  | cons x xs ih =>
    obtain ⟨hx, hxs⟩ := List.forall_mem_cons.1 h
    intro b
    rw [List.forIn_cons]
    refine (hx b).bind fun r => ?_
    cases r
    · exact pure _
    · exact ih hxs _

/-- A change of the context that writes nothing. -/
theorem modify {f : ECtx → ECtx} (h : ∀ c : ECtx, c.Within (c.dest ds) (f c)) : Eng.Writes ds (modify f : Eng PUnit) :=
  ⟨fun c => .modify (h c)⟩

theorem onState {f : State → State} (h : ∀ s : State, s.onlyNoted (f s)) : Eng.Writes ds (Eng.onState f) :=
  modify fun c => .of_step rfl rfl rfl rfl fun _ => .of_noted (h c.s)

theorem onCore {f : Core → Core} (h : ∀ c : Core, c.onlyHeld (f c)) : Eng.Writes ds (Eng.onCore f) :=
  modify fun _ => .of_step rfl rfl rfl rfl fun _ => .onCore h

theorem freeCount {f : State → Nat → State} (h : ∀ (s : State) (n : Nat), s.onlyNoted (f s n)) : Eng.Writes ds (Eng.freeCount f) :=
  ⟨fun c => .get_bind ⟨fun _ _ e => by
    cases e
    exact .of_step rfl rfl rfl rfl fun _ => .of_noted (State.onlyNoted.trans (t := { c.s with free := c.s.free + 1 }) rfl (h _ _))⟩⟩

theorem busy (reg : Fld) : Eng.Writes ds (Eng.busy reg) := get_bind fun _ => freeCount fun s _ => ((State.onlyNoted.refl s).wr ..).trans rfl

theorem checkBounds (sp : Space) (write : Bool) (a n : Nat) : Eng.Writes ds (Eng.checkBounds sp write a n) :=
  get_bind fun _ => ite (pure _) (ite (of_fails (.after fun _ => .fail _)) (fail _))

theorem noteUse (q pos : Nat) (push : Bool) : Eng.Writes ds (Eng.noteUse q pos push) :=
  modify fun _ => .of_step rfl rfl rfl rfl fun _ => .refl _

theorem checkReads : Eng.Writes ds Eng.checkReads :=
  ⟨fun c => (Eng.checkReads_ends c).mono fun _ _ ⟨_, e⟩ => e ▸ .of_step rfl rfl rfl rfl fun _ => .refl _⟩

end Eng.Writes

/-! ## Queues (R55, R98) -/

/-- One queue of a core with its head or tail moved on. -/
theorem Core.onlyEngine.of_queue {c : Core} {q : Nat} {x y : HwQueue} (hx : c.queues[q]? = some x) (hb : y.base = x.base)
    (hd : y.depth = x.depth) (ht : ∃ k, y.tail = x.tail + k) : c.onlyEngine { c with queues := c.queues.set q y } := by
  refine ⟨rfl, fun i z hz => ?_⟩
  rw [List.getElem?_set] at hz
  split_ifs at hz with h1 h2
  · cases hz
    exact ⟨x, h1 ▸ hx, hb, hd, ht⟩
  · exact ⟨z, hz, rfl, rfl, 0, rfl⟩

/-! ## Addresses of units (R97, R98) -/

/-- A context after an inquiry into what other instructions do: counts, records and free values, and the order then known. -/
def ECtx.noted (c r : ECtx) : Prop := ∃ s o, r = { c with s := s, order := o } ∧ c.s.onlyNoted s

theorem ECtx.noted.within {D : TileAt → Nat → Prop} {c r : ECtx} (h : c.noted r) : c.Within D r := by
  obtain ⟨s, o, rfl, hs⟩ := h
  exact .of_step rfl rfl rfl rfl fun _ => .of_noted hs

theorem ECtx.noted.core {c r : ECtx} (h : c.noted r) : r.s.core r.p = c.s.core c.p := by
  obtain ⟨s, o, rfl, hs⟩ := h
  exact hs.core _

/-- A head or tail of a queue moved on, after an inquiry. -/
theorem ECtx.noted.onQueue {c r : ECtx} (h : c.noted r) {q : Nat} {x y : HwQueue} (hx : (c.s.core c.p).queues[q]? = some x)
    (hb : y.base = x.base) (hd : y.depth = x.depth) (ht : ∃ k, y.tail = x.tail + k) (D : TileAt → Nat → Prop) :
    Eng.Ends r (Eng.onCore (fun k => { k with queues := k.queues.set q y })) (fun _ r' => c.Within D r') := by
  refine .modify (h.within.trans (.of_step rfl rfl rfl rfl fun _ => ?_))
  exact State.EngineStep.onEngine (f := fun k => { k with queues := k.queues.set q y })
    (.of_queue (h.core ▸ hx) hb hd ht) rfl

theorem Eng.pendingUse_ends (q pos : Nat) (push : Bool) (c : ECtx) : Eng.Ends c (Eng.pendingUse q pos push) (fun _ r => c.noted r) :=
  .get_bind (.set_bind (.pure ⟨_, _, rfl, c.s.pendingUse_noted ..⟩))

theorem Eng.Ends.raise {c : ECtx} {Q : Unit → ECtx → Prop} {f : Option EFault} (h : Q () c) : Eng.Ends c (Eng.raise f) Q := by
  cases f
  · exact .pure h
  · exact .throw _

theorem Eng.Ends.raise_bind {β : Type} {c : ECtx} {Q : β → ECtx → Prop} {f : Option EFault} {k : Unit → Eng β} (hk : Eng.Ends c (k ()) Q) :
    Eng.Ends c (Eng.raise f >>= k) Q :=
  .bind (P := fun _ r => r = c) (.raise rfl) fun _ _ h => h ▸ hk

namespace Eng.Writes
variable {ds : List (Nat × Nat)} {α β : Type}

theorem pop (q : Nat) : Eng.Writes ds (Eng.pop q) := by
  refine ⟨fun c => .core_bind ?_⟩
  split
  · exact .fail _
  · next x hx =>
    refine .ite (fun _ => .fail _) fun _ => .bind (Eng.pendingUse_ends _ _ _ c) fun _ r h => .ite (fun _ => .fail _) fun _ => ?_
    exact .bind (h.onQueue (y := { x with head := x.head + 1 }) hx rfl rfl ⟨0, rfl⟩ _) fun _ _ h =>
      then_ends h (bind (noteUse ..) fun _ => pure _)

/-- A push: the tile after the queue's last (R55). -/
theorem push_ends (q : Nat) (c : ECtx) : Eng.Ends c (Eng.push q) (fun t r => c.Within (c.dest ds) r ∧
    ∃ x : HwQueue, (c.s.core c.p).queues[q]? = some x ∧ t = 4096 * (x.base + x.tail % x.depth)) := by
  refine .core_bind ?_
  split
  · exact .fail _
  · next x hx =>
    refine .ite (fun _ => .fail _) fun _ => .choose (P := fun _ r => c.noted r) (fun _ => Eng.pendingUse_ends ..)
      (fun _ => .pure ⟨_, _, rfl, rfl⟩) fun _ r h => .ite (fun _ => .fail _) fun _ => ?_
    exact .bind (h.onQueue (y := { x with tail := x.tail + 1 }) hx rfl rfl ⟨1, rfl⟩ _) fun _ _ h =>
      .bind (then_ends h (noteUse ..)) fun _ _ h => .pure ⟨h, x, hx, rfl⟩

/-- A unit that an operand writes to is one of its units. -/
theorem unitAddr_dest (pos unit n : Nat) (c : ECtx) : Eng.Ends c (Eng.unitAddr pos unit n true)
    (fun u r => c.Within (c.dest ds) r ∧ ∃ j, c.destUnit pos unit j u) := by
  refine .slot_bind (.ite (fun hq => .ite (fun _ => .fail _) fun _ => ?_) fun hq => .pure ⟨.refl c, n, ?_⟩)
  · rw [if_pos rfl]
    refine .bind (push_ends _ c) fun t r ⟨h, x, hx, ht⟩ => .pure ⟨h, 0, ?_⟩
    unfold ECtx.destUnit ECtx.operandSlot
    exact (if_pos hq).mpr ⟨x, hx, by rw [ht, Nat.add_zero]⟩
  · unfold ECtx.destUnit ECtx.operandSlot
    exact (if_neg hq).mpr rfl

theorem unitAddr (pos unit n : Nat) (write : Bool) : Eng.Writes ds (Eng.unitAddr pos unit n write) := by
  cases write
  · exact slot_bind fun _ => ite (ite (fail _) (bind (pop _) fun _ => pure _)) (pure _)
  · exact ⟨fun c => (unitAddr_dest pos unit n c).mono fun _ _ h => h.1⟩

/-! ## Units read -/

/-- A request serves parts that start in the unit and have together no more bytes than it. -/
theorem request_ends (pos : Nat) (write : Bool) (sp : Space) (a n : Nat) (c : ECtx) :
    Eng.Ends c (Eng.request pos write sp a n) (fun x r => c.noted r ∧
      (∀ v ∈ x.1, a ≤ v.a) ∧ (x.1.map (·.n)).sum ≤ n) :=
  .get_bind (.set_bind (.pure ⟨⟨_, _, rfl, (State.serveUnit_counts ..).noted⟩, State.serveUnit_parts ..⟩))

/-- A unit read: no more bytes than the unit has. -/
theorem readSealed_ends (pos : Nat) (u : TileAt) (unit : Nat) (c : ECtx) :
    Eng.Ends c (Eng.readSealed pos u unit) (fun x r => c.Within (c.dest ds) r ∧ x.1.length ≤ unit) := by
  refine .checkBounds_bind ?_
  dsimp only
  split
  · refine .get_bind ?_
    split
    · next bs s' e =>
      have hs : c.s.onlyNoted (s'.tallyAccess c.p .host u.addr unit) := (State.hostRead_noted e).trans (s'.tallyAccess_noted ..)
      exact .set_bind (.pure ⟨.of_step rfl rfl rfl rfl fun _ => .of_noted hs, (State.hostRead_length (congrArg Prod.fst e)).le⟩)
    · next s' e =>
      have hs (q bit code cnt engine pos : Nat) (t : TileAt) (x : Seal) (part : Bool) (ex pc : Nat) :
          c.s.onlyNoted ((s'.bump R.DMA_CNT_HOST_ERR c.p).sealFault q bit code cnt engine pos t x part ex pc) :=
        ((State.hostRead_noted e).wr ..).trans (State.sealFault_noted ..)
      refine .bind (P := fun _ r => r = c) ⟨fun _ _ e => by cases e; rfl⟩ fun n r h => ?_
      subst h
      refine .set_bind (.pure ⟨?_, (List.length_replicate ..).le⟩)
      refine .of_step rfl rfl rfl rfl fun _ => .of_noted ?_
      dsimp only
      exact hs ..
  · refine .bind (request_ends _ _ _ _ _ c) ?_
    rintro ⟨vs, f⟩ r ⟨hr, -, hsum⟩
    refine .get_bind ?_
    dsimp only
    have found (es es' : SMap MemErr) (B : Space → Nat → Prop) : State.EngineStep r.p B r.s
        ((if u.space = .spm then r.s.spmErrors r.p u.addr unit es else r.s.lineErrors u.space u.addr unit es').1.tallyAccess r.p u.space u.addr
          unit) := by
      refine .trans ?_ (.of_noted (State.tallyAccess_noted ..))
      split_ifs
      · exact r.s.spmErrors_step ..
      · exact r.s.wordErrors_step ..
    refine .set_bind (.raise_bind (.ite (fun _ => (Fails.before (.readFail ..) _).ends) fun _ => .pure ⟨?_, ?_⟩))
    · exact hr.within.trans (.of_step rfl rfl rfl rfl (found _ _))
    · exact (length_zeroLines ..).trans_le ((length_servedBytes ..).trans hsum)

theorem readSealed (pos : Nat) (u : TileAt) (unit : Nat) : Eng.Writes ds (Eng.readSealed pos u unit) :=
  ⟨fun c => (readSealed_ends pos u unit c).mono fun _ _ h => h.1⟩

theorem readAt (pos : Nat) (u : TileAt) (unit : Nat) : Eng.Writes ds (Eng.readAt pos u unit) := .bind (readSealed ..) fun _ => pure _

theorem readUnit (pos unit n : Nat) : Eng.Writes ds (Eng.readUnit pos unit n) := .bind (unitAddr ..) fun _ => readAt ..

theorem readUnits (pos unit k : Nat) : Eng.Writes ds (Eng.readUnits pos unit k) :=
  .bind (forIn (fun _ _ _ => .bind (readUnit ..) fun _ => pure _) _) fun _ => pure _

theorem readElems (pos unit w cnt : Nat) : Eng.Writes ds (Eng.readElems pos unit w cnt) := .bind (readUnits ..) fun _ => pure _

theorem readScales (mode rows nb : Nat) : Eng.Writes ds (Eng.readScales mode rows nb) := by
  unfold Eng.readScales
  split
  · exact readElems ..
  · exact readElems ..
  · exact pure _

end Eng.Writes

/-! ## Units written (R205, R235) -/

theorem map_at_kept {l : List WroteTile} {f : WroteTile → WroteTile} (hf : ∀ x, (f x).at_ = x.at_) : (l.map f).map (·.at_) = l.map (·.at_) := by
  rw [List.map_map]
  exact List.map_congr_left fun x _ => hf x

/-- The tiles recorded after a write: those before it and its own. -/
theorem mem_addWrote (l : List WroteTile) (t : TileAt) (pos a : Nat) (bs : List Byte) (x : Seal) (n : Nat) (later : Bool) (t' : TileAt) :
    t' ∈ (addWrote l t pos a bs x n later).map (·.at_) ↔ t' ∈ l.map (·.at_) ∨ t' = t := by
  unfold addWrote
  dsimp only
  split
  · next w hw =>
    rw [map_at_kept]
    · refine ⟨.inl, fun h => h.elim id fun e => ?_⟩
      have hp := List.find?_some hw
      simp only [Bool.and_eq_true, beq_iff_eq] at hp
      exact e ▸ hp.1 ▸ List.mem_map_of_mem (List.mem_of_find?_eq_some hw)
    · intro x
      split_ifs <;> rfl
  · simp

/-- A line, a row or a tile (R100). -/
def isUnit (n : Nat) : Prop := n = 64 ∨ n = 512 ∨ n = 4096

theorem unitBytes_isUnit (k : Nat) : isUnit (unitBytes k) := by
  unfold unitBytes isUnit
  split <;> simp

/-- A unit lies in one tile. -/
theorem ECtx.destUnit_aligned {c : ECtx} {pos unit j : Nat} {u : TileAt} (h : c.destUnit pos unit j u) (hu : isUnit unit) :
    u.addr / 4096 * 4096 ≤ u.addr ∧ u.addr + unit ≤ u.addr / 4096 * 4096 + 4096 := by
  unfold ECtx.destUnit at h
  dsimp only at h
  split_ifs at h
  · obtain ⟨x, -, rfl⟩ := h
    dsimp only
    rcases hu with rfl | rfl | rfl <;> omega
  · subst h
    dsimp only [AdgSlot.addr]
    rcases hu with rfl | rfl | rfl <;> omega

namespace Eng.Writes
variable {ds : List (Nat × Nat)} {α β : Type}

/-- A unit written at a place: no byte outside the unit changes, and its tile is recorded. -/
theorem writeAt_ends (pos : Nat) {u : TileAt} {unit : Nat} {bs : List Byte} (hlen : bs.length ≤ unit)
    (halign : u.addr / 4096 * 4096 ≤ u.addr ∧ u.addr + unit ≤ u.addr / 4096 * 4096 + 4096) (c : ECtx) :
    Eng.Ends c (Eng.writeAt pos u bs) (fun _ r => c.Within (fun v n => v = u ∧ n = unit) r) := by
  refine .checkBounds_bind ?_
  dsimp only
  split
  · refine .get_bind (.ite (fun _ => ?_) fun _ => ?_)
    · exact .set (.of_step rfl rfl rfl rfl fun _ => .of_noted rfl)
    · have hs : c.s.onlyNoted ((c.s.hostWrite 0 u.addr bs).tallyAccess c.p .host u.addr bs.length) :=
        (c.s.hostWrite_noted ..).trans (State.tallyAccess_noted ..)
      exact .set (.of_step rfl rfl rfl rfl fun _ => .of_noted hs)
  · refine .bind (request_ends _ _ _ _ _ c) ?_
    rintro ⟨vs, f⟩ r ⟨hr, hparts, -⟩
    refine .get_bind (.set_bind (.raise (hr.within.trans ⟨rfl, rfl, rfl, ?_, ?_, ?_⟩)))
    · refine .trans (.of_noted (State.tallyAccess_noted ..)) (.foldl _ (fun x hx s => (s.store_step r.p u.space x).mono ?_) _)
      rintro sp b ⟨rfl, hb⟩
      have hin := mem_servedPieces hparts hx b hb.1 hb.2
      refine ⟨⟨u, unit, ⟨rfl, rfl⟩, rfl, hin.1, by omega⟩, ⟨u.space, u.addr / 4096 * 4096⟩, (mem_addWrote ..).2 (.inr rfl), rfl, ?_⟩
      dsimp only
      omega
    · exact fun t ht => (mem_addWrote ..).2 (.inl ht)
    · exact fun t ht => ((mem_addWrote ..).1 ht).imp_right fun e => ⟨u, unit, ⟨rfl, rfl⟩, e⟩

/-- A unit of an operand written, whatever follows. -/
theorem unit_bind {pos unit n : Nat} {bs : List Byte} {k : TileAt → Unit → Eng β} (hd : (pos, unit) ∈ ds) (hu : isUnit unit)
    (hlen : bs.length ≤ unit) (hk : ∀ u x, Eng.Writes ds (k u x)) :
    Eng.Writes ds (Eng.unitAddr pos unit n true >>= fun u => Eng.writeAt pos u bs >>= k u) := by
  refine ⟨fun c => .bind (unitAddr_dest (ds := ds) pos unit n c) fun u r ⟨h, j, hj⟩ => ?_⟩
  refine .bind (writeAt_ends pos hlen (ECtx.destUnit_aligned hj hu) r) fun x r' h' => then_ends (h.trans (h'.mono ?_)) (hk u x)
  rintro _ _ ⟨rfl, rfl⟩
  exact ⟨_, hd, rfl, j, hj⟩

theorem writeUnit {pos unit : Nat} (n : Nat) {bs : List Byte} (hd : (pos, unit) ∈ ds) (hu : isUnit unit) (hlen : bs.length ≤ unit) :
    Eng.Writes ds (Eng.writeUnit pos unit n bs) := by
  have h := unit_bind (n := n) (k := fun _ x => Pure.pure x) hd hu hlen fun _ _ => pure _
  simp only [bind_pure] at h
  exact h

theorem writeUnits {pos unit : Nat} (bs : List Byte) (hd : (pos, unit) ∈ ds) (hu : isUnit unit) : Eng.Writes ds (Eng.writeUnits pos unit bs) :=
  .bind (forIn (fun _ _ _ => .bind (writeUnit _ hd hu (by simp)) fun _ => pure _) _) fun _ => pure _

theorem writeElems {pos unit : Nat} (w : Nat) (cs : List Nat) (hd : (pos, unit) ∈ ds) (hu : isUnit unit) :
    Eng.Writes ds (Eng.writeElems pos unit w cs) := writeUnits _ hd hu

/-! ## Seals written (R205 to R208, R219) -/

theorem putSeal (t : TileAt) (x : Seal) : Eng.Writes ds (Eng.putSeal t x) :=
  ⟨fun c => .get_bind (.guarded (fun r => c.Within (c.dest ds) r)
    (fun _ => .set (.of_step rfl rfl rfl rfl fun _ => c.s.setSealOf_step ..)) (.refl c) fun _ h => then_ends h (ite (onState fun s => s.addDigest_noted ..) (pure _)))⟩

theorem markPropagate : Eng.Writes ds Eng.markPropagate :=
  ⟨fun c => .get_bind (.ite (fun _ => .set (.of_step rfl rfl rfl rfl fun _ => .of_noted rfl)) fun _ => .pure (.refl c))⟩

theorem writeSealsOf (sel : WroteTile → Bool) (fmt : Nat → Nat × Nat) : Eng.Writes ds (Eng.writeSealsOf sel fmt) :=
  get_bind fun _ => .guarded markPropagate fun _ => .bind
    (forIn (fun _ _ _ => .slot_bind fun _ => .core_bind fun _ =>
      .ite (.bind (onCore fun _ => by rfl) fun _ => .bind (putSeal ..) fun _ => pure _) (.bind (putSeal ..) fun _ => pure _)) _) fun _ => pure _

theorem writeSeals (fmt : Nat → Nat × Nat) : Eng.Writes ds (Eng.writeSeals fmt) := writeSealsOf ..

theorem putCopy (u : TileAt) (x : Seal) : Eng.Writes ds (Eng.putCopy u x) :=
  .ite ⟨fun c => .get_bind (.guarded (fun r => c.Within (c.dest ds) r) (fun _ => .set (.of_step rfl rfl rfl rfl fun _ => .of_noted rfl)) (.refl c)
    fun _ h => then_ends h (putSeal ..))⟩ (putSeal ..)

theorem putCopies (l : List (TileAt × Option Seal)) : Eng.Writes ds (Eng.putCopies l) := by
  refine .bind (forIn (fun _ _ _ => ?_) _) fun _ => pure _
  dsimp only
  split
  · exact .bind (putCopy ..) fun _ => pure _
  · exact .bind (writeSealsOf ..) fun _ => pure _

end Eng.Writes

end Sys2Proof.Machine
end

-- ==== Engine bodies: frame ====
section
/-! PROOFS. Every engine instruction changes bytes only of the units that its destination operands address. -/

namespace Sys2Proof.Machine

/-! ## The bodies of the engine instructions (R171 to R198, R243 to R246, R377) -/

theorem State.tally_noted (s : State) (u i n : Nat) : s.onlyNoted (s.tally u i n) := rfl

theorem State.bumpPair_noted (s : State) (lo hi : Fld) (n i : Nat) : s.onlyNoted (s.bumpPair lo hi n i) :=
  ((State.onlyNoted.refl s).wr ..).wr ..

theorem State.sendRoute_noted (s : State) (i : Nat) (fs : List (Flit × Owner)) : s.onlyNoted (s.sendRoute i fs) := rfl

theorem Core.setBlock_held (c : Core) (i : Nat) (b : AccBlock) : c.onlyHeld (c.setBlock i b) := rfl

namespace Eng.Writes
variable {ds : List (Nat × Nat)} {α β : Type}

theorem bodyMload : Eng.Writes ds bodyMload :=
  get_bind fun _ => .bind (readElems ..) fun _ => .bind (readScales ..) fun _ => .bind checkReads fun _ => onCore fun _ => rfl

theorem bodyMmul : Eng.Writes ds bodyMmul :=
  get_bind fun _ => .core_bind fun _ => .guarded (of_fails .mxuState) fun _ => .bind (readElems ..) fun _ => .bind (readScales ..) fun _ =>
    .bind checkReads fun _ => .bind (forIn (fun _ _ _ => .bind (onCore fun c => c.setBlock_held ..) fun _ => pure _) _) fun _ =>
    .bind (onState fun s => s.tally_noted ..) fun _ => .bind (freeCount fun s _ => s.bumpPair_noted ..) fun _ =>
    .ite (of_fails (.after fun _ => .fail _)) (pure _)

/-- The end of MDRAIN: its codes, its second operand, its seals, and the accumulators. -/
theorem mdrainWrites {wd wd2 : Nat} {codes second : List Nat} {c d : Prop} [Decidable c] [Decidable d] {fmt : Nat → Nat × Nat}
    {ts : List Nat} :
    Eng.Writes [(0, 4096), (1, 64)] (do
      Eng.writeElems 0 4096 wd codes
      if c then Eng.writeElems 1 64 wd2 second
      Eng.writeSeals fmt
      if d then Eng.onCore (fun k => ts.foldl (fun k t => k.setBlock t AccBlock.empty) k)) :=
  .bind (writeElems _ _ (by simp) (.inr (.inr rfl))) fun _ => .guarded (writeElems _ _ (by simp) (.inl rfl)) fun _ =>
    .bind (writeSeals _) fun _ => .ite (onCore (Core.onlyHeld.foldl (fun c _ => c.setBlock_held ..) ts)) (pure _)

theorem bodyMdrain : Eng.Writes [(0, 4096), (1, 64)] bodyMdrain := by
  refine get_bind fun _ => .core_bind fun _ => .guarded (of_fails .mxuState) fun _ => .ite (.bind (onCore fun _ => by rfl) fun _ => ?_) mdrainWrites
  dsimp only
  split
  · exact of_fails (.after fun _ => .after fun _ => .after fun _ => .after fun _ => (Fails.fail _).before _)
  · exact mdrainWrites

theorem bodyMburn : Eng.Writes ds bodyMburn := get_bind fun _ => onState fun s => (s.bumpPair_noted ..).trans (State.tally_noted ..)

theorem tableAddr (x : Nat) : Eng.Writes ds (Eng.tableAddr x) := by
  refine .slot_bind fun _ => .ite (fail _) ?_
  split
  · exact pure _
  · exact .ite (pure _) (fail _)
  · exact fail _

theorem readPanel (x : Nat) : Eng.Writes ds (Eng.readPanel x) := .bind (tableAddr x) fun _ => .bind (readAt ..) fun _ => pure _

theorem readEntries (p : Panel) : Eng.Writes ds (Eng.readEntries p) :=
  .slot_bind fun _ => .bind (forIn (fun _ _ _ => .bind (readAt ..) fun _ => pure _) _) fun _ => pure _

theorem bodySpmm : Eng.Writes ds bodySpmm := by
  refine get_bind fun _ => .core_bind fun _ => .guarded (of_fails .mxuState) fun _ => .bind (readElems ..) fun _ => .bind (readPanel _) fun _ =>
    .choose (readElems ..) (pure _) fun _ => .choose (pure _) (readUnits ..) fun _ => .bind (forIn (fun _ _ _ => ?_) _) fun _ =>
    .bind checkReads fun _ => .guarded (fail _) fun _ => .bind (forIn (fun _ _ _ => ?_) _) fun _ =>
    .bind (onCore (Core.onlyHeld.foldl (fun c _ => c.setBlock_held ..) _)) fun _ => .bind (busy _) fun _ =>
    .bind (freeCount fun s _ => s.bumpPair_noted ..) fun _ => .ite (of_fails (.after fun _ => .fail _)) (pure _)
  · exact .ite (.bind (readPanel _) fun _ => .ite (pure _) (.bind (readEntries _) fun _ => .ite (pure _) (pure _))) (pure _)
  · exact .core_bind fun _ => .ite (.bind (onCore fun c => c.setBlock_held ..) fun _ =>
      .bind (onState fun s => s.tally_noted ..) fun _ => pure _) (pure _)

theorem dcopy_ends (c : ECtx) : Eng.Ends c bodyDcopy (fun _ r => c.Within (c.dest [(1, unitBytes c.word.unit)]) r) := by
  refine .get_bind (.slot_bind (.bind (.forIn (fun _ data r => c.Within (c.dest [(1, unitBytes c.word.unit)]) r ∧
    ∀ x ∈ data, x.1.length ≤ unitBytes c.word.unit) ?_ ⟨.refl c, by simp⟩) fun data r ⟨h, hdata⟩ => then_ends h ?_))
  · rintro i j data r - ⟨h, hdata⟩
    refine .bind (then_ends h (unitAddr ..)) fun u r h => .bind (readSealed_ends _ _ _ r) fun x r' ⟨h', hx⟩ => .pure ⟨_, rfl, h.next h', ?_⟩
    exact fun y hy => (List.mem_append.1 hy).elim (hdata y) fun hy => List.mem_singleton.1 hy ▸ hx
  · exact .bind checkReads fun _ => .bind (forIn (fun x hx _ => unit_bind (by simp) (unitBytes_isUnit _)
      (hdata x.1 (List.fst_mem_of_mem_zipIdx hx)) fun _ _ => pure _) _) fun _ => .ite (putCopies _) (writeSeals _)

theorem dfill_ends (c : ECtx) : Eng.Ends c bodyDfill (fun _ r => c.Within (c.dest [(1, unitBytes c.word.unit)]) r) :=
  .get_bind (at' (.slot_bind fun _ => .bind (forIn (fun _ _ _ => .bind (writeUnit _ (by simp) (unitBytes_isUnit _) (by simp [fillBytes]))
    fun _ => pure _) _) fun _ => writeSeals _) c)

/-- What DGATHER writes for an index: what it has read, or zeros (R245). -/
def gathered (unit : Nat) (x : Option (List Byte × Seal)) : List Byte := (x.map (·.1)).getD (List.replicate unit 0#8)

theorem dgather_ends (c : ECtx) : Eng.Ends c bodyDgather (fun _ r => c.Within (c.dest [(1, unitBytes c.word.unit)]) r) := by
  refine .get_bind (.slot_bind (.slot_bind (.guarded (fun r => r = c) (fun _ => .fail _) rfl fun c e => ?_)))
  subst e
  refine .bind (at' (readElems ..) _) fun idx r h => .bind (.forIn (fun _ data r => c.Within (c.dest [(1, unitBytes c.word.unit)]) r ∧
    ∀ x ∈ data, (gathered (unitBytes c.word.unit) x).length ≤ unitBytes c.word.unit) ?_ ⟨h, by simp⟩)
    fun data r ⟨h, hdata⟩ => then_ends h ?_
  · rintro i j data r - ⟨h, hdata⟩
    refine .ite (fun _ => .pure ⟨_, rfl, h, ?_⟩) fun _ =>
      .bind (readSealed_ends _ _ _ r) fun x r' ⟨h', hx⟩ => .pure ⟨_, rfl, h.next h', ?_⟩
    · exact fun y hy => (List.mem_append.1 hy).elim (hdata y) fun hy => List.mem_singleton.1 hy ▸ (List.length_replicate ..).le
    · exact fun y hy => (List.mem_append.1 hy).elim (hdata y) fun hy => List.mem_singleton.1 hy ▸ hx
  · exact .bind checkReads fun _ => .bind (forIn (fun x hx _ => unit_bind (by simp) (unitBytes_isUnit _)
      (hdata x.1 (List.fst_mem_of_mem_zipIdx hx)) fun _ _ => pure _) _) fun _ => .ite (putCopies _) (writeSeals _)

theorem bodyRadd : Eng.Writes [(2, 4096)] bodyRadd :=
  get_bind fun _ => .slot_bind fun _ => .bind (readElems ..) fun _ => .bind (readElems ..) fun _ => .bind checkReads fun _ =>
    .bind (writeElems _ _ (by simp) (.inr (.inr rfl))) fun _ => .bind (writeSeals _) fun _ => .bind (busy _) fun _ =>
    .ite (of_fails .redOverflow) (pure _)

/-- The end of most bodies: one operand, the seals, and the engine's busy time. -/
theorem result {pos unit wd : Nat} {cs : List Nat} {fmt : Nat → Nat × Nat} {reg : Fld} (hd : (pos, unit) ∈ ds) (hu : isUnit unit) :
    Eng.Writes ds (do
      Eng.writeElems pos unit wd cs
      Eng.writeSeals fmt
      Eng.busy reg) :=
  .bind (writeElems _ _ hd hu) fun _ => .bind (writeSeals _) fun _ => busy _

theorem bodyRanchor : Eng.Writes [(2, 64)] bodyRanchor :=
  get_bind fun _ => .ite
    (.slot_bind fun _ => .bind (readElems ..) fun _ => .bind (readElems ..) fun _ => .bind checkReads fun _ => result (by simp) (.inl rfl))
    (.slot_bind fun _ => .bind (readElems ..) fun _ => .bind (readElems ..) fun _ => .bind checkReads fun _ => result (by simp) (.inl rfl))

theorem bodyRcvt : Eng.Writes [(2, 4096)] bodyRcvt :=
  get_bind fun _ => .slot_bind fun _ => .ite
    (.bind (readElems ..) fun _ => .bind (readElems ..) fun _ => .bind checkReads fun _ =>
      .bind (writeElems _ _ (by simp) (.inr (.inr rfl))) fun _ => .bind (writeSeals _) fun _ => .bind (busy _) fun _ =>
      .ite (of_fails .redOverflow) (pure _))
    (.bind (readElems ..) fun _ => .bind (readElems ..) fun _ => .bind checkReads fun _ => result (by simp) (.inr (.inr rfl)))

theorem bodyLput : Eng.Writes ds bodyLput := by
  refine .slot_bind fun _ => .guarded (fail _) fun _ => .bind (forIn (fun _ _ _ => .bind (unitAddr ..) fun _ =>
    .bind (readSealed ..) fun _ => pure _) _) fun _ => .bind checkReads fun _ => .guarded (modify fun c => ?_) fun _ => get_bind fun _ =>
    .core_bind fun _ => .bind (forIn (fun _ _ _ => .guarded (onState fun s => s.addDigest_noted ..) fun _ => .guarded (modify fun c => ?_)
      fun _ => .bind (onState fun s => s.sendRoute_noted ..) fun _ => pure _) _) fun _ => pure _
  · have hs : c.s.onlyNoted (c.s.bump R.SEA_CNT_PROPAGATE c.p) := (State.onlyNoted.refl _).wr ..
    exact .of_step rfl rfl rfl rfl fun _ => .of_noted hs
  · exact .of_step rfl rfl rfl rfl fun _ => .refl _

theorem bodyLfetch : Eng.Writes ds bodyLfetch :=
  .slot_bind fun _ => .guarded (fail _) fun _ => .guarded (fail _) fun _ => get_bind fun _ => .core_bind fun _ =>
    onState fun s => s.sendRoute_noted ..

theorem bodyLsig : Eng.Writes ds bodyLsig := get_bind fun _ => .core_bind fun _ => onState fun s => s.sendRoute_noted ..

theorem bodyVop : Eng.Writes [(2, 512)] bodyVop :=
  get_bind fun _ => .slot_bind fun _ => .bind (readElems ..) fun _ => .choose (readElems ..) (pure _) fun _ =>
    .choose (readElems ..) (pure _) fun _ => .bind checkReads fun _ => result (by simp) (.inr (.inl rfl))

theorem bodyVred : Eng.Writes [(2, 512)] bodyVred :=
  get_bind fun _ => .slot_bind fun _ => .bind (readElems ..) fun _ => .bind checkReads fun _ => result (by simp) (.inr (.inl rfl))

theorem bodyVcvt : Eng.Writes [(2, 512), (3, 512)] bodyVcvt :=
  get_bind fun _ => .slot_bind fun _ => .bind (readElems ..) fun _ => .choose (readElems ..) (pure _) fun _ =>
    .bind checkReads fun _ => .ite
    (.bind (writeElems _ _ (by simp) (.inr (.inl rfl))) fun _ => result (by simp) (.inr (.inl rfl)))
    (result (by simp) (.inr (.inl rfl)))

theorem bodyXfn (op : XOp) : Eng.Writes [(2, 512)] (bodyXfn op) :=
  get_bind fun _ => .slot_bind fun _ => .bind (readElems ..) fun _ => .bind checkReads fun _ => result (by simp) (.inr (.inl rfl))

theorem bodySample : Eng.Writes [(2, 64)] bodySample :=
  get_bind fun _ => .bind (readElems ..) fun _ => .bind (readUnits ..) fun _ => .bind checkReads fun _ =>
    .bind (writeElems _ _ (by simp) (.inl rfl)) fun _ => .bind (writeSeals _) fun _ => .bind (onState fun _ => rfl) fun _ => busy _

theorem bodySlogp : Eng.Writes [(2, 64)] bodySlogp :=
  get_bind fun _ => .bind (readElems ..) fun _ => .bind (readElems ..) fun _ => .bind checkReads fun _ => result (by simp) (.inl rfl)

end Eng.Writes

theorem Slot.dests_result {w : Slot} (h : w.op ∈ [some .vop, some .vred, some .fexp, some .flog, some .frsq, some .fact]) :
    w.dests = [(2, 512)] := by
  unfold Slot.dests
  simp only [List.mem_cons, List.not_mem_nil, or_false] at h
  rcases h with h | h | h | h | h | h <;> rw [h]

theorem Slot.dests_dma {w : Slot} (h : w.op ∈ [some .dcopy, some .dfill, some .dgather]) : w.dests = [(1, unitBytes w.unit)] := by
  unfold Slot.dests
  simp only [List.mem_cons, List.not_mem_nil, or_false] at h
  rcases h with h | h | h <;> rw [h]

theorem Slot.dests_lines {w : Slot} (h : w.op ∈ [some .ranchor, some .sample, some .slogp]) : w.dests = [(2, 64)] := by
  unfold Slot.dests
  simp only [List.mem_cons, List.not_mem_nil, or_false] at h
  rcases h with h | h | h <;> rw [h]

/-- A body of the instruction `w` that starts in `c` and writes only to the units of its destination operands. -/
def ECtx.writesDests (c : ECtx) (w : Slot) (m : Eng Unit) : Prop :=
  ∃ ds, (c.word = w → ds = w.dests) ∧ Eng.Ends c m (fun _ r => c.Within (c.dest ds) r)

theorem ECtx.writesDests.of_dests {w : Slot} (c : ECtx) {ds : List (Nat × Nat)} {m : Eng Unit} (hd : w.dests = ds) (hm : Eng.Writes ds m) :
    c.writesDests w m := ⟨ds, fun _ => hd.symm, hm.at' c⟩

theorem ECtx.writesDests.of_dma {w : Slot} {c : ECtx} {m : Eng Unit} (hd : w.dests = [(1, unitBytes w.unit)])
    (hm : Eng.Ends c m (fun _ r => c.Within (c.dest [(1, unitBytes c.word.unit)]) r)) : c.writesDests w m :=
  ⟨_, fun e => by rw [hd, e], hm⟩

/-- The body of every engine instruction writes only to the units that its destination operands address, and changes else only what engine
instructions change. -/
theorem bodyOf_writesDests (w : Slot) (c : ECtx) : c.writesDests w (bodyOf w) := by
  unfold bodyOf
  split
  case h_1 => exact .of_dests c rfl .bodyMload
  case h_2 => exact .of_dests c rfl .bodyMmul
  case h_3 h => exact .of_dests c (by simp [Slot.dests, h]) .bodyMdrain
  case h_4 => exact .of_dests c rfl .bodyMburn
  case h_5 h => exact .of_dests c (Slot.dests_result (by simp [h])) .bodyVop
  case h_6 h => exact .of_dests c (Slot.dests_result (by simp [h])) .bodyVred
  case h_7 h => exact .of_dests c (by simp [Slot.dests, h]) .bodyVcvt
  case h_8 h => exact .of_dests c (Slot.dests_result (by simp [h])) (.get_bind fun _ => .bodyXfn _)
  case h_9 h => exact .of_dests c (Slot.dests_result (by simp [h])) (.get_bind fun _ => .bodyXfn _)
  case h_10 h => exact .of_dests c (Slot.dests_result (by simp [h])) (.bodyXfn _)
  case h_11 h => exact .of_dests c (Slot.dests_result (by simp [h])) (.get_bind fun _ => .bodyXfn _)
  case h_12 h => exact .of_dma (Slot.dests_dma (by simp [h])) (Eng.Writes.dcopy_ends c)
  case h_13 h => exact .of_dma (Slot.dests_dma (by simp [h])) (Eng.Writes.dfill_ends c)
  case h_14 h => exact .of_dma (Slot.dests_dma (by simp [h])) (Eng.Writes.dgather_ends c)
  case h_15 => exact .of_dests c rfl .bodyLput
  case h_16 => exact .of_dests c rfl .bodyLfetch
  case h_17 => exact .of_dests c rfl .bodyLsig
  case h_18 h => exact .of_dests c (by simp [Slot.dests, h]) .bodyRadd
  case h_19 h => exact .of_dests c (Slot.dests_lines (by simp [h])) .bodyRanchor
  case h_20 h => exact .of_dests c (by simp [Slot.dests, h]) .bodyRcvt
  case h_21 => exact .of_dests c rfl .bodySpmm
  case h_22 h => exact .of_dests c (Slot.dests_lines (by simp [h])) .bodySample
  case h_23 h => exact .of_dests c (Slot.dests_lines (by simp [h])) .bodySlogp
  case h_24 => exact .of_dests c rfl (.pure _)

/-- Settles O19: what a body has done follows from what each part of it writes. -/
theorem engineBodiesFrame : Obligations.EngineBodiesFrame := by
  intro w c r e
  obtain ⟨ds, hds, hends⟩ := bodyOf_writesDests w c
  obtain ⟨-, -, -, hstate, -, hnew⟩ := hends.ended () r e
  refine ⟨hstate.others, hstate.core.fields, fun sp b hb => hstate.bytes sp b ?_, fun hw sp b hb => hstate.bytes sp b ?_,
    fun hw hnone a ha => ?_, hstate.only⟩
  · rintro ⟨-, t, ht, hsp, hlo, hhi⟩
    exact hb t ht hsp ⟨hlo, hhi⟩
  · rintro ⟨⟨u, n, ⟨d, hd, rfl, j, hj⟩, hsp, hlo, hhi⟩, -⟩
    exact hb d (hds hw ▸ hd) j u hj hsp ⟨hlo, hhi⟩
  · rcases hnew a ha with h | ⟨u, n, ⟨d, hd, -, j, hj⟩, rfl⟩
    · simp [hnone] at h
    · exact ⟨d, hds hw ▸ hd, j, u, hj, rfl⟩

end Sys2Proof.Machine
end

-- ==== Regions and dies asleep ====
section
/-! PROOFS. Core regions that stop, power-gate and wake (R129, R130, R437, R438), and dies that sleep and wake (R439). -/

namespace Sys2Proof.Machine

/-! ## The clock run on to a limit -/

@[simp] theorem State.waitUntil_regs (s : State) (n : Nat) : (s.waitUntil n).regs = s.regs := by rw [State.waitUntil_frame]
@[simp] theorem State.waitUntil_cores (s : State) (n : Nat) : (s.waitUntil n).cores = s.cores := by rw [State.waitUntil_frame]
@[simp] theorem State.waitUntil_hbm (s : State) (n : Nat) : (s.waitUntil n).hbm = s.hbm := by rw [State.waitUntil_frame]

theorem State.core_waitUntil (s : State) (n p : Nat) : (s.waitUntil n).core p = s.core p := by
  unfold State.core
  rw [State.waitUntil_cores]

/-! ## Regions (R437, R438) -/

theorem exec_regionClockStop {s : State} {p : Fin 176} (hl : s.linkLive = true) (hr : (s.core p).region = .running)
    (hi : (s.core p).regionIdle = true) :
    exec (.regionClockStop p) s = .next (s.setCore p { s.core p with region := .stopped, regionAt := s.tick }) := by
  simp only [exec, execRegionClockStop, hl, hr, hi]
  rfl

theorem exec_regionPowerGate {s : State} {p : Fin 176} (hl : s.linkLive = true) (hg : s.rd R.PWR_CFG_GATE_EN = 1)
    (hr : (s.core p).region = .stopped) :
    exec (.regionPowerGate p) s = .next ((s.waitUntil ((s.core p).regionAt + s.gateDelay)).gateRegion p) := by
  simp only [exec, execRegionPowerGate, State.on, hl, hg, hr]
  rfl

/-- What a region that is gated anew keeps, and what SPM_STATUS shows of it. -/
theorem State.gateRegion_shows {s : State} {p : Nat} (h : (s.core p).gatedNow = false) :
    (((s.gateRegion p).core p).retained = true ↔ s.rd R.SPM_CTRL_RETAIN p = 1 ∨ (s.core p).ckptEnd = false) ∧
    (s.gateRegion p).rd R.SPM_STATUS_POWERED p = 0 ∧
    ((s.gateRegion p).rd R.SPM_STATUS_LOST p = 1 ↔ ((s.gateRegion p).core p).retained = false) := by
  have hkeep : ((s.gateRegion p).core p).retained = (s.on R.SPM_CTRL_RETAIN p || !(s.core p).ckptEnd) := by
    simp [State.gateRegion, h, State.core_wr]
  refine ⟨by simp [hkeep, State.on], ?_, by simp [(s.gateRegion_lost p).1 h, hkeep]⟩
  have hne : R.SPM_STATUS_POWERED.key p 0 ≠ R.SPM_STATUS_LOST.key p 0 := by simp [Fld.key, R.SPM_STATUS_POWERED, R.SPM_STATUS_LOST]
  simp [State.gateRegion, h, State.rd_wr_ne _ _ _ _ _ _ _ _ hne]

/-- A core whose region has power again: without retention its scratchpad and its seals are lost (R130). -/
def Core.repowered (c : Core) (tick : Nat) : Core :=
  let c1 := { c with region := .running, regionAt := tick }
  if !c.retained then { c1 with spm := [], seals := [], spmErr := [] } else c1

/-- The region of part `p` woken, as SPM_STATUS shows it. -/
def State.regionWoken (s : State) (p : Nat) : State :=
  ((s.onCore p (fun c => c.repowered s.tick)).wr R.SPM_STATUS_POWERED 1 p).wr R.SPM_STATUS_LOST (ofBool !(s.core p).retained) p

theorem exec_regionWakeDone {s : State} {p : Fin 176} (hl : s.linkLive = true) (hr : (s.core p).region = .waking)
    (ha : s.awake (p / 11) = true) : exec (.regionWakeDone p) s = .next (s.regionWoken p) := by
  simp only [exec, execRegionWakeDone, hl, hr, ha]
  rfl

theorem Core.repowered_region (c : Core) (tick : Nat) : (c.repowered tick).region = .running := by
  unfold Core.repowered
  dsimp only
  split_ifs <;> rfl

theorem Core.repowered_kept {c : Core} (h : c.retained = true) (tick : Nat) :
    (c.repowered tick).spm = c.spm ∧ (c.repowered tick).seals = c.seals := by
  simp [Core.repowered, h]

theorem Core.repowered_lost {c : Core} (h : c.retained = false) (tick a : Nat) :
    SMap.get 0#8 (c.repowered tick).spm a = 0#8 ∧ (c.repowered tick).sealAt a = poisonSeal := by
  simp [Core.repowered, h, Core.sealAt]

theorem State.regionWoken_core (s : State) (p q : Nat) :
    (s.regionWoken p).core q = if q = p then (s.core p).repowered s.tick else s.core q := by
  unfold State.regionWoken
  rw [State.core_wr, State.core_wr, State.core_onCore]

theorem State.regionWoken_shows (s : State) (p : Nat) :
    (s.regionWoken p).rd R.SPM_STATUS_POWERED p = 1 ∧ (s.regionWoken p).rd R.SPM_STATUS_LOST p = ofBool !(s.core p).retained ∧
    FieldsKept s (s.regionWoken p) [R.SPM_STATUS_POWERED.key p 0, R.SPM_STATUS_LOST.key p 0] := by
  have hne : R.SPM_STATUS_POWERED.key p 0 ≠ R.SPM_STATUS_LOST.key p 0 := by simp [Fld.key, R.SPM_STATUS_POWERED, R.SPM_STATUS_LOST]
  refine ⟨?_, ?_, ?_⟩
  · rw [State.regionWoken, State.rd_wr_ne _ _ _ _ _ _ _ _ hne, State.rd_wr_same]
    rfl
  · rw [State.regionWoken, State.rd_wr_same]
    cases (s.core p).retained <;> rfl
  · exact ((FieldsKept.of_regs (.refl s _) rfl).wr _ (by simp)).wr _ (by simp)

/-! ## Dies that sleep (R439) -/

/-- The tick at which the last region of a die was gated. -/
def State.lastGated (s : State) (d : Nat) : Nat :=
  ((List.range 11).map (fun c => s.core (11 * d + c))).foldl (fun m c => max m c.regionAt) 0

theorem State.regionAt_le_lastGated (s : State) (d : Nat) {c : Nat} (hc : c < 11) : (s.core (11 * d + c)).regionAt ≤ s.lastGated d := by
  unfold State.lastGated
  rw [← List.foldl_map (f := Core.regionAt) (g := max)]
  exact (le_foldl_max _ 0).2 _ (List.mem_map_of_mem (List.mem_map_of_mem (List.mem_range.2 hc)))

theorem State.die_wr (s : State) (f : Fld) (v i k d : Nat) : (s.wr f v i k).die d = s.die d := rfl

/-- A C-die gated, its stack in self-refresh. -/
def State.dieAsleep (s : State) (d : Nat) : State :=
  (((s.waitUntil (s.lastGated d + s.gateDelay)).onDie d (fun x => { x with power := .gated })).wr R.PWR_DIE_GATED 1 0 d).wr
    R.HBM_STATUS_SELF_REFRESH 1 d

theorem exec_diePowerGate {s : State} {die : Fin 24} (hl : s.linkLive = true) (hg : s.rd R.PWR_CFG_GATE_EN = 1)
    (hp : (s.die die).power = .awake) (hh : bitOf (s.rd R.PWR_HOLD_AWAKE) die = false) :
    ((die : Nat) < 16 → (∀ c : Nat, c < 11 → (s.core (11 * (die : Nat) + c)).region = .gated) → s.dieNeeded die = false →
      (s.die die).tested = true → exec (.diePowerGate die) s = .next (s.dieAsleep die)) ∧
    (16 ≤ (die : Nat) → s.pDieNeeded ((die : Nat) - 16) = false →
      exec (.diePowerGate die) s = .next (s.onDie die (fun x => { x with power := .gated }))) := by
  have hopen : (!s.linkLive || !s.on R.PWR_CFG_GATE_EN || (s.die die).power != .awake || bitOf (s.rd R.PWR_HOLD_AWAKE) die) = false := by
    simp [State.on, hl, hg, hp, hh]
  unfold exec execDiePowerGate
  constructor
  · intro h16 hgated hneed htested
    have hsleeps : (((List.range 11).map (fun c => s.core (11 * die.val + c))).all (fun c => c.region == .gated) && !s.dieNeeded die &&
        (s.die die).tested) = true := by simpa [hneed, htested] using hgated
    simp only [hopen, h16, hsleeps]
    rfl
  · intro h16 hneed
    simp only [hopen, Nat.not_lt.2 h16, hneed]
    rfl

theorem State.dieAsleep_rests (s : State) (d : Nat) :
    ((s.dieAsleep d).die d).power = .gated ∧ (s.dieAsleep d).hbm = s.hbm ∧ (s.dieAsleep d).cores = s.cores ∧
    (s.dieAsleep d).tick = max s.tick (s.lastGated d + s.gateDelay) := by
  refine ⟨?_, ?_, ?_, ?_⟩
  · rw [State.dieAsleep, State.die_wr, State.die_wr, State.die_onDie_same]
  all_goals simp [State.dieAsleep]

/-- The fields of a C-die's page on the PWR block, and of its HBM and CLK pages, that a wake writes. -/
def dieWakeKeys (d : Nat) : List Nat :=
  [R.PWR_DIE_GATED.key 0 d, R.HBM_STATUS_SELF_REFRESH.key d 0, R.CLK_STATUS_FREQ.key d 0, R.CLK_STATUS_TARGET.key d 0]

theorem dieWakeKeys_nodup {d : Nat} (h : d < 16) : (dieWakeKeys d).Nodup := by
  have all : ∀ d : Fin 16, (dieWakeKeys d).Nodup := by decide
  exact all ⟨d, h⟩

/-- None of them is a limit of the die's frequency. -/
theorem frequency_limits_not_wakeKeys {d : Nat} (h : d < 16) : R.PWR_DIE_FLIMIT.key 0 d ∉ dieWakeKeys d ∧
    R.PWR_FREQ.key 0 0 ∉ dieWakeKeys d ∧ R.HUB_BRINGUP_STATUS_FULL.key 0 0 ∉ dieWakeKeys d := by
  have all : ∀ d : Fin 16, R.PWR_DIE_FLIMIT.key 0 d ∉ dieWakeKeys d ∧ R.PWR_FREQ.key 0 0 ∉ dieWakeKeys d ∧
    R.HUB_BRINGUP_STATUS_FULL.key 0 0 ∉ dieWakeKeys d := by decide
  exact all ⟨d, h⟩

theorem State.dieAsleep_shows (s : State) {d : Nat} (h : d < 16) :
    (s.dieAsleep d).rd R.PWR_DIE_GATED 0 d = 1 ∧ (s.dieAsleep d).rd R.HBM_STATUS_SELF_REFRESH d = 1 := by
  have hne : R.PWR_DIE_GATED.key 0 d ≠ R.HBM_STATUS_SELF_REFRESH.key d 0 := fun e => by
    have hn := dieWakeKeys_nodup h
    simp [dieWakeKeys, e] at hn
  unfold State.dieAsleep
  rw [State.rd_wr_ne _ _ _ _ _ _ _ _ hne, State.rd_wr_same, State.rd_wr_same]
  exact ⟨rfl, rfl⟩

/-! ## Dies that wake (R303, R310, R439) -/

/-- A member's table-time references moved (R310). -/
def Core.moved (c : Core) (d e : Int) : Core := { c with resumeAt := c.resumeAt.map (· + d), arrivedAt := c.arrivedAt.map (· + e) }

/-- A core without references has none to move. -/
theorem Core.moved_of_none {c : Core} (hr : c.resumeAt = none) (ha : c.arrivedAt = none) (d e : Int) : c.moved d e = c := by
  obtain ⟨⟩ := c
  subst hr ha
  rfl

/-- The references of one core moved, if it has any. -/
def State.moveRef (d e : Int) (s : State) (p : Nat) : State :=
  if (s.core p).resumeAt.isNone && (s.core p).arrivedAt.isNone then s else s.onCore p (fun c => c.moved d e)

theorem State.moveRefs_eq (s : State) (die : Nat) (d e : Int) : s.moveRefs die d e = (dieCores die).foldl (State.moveRef d e) s :=
  (List.foldl_map (f := fun c => 11 * die + c) (g := State.moveRef d e)).symm

theorem State.core_moveRef (s : State) (d e : Int) (p q : Nat) :
    (s.moveRef d e p).core q = if q = p then (s.core q).moved d e else s.core q := by
  unfold State.moveRef
  split_ifs with hnone hq hq
  · simp only [Bool.and_eq_true, Option.isNone_iff_eq_none] at hnone
    obtain ⟨hresume, harrived⟩ := hnone
    subst hq
    exact (Core.moved_of_none hresume harrived d e).symm
  · rfl
  · subst hq
    rw [State.core_onCore_same]
  · rw [State.core_onCore_ne _ _ hq]

theorem State.moveRef_frame (s : State) (d e : Int) (p : Nat) : s.moveRef d e p = { s with cores := (s.moveRef d e p).cores } := by
  unfold State.moveRef
  split_ifs <;> rfl

theorem State.core_foldl_moveRef (d e : Int) (q : Nat) (l : List Nat) : l.Nodup → ∀ s : State,
    (l.foldl (State.moveRef d e) s).core q = if q ∈ l then (s.core q).moved d e else s.core q := by
  induction l with
  | nil => simp
  | cons p l ih =>
    intro hn s
    obtain ⟨hp, hn⟩ := List.nodup_cons.1 hn
    rw [List.foldl_cons, ih hn, State.core_moveRef]
    by_cases hq : q = p
    · subst hq
      simp [hp]
    · simp [hq]

theorem mem_dieCores (d q : Nat) : q ∈ dieCores d ↔ q / 11 = d := by
  simp only [dieCores, List.mem_map, List.mem_range]
  constructor
  · rintro ⟨c, hc, rfl⟩
    omega
  · rintro rfl
    exact ⟨q % 11, Nat.mod_lt _ (by omega), by omega⟩

theorem dieCores_nodup (d : Nat) : (dieCores d).Nodup := List.nodup_range.map (fun a b (h : 11 * d + a = 11 * d + b) => by omega)

/-- The members of a die, and no others, have their references moved. -/
theorem State.core_moveRefs (s : State) (die : Nat) (d e : Int) (q : Nat) :
    (s.moveRefs die d e).core q = if q / 11 = die then (s.core q).moved d e else s.core q := by
  rw [State.moveRefs_eq, State.core_foldl_moveRef d e q _ (dieCores_nodup die)]
  simp only [mem_dieCores]

theorem State.moveRefs_frame (s : State) (die : Nat) (d e : Int) : s.moveRefs die d e = { s with cores := (s.moveRefs die d e).cores } := by
  rw [State.moveRefs_eq]
  induction dieCores die generalizing s with
  | nil => rfl
  | cons p l ih =>
    rw [List.foldl_cons, ih, State.moveRef_frame]

/-- The error of the copy of a die that wakes, a free value (log entry 30). -/
def State.wakeError (s : State) : Int := (Config.freeNat s.free : Int) - (Config.freeNat (s.free + 1) : Int)

/-- The model's counter of free values at `n`. -/
def State.freeAt (s : State) (n : Nat) : State := { s with free := n }

theorem State.die_freeAt (s : State) (n d : Nat) : (s.freeAt n).die d = s.die d := rfl
theorem State.core_freeAt (s : State) (n p : Nat) : (s.freeAt n).core p = s.core p := rfl
theorem State.hbm_freeAt (s : State) (n : Nat) : (s.freeAt n).hbm = s.hbm := rfl

/-- A die's record when it has woken: it counts in its own scale until the next mark. -/
def Die.localAt (x : Die) (error : Int) : Die := { x with power := .awake, isLocal := true, owed := 0, offset := error }

/-- A die awake, its copy local, and its members with the steps that the copy owed. -/
def State.dieLocal (s : State) (die : Nat) : State :=
  ((s.moveRefs die (s.die die).owed ((s.die die).owed + s.wakeError - (s.die die).offset)).onDie die
    (fun x => x.localAt s.wakeError)).freeAt (s.free + 2)

/-- What the pages of a C-die show when it has woken (R437, R439). -/
def State.dieShown (s : State) (die : Nat) : State :=
  (((s.wr R.PWR_DIE_GATED 0 0 die).wr R.HBM_STATUS_SELF_REFRESH 0 die).wr R.CLK_STATUS_FREQ (s.dieFreq die) die).wr R.CLK_STATUS_TARGET
    (s.dieFreq die) die

/-- A die awake, and shown where it has pages. -/
def State.dieWoken (s : State) (die : Nat) : State := if die < 16 then (s.dieLocal die).dieShown die else s.dieLocal die

theorem exec_dieWakeDone {s : State} {die : Fin 24} (hl : s.linkLive = true) (hp : (s.die die).power = .waking) :
    exec (.dieWakeDone die) s = .next (s.dieWoken die) := by
  unfold exec execDieWakeDone
  dsimp only
  rw [if_pos (by simp [hl, hp])]
  rfl

theorem State.die_moveRefs (s : State) (die d' : Nat) (d e : Int) : (s.moveRefs die d e).die d' = s.die d' := by
  have h : (s.moveRefs die d e).dies = s.dies := by rw [State.moveRefs_frame]
  unfold State.die
  rw [h]

theorem State.core_onDie (s : State) (d p : Nat) (f : Die → Die) : (s.onDie d f).core p = s.core p := rfl

theorem State.dieLocal_die (s : State) (die : Nat) : (s.dieLocal die).die die = (s.die die).localAt s.wakeError := by
  rw [State.dieLocal, State.die_freeAt, State.die_onDie_same, State.die_moveRefs]

theorem State.dieLocal_core (s : State) (die q : Nat) :
    (s.dieLocal die).core q = if q / 11 = die then
      (s.core q).moved (s.die die).owed ((s.die die).owed + s.wakeError - (s.die die).offset) else s.core q := by
  rw [State.dieLocal, State.core_freeAt, State.core_onDie, State.core_moveRefs]

theorem State.dieLocal_hbm (s : State) (die : Nat) : (s.dieLocal die).hbm = s.hbm := by
  rw [State.dieLocal, State.hbm_freeAt, State.onDie_hbm, State.moveRefs_frame]

/-- A die's frequency is one of the register field that shows it. -/
theorem State.dieFreq_lt (s : State) (d : Nat) : s.dieFreq d < 2 ^ 5 := by
  have hmax : s.fmax ≤ 0x1C := by
    unfold State.fmax clampTo
    omega
  unfold State.dieFreq
  dsimp only
  split_ifs <;> omega

/-- The frequency at which a die is to run stays while its record and its limits stay. -/
theorem State.dieFreq_of_kept {s t : State} {ks : List Nat} {d : Nat} (hd : t.die d = s.die d) (hk : FieldsKept s t ks)
    (hn : R.PWR_DIE_FLIMIT.key 0 d ∉ ks ∧ R.PWR_FREQ.key 0 0 ∉ ks ∧ R.HUB_BRINGUP_STATUS_FULL.key 0 0 ∉ ks) :
    t.dieFreq d = s.dieFreq d := by
  obtain ⟨hlimit, hfreq, hfull⟩ := hn
  unfold State.dieFreq State.fmax State.on
  rw [hd, hk _ _ _ hlimit, hk _ _ _ hfreq, hk _ _ _ hfull]

theorem State.dieShown_kept (s : State) (d : Nat) : FieldsKept s (s.dieShown d) (dieWakeKeys d) :=
  ((((FieldsKept.refl s _).wr _ (by simp [dieWakeKeys])).wr _ (by simp [dieWakeKeys])).wr _ (by simp [dieWakeKeys])).wr _
    (by simp [dieWakeKeys])

theorem State.dieShown_die (s : State) (d e : Nat) : (s.dieShown d).die e = s.die e := by
  rw [State.dieShown, State.die_wr, State.die_wr, State.die_wr, State.die_wr]

theorem State.dieShown_shows (s : State) {d : Nat} (h : d < 16) :
    (s.dieShown d).rd R.PWR_DIE_GATED 0 d = 0 ∧ (s.dieShown d).rd R.HBM_STATUS_SELF_REFRESH d = 0 ∧
    (s.dieShown d).rd R.CLK_STATUS_TARGET d = s.dieFreq d := by
  have hn := dieWakeKeys_nodup h
  simp only [dieWakeKeys, List.nodup_cons, List.mem_cons, List.not_mem_nil, or_false, not_or] at hn
  obtain ⟨⟨g1, g2, g3⟩, ⟨r1, r2⟩, -⟩ := hn
  unfold State.dieShown
  refine ⟨?_, ?_, ?_⟩
  · rw [State.rd_wr_ne _ _ _ _ _ _ _ _ g3, State.rd_wr_ne _ _ _ _ _ _ _ _ g2, State.rd_wr_ne _ _ _ _ _ _ _ _ g1, State.rd_wr_same]
    rfl
  · rw [State.rd_wr_ne _ _ _ _ _ _ _ _ r2, State.rd_wr_ne _ _ _ _ _ _ _ _ r1, State.rd_wr_same]
    rfl
  · rw [State.rd_wr_same]
    exact Nat.mod_eq_of_lt (s.dieFreq_lt d)

theorem State.dieShown_memory (s : State) (d : Nat) : (s.dieShown d).hbm = s.hbm ∧ ∀ p, (s.dieShown d).core p = s.core p :=
  ⟨by simp [State.dieShown], fun _ => rfl⟩

theorem State.dieShown_clocked (s : State) {d : Nat} (h : d < 16) : (s.dieShown d).clocked d := by
  intro _
  rw [(s.dieShown_shows h).2.2, State.dieFreq_of_kept (s := s) (s.dieShown_die d d) (s.dieShown_kept d) (frequency_limits_not_wakeKeys h)]

/-- The die has woken, its members with the steps that its copy owed, and the stacks as they were. -/
theorem State.dieWoken_wakes (s : State) (die : Nat) :
    (s.dieWoken die).die die = (s.die die).localAt s.wakeError ∧ (s.dieWoken die).hbm = s.hbm ∧
    ∀ p, (s.dieWoken die).core p = if p / 11 = die then
      (s.core p).moved (s.die die).owed ((s.die die).owed + s.wakeError - (s.die die).offset) else s.core p := by
  unfold State.dieWoken
  split_ifs with h
  · obtain ⟨hhbm, hcore⟩ := (s.dieLocal die).dieShown_memory die
    rw [State.dieShown_die, hhbm]
    exact ⟨s.dieLocal_die die, s.dieLocal_hbm die, fun p => (hcore p).trans (s.dieLocal_core die p)⟩
  · exact ⟨s.dieLocal_die die, s.dieLocal_hbm die, s.dieLocal_core die⟩

/-! ## Dies held awake (R442) -/

/-- A die record when the die is to wake: one that failed its self-test does not. -/
def Die.roused (x : Die) (d : Nat) : Die := if x.power = .gated ∧ !(x.tested && !x.passed && decide (d < 16)) then { x with power := .waking } else x

theorem Die.roused_roused (x : Die) (d : Nat) : (x.roused d).roused d = x.roused d := by
  unfold Die.roused
  split_ifs <;> simp_all

theorem Die.roused_power {x : Die} {d : Nat} (hg : x.power = .gated) (h : x.tested = false ∨ x.passed = true ∨ 16 ≤ d) :
    (x.roused d).power = .waking := by
  have hpass : (!(x.tested && !x.passed && decide (d < 16))) = true := by
    rcases h with h | h | h
    · simp [h]
    · simp [h]
    · simp [Nat.not_lt.2 h]
  rw [Die.roused, if_pos ⟨hg, hpass⟩]

theorem State.wakeDie_eq (s : State) (d : Nat) : s.wakeDie d = s.onDie d (fun x => x.roused d) := rfl

/-- A die woken where the package runs. -/
def State.holdAwake (s : State) (d : Nat) : State := if s.pkg == .running then s.wakeDie d else s

theorem State.holdAwake_frame (s : State) (d : Nat) : s.holdAwake d = { s with dies := (s.holdAwake d).dies } := by
  unfold State.holdAwake
  split_ifs <;> rfl

theorem State.holdAwake_regs (s : State) (d : Nat) : (s.holdAwake d).regs = s.regs := by rw [State.holdAwake_frame]
theorem State.holdAwake_cores (s : State) (d : Nat) : (s.holdAwake d).cores = s.cores := by rw [State.holdAwake_frame]
theorem State.holdAwake_pkg (s : State) (d : Nat) : (s.holdAwake d).pkg = s.pkg := by rw [State.holdAwake_frame]

theorem State.die_holdAwake {s : State} (hup : s.up = true) (d e : Nat) :
    (s.holdAwake d).die e = if e = d then (s.die e).roused e else s.die e := by
  unfold State.up at hup
  rw [State.holdAwake, if_pos hup]
  rw [State.wakeDie_eq, State.die_onDie]
  split_ifs with h
  · rw [h]
  · rfl

theorem State.die_foldl_holdAwake (e : Nat) (l : List Nat) : ∀ s : State, s.up = true →
    (l.foldl State.holdAwake s).die e = if e ∈ l then (s.die e).roused e else s.die e := by
  induction l with
  | nil => simp
  | cons d l ih =>
    intro s hup
    have hup' : (s.holdAwake d).up = true := by
      unfold State.up at hup ⊢
      rw [State.holdAwake_pkg, hup]
    rw [List.foldl_cons, ih _ hup', State.die_holdAwake hup]
    by_cases h : e = d
    · subst h
      simp [Die.roused_roused]
    · simp [h]

/-- PWR_HOLD_AWAKE written, and the dies that it names woken. -/
def State.heldAwake (s : State) (dies : BitVec 24) : State :=
  ((List.range 24).filter (fun d => bitOf dies.toNat d)).foldl State.holdAwake (s.wr R.PWR_HOLD_AWAKE dies.toNat)

theorem exec_pwrHoldAwakeWrite {s : State} (h : s.reachable .pwr 0) (dies : BitVec 24) :
    exec (.pwrHoldAwakeWrite dies) s = .next (s.heldAwake dies) :=
  congrArg Host.Outcome.next (State.hostCmd_acts _ h)

theorem State.heldAwake_wakes (s : State) (dies : BitVec 24) :
    (s.heldAwake dies).rd R.PWR_HOLD_AWAKE = dies.toNat ∧ FieldsKept s (s.heldAwake dies) [R.PWR_HOLD_AWAKE.key 0 0] ∧
    (s.heldAwake dies).cores = s.cores ∧
    ∀ d < 24, s.up = true → bitOf dies.toNat d = true → (s.die d).power = .gated →
      (s.die d).tested = false ∨ (s.die d).passed = true ∨ 16 ≤ d → ((s.heldAwake dies).die d).power = .waking := by
  have hregs : (s.heldAwake dies).regs = (s.wr R.PWR_HOLD_AWAKE dies.toNat).regs := foldl_kept State.regs State.holdAwake_regs _ _
  have hcores : (s.heldAwake dies).cores = s.cores := foldl_kept State.cores State.holdAwake_cores _ _
  refine ⟨?_, ((FieldsKept.refl s _).wr _ (by simp)).of_regs hregs, hcores, fun d hd hup hbit hgated hgood => ?_⟩
  · rw [State.rd_of_regs hregs, State.rd_wr_same]
    exact Nat.mod_eq_of_lt dies.isLt
  · have hmem : d ∈ (List.range 24).filter (fun d => bitOf dies.toNat d) := List.mem_filter.2 ⟨List.mem_range.2 hd, hbit⟩
    have hup' : (s.wr R.PWR_HOLD_AWAKE dies.toNat).up = true := hup
    rw [State.heldAwake, State.die_foldl_holdAwake d _ _ hup', if_pos hmem, State.die_wr]
    exact Die.roused_power hgated hgood

/-! ## The settled statement -/

/-- Settles O42: each of the six rows makes the step of its name, and what the states after them hold. -/
theorem regionsAndDiesSleep : Obligations.RegionsAndDiesSleep := by
  unfold Obligations.RegionsAndDiesSleep
  intro s hl
  refine ⟨fun p => ⟨exec_regionClockStop hl, fun hg hr => ?_, fun hr ha => ?_⟩, fun die => ⟨fun hg hp hh => ⟨fun h16 hc hn ht => ?_,
    fun h16 hn => ?_⟩, fun hp => ?_⟩, fun dies hreach => ?_⟩
  · obtain ⟨hframe, hkept, hregion, hfields⟩ := State.gateRegion_frame (s.waitUntil ((s.core p).regionAt + s.gateDelay)) p
    have hopen : ((s.waitUntil ((s.core p).regionAt + s.gateDelay)).core p).gatedNow = false := by
      rw [State.core_waitUntil]
      simp [Core.gatedNow, hr]
    obtain ⟨hkeep, hpowered, hlost⟩ := State.gateRegion_shows hopen
    rw [State.core_waitUntil] at hkeep
    rw [State.rd_of_regs (s.waitUntil_regs _)] at hkeep
    refine ⟨_, exec_regionPowerGate hl hg hr, ?_, hregion, hkeep, hpowered, hlost, fun q hq => ?_, fun f i k hk => ?_⟩
    · rw [RanTo, hframe]
      exact s.waitUntil_tick _
    · rw [hkept q hq, State.core_waitUntil]
    · rw [hfields f i k hk, State.rd_of_regs (s.waitUntil_regs _)]
  · obtain ⟨hpowered, hlost, hfields⟩ := s.regionWoken_shows p
    have hcore : (s.regionWoken p).core p = (s.core p).repowered s.tick := by rw [State.regionWoken_core, if_pos rfl]
    refine ⟨s.regionWoken p, exec_regionWakeDone hl hr ha, ?_, hpowered, fun q hq => ?_, hfields, fun h => ?_, fun h => ?_⟩
    · rw [hcore, Core.repowered_region]
    · rw [State.regionWoken_core, if_neg (by simpa using hq)]
    · rw [hlost, hcore, h]
      exact ⟨rfl, Core.repowered_kept h _⟩
    · rw [hlost, hcore, h]
      exact ⟨rfl, Core.repowered_lost h _⟩
  · obtain ⟨hpower, hhbm, hcores, htick⟩ := s.dieAsleep_rests die
    obtain ⟨hgated, hself⟩ := s.dieAsleep_shows h16
    refine ⟨s.dieAsleep die, (exec_diePowerGate hl hg hp hh).1 h16 hc hn ht, hpower, hgated, hself, hhbm, hcores, fun c hc => ?_⟩
    have := s.regionAt_le_lastGated die hc
    omega
  · exact ⟨_, (exec_diePowerGate hl hg hp hh).2 h16 hn, by rw [State.die_onDie_same], rfl, rfl⟩
  · obtain ⟨hdie, hhbm, hcore⟩ := s.dieWoken_wakes die
    refine ⟨_, exec_dieWakeDone hl hp, congrArg Die.power hdie, congrArg Die.isLocal hdie, congrArg Die.owed hdie, hhbm, fun p => ?_,
      fun h16 => ?_⟩
    · rw [hcore, hdie]
      rfl
    · rw [State.dieWoken, if_pos h16]
      obtain ⟨hgated, hself, -⟩ := (s.dieLocal die).dieShown_shows h16
      exact ⟨hgated, hself, State.dieShown_clocked _ h16⟩
  · obtain ⟨hhold, hfields, hcores, hwakes⟩ := s.heldAwake_wakes dies
    exact ⟨_, exec_pwrHoldAwakeWrite hreach dies, hhold, hfields, hcores, hwakes⟩

end Sys2Proof.Machine
end

-- ==== MSI-X Enable of an unmasked function ====
section
/-! PROOFS. MSI-X Enable when a function is unmasked (R499): a state whose one-bit field stores 2 does not keep it (O58). -/

namespace Sys2Proof.Machine

/-! ## Messages that wait (R499) -/

theorem State.unmaskSend_regs (s : State) (f entry : Nat) : (s.unmaskSend f entry).regs = s.regs := by
  unfold State.unmaskSend
  dsimp only
  split_ifs <;> rfl

theorem State.unmaskAll_regs (s : State) (f : Nat) : (s.unmaskAll f).regs = s.regs :=
  foldl_kept State.regs (fun t e => t.unmaskSend_regs f e) _ s

/-- MSI-X Enable holds the bit that software sets, whatever was stored there. -/
theorem State.rd_msixControl (s : State) (f : Nat) (en masked : Bool) :
    (s.msixControl f en masked).rd R.HIF_FUNC_MSIX_EN 0 f = ofBool en := by
  unfold State.msixControl
  rw [State.rd_of_regs (State.unmaskAll_regs _ f)]
  refine (State.rd_wr_same s R.HIF_FUNC_MSIX_EN (ofBool en) 0 f).trans ?_
  cases en <;> rfl

theorem exec_msixUnmask_function {s : State} {f : Fin 16} (hup : s.pcieUp = true) (hf : s.fnPresent f = true) :
    exec (.msixUnmask f none) s = .next (s.msixControl f (s.on R.HIF_FUNC_MSIX_EN 0 f) false) := by
  simp only [exec, execMsixUnmask, hup, hf]
  rfl

/-! ## A state that a function's unmasking does not keep -/

/-- A package that runs with its PCI Express link up, and the value 2 stored for the one-bit MSI-X Enable of the physical function. -/
def wideEnable : State :=
  let s := (State.reset.wr R.HUB_BRINGUP_STATUS_AON_PCIE 1).wr R.HIF_LINK_SPEED 1
  { s with pkg := .running, regs := SMap.set 0 s.regs (R.HIF_FUNC_MSIX_EN.key 0 0) 2 }

theorem wideEnable_answers : wideEnable.pcieUp = true ∧ wideEnable.fnPresent 0 = true ∧ wideEnable.rd R.HIF_FUNC_MSIX_EN 0 0 = 2 := by
  decide +kernel

/-- Refutes O58: unmasking a function is to keep every register field of every state. The row writes MSI-X Enable back as the bit that it
reads as, so that a state in which 2 is stored for that field, which `State.wr` would have cut to its one bit, reads 0 there afterwards; the
statement has no hypothesis that excludes such a state. -/
theorem not_debugAndDeviceMemory : ¬ Obligations.DebugAndDeviceMemory := by
  unfold Obligations.DebugAndDeviceMemory
  rintro ⟨-, hmemory, -⟩
  obtain ⟨-, -, -, -, -, hunmask⟩ := hmemory wideEnable
  obtain ⟨hup, hpresent, hwide⟩ := wideEnable_answers
  obtain ⟨t, hexec, -, hkept, -⟩ := hunmask 0 hup hpresent
  rw [exec_msixUnmask_function (f := 0) hup hpresent] at hexec
  injection hexec with ht
  subst ht
  have hoff : wideEnable.on R.HIF_FUNC_MSIX_EN 0 0 = false := by simp [State.on, hwide]
  have hzero : (wideEnable.msixControl 0 (wideEnable.on R.HIF_FUNC_MSIX_EN 0 0) false).rd R.HIF_FUNC_MSIX_EN 0 0 = 0 := by
    rw [State.rd_msixControl, hoff]
    rfl
  have htwo := (hkept R.HIF_FUNC_MSIX_EN 0 0 List.not_mem_nil).trans hwide
  exact absurd (hzero.symm.trans htwo) (by decide)

end Sys2Proof.Machine
end
